-- ==== Sys2Proof/Word.lean ====
section
/-! DEFINITION. The word types of the OW9624 model, the table type that every repeated piece of state uses, and the
plainest conversions between them. Quantities that the manual counts (instants, frames, lines, clocks, addresses) are `Nat`. -/

namespace Sys2Proof

/-- A 32-bit register (03 R55). -/
abbrev Word := BitVec 32

/-- A byte of memory or of a message. -/
abbrev Byte := BitVec 8

/-- A sparse table: (key, entry) pairs with rising keys. What an unlisted key holds is said where the table is read. -/
abbrev Tab (α : Type) := List (Nat × α)

/-- Bits `hi` down to `lo` of a number, the manual's [hi:lo] (00 R4). -/
def bits (n hi lo : Nat) : Nat := (n >>> lo) % 2 ^ (hi + 1 - lo)

/-- Bit `i` of a number. -/
def bitOf (n i : Nat) : Bool := n.testBit i

/-- A Bool as the number 0 or 1. -/
def b2n (b : Bool) : Nat := if b then 1 else 0

/-- The number that a little-endian list of bytes spells (02 R29). -/
def leNat : List Byte → Nat
  | [] => 0
  | b :: bs => b.toNat + 256 * leNat bs

/-- The `n` low bytes of a number, little-endian (02 R29). -/
def leBytes : Nat → Nat → List Byte
  | 0, _ => []
  | n + 1, v => BitVec.ofNat 8 v :: leBytes n (v / 256)

/-- A two's-complement reading of the low `w` bits of a number. -/
def signedOf (w n : Nat) : Int :=
  let m := n % 2 ^ w
  if m < 2 ^ (w - 1) then (m : Int) else (m : Int) - 2 ^ w

/-- The low `w` bits of an integer, as a number. -/
def unsignedOf (w : Nat) (i : Int) : Nat := (i % (2 ^ w : Nat)).toNat

end Sys2Proof
end

