-- ==== Sys2Proof/Syntax.lean ====
section
/-! DEFINITION. The commands of the OW9624: one constructor of `Instr` for each row of spec/opcode_table.json, in the
table's order. The first operand `dt` of every command is the time in ns since the command before it (notes/assumptions/1).
An event of the device itself (a catch, a tile written, a time-out) is a command too: it says when the event happens. -/

namespace Sys2Proof

/-- The master of a register access (03 R69, SYS.DK_INFO.source). -/
inductive Master where
  | host (port : Nat) | spi | cox | cascade
  deriving DecidableEq, Repr, Inhabited

/-- One register access: its master, the crew whose window it uses and the byte offset in that window (03 R53). -/
structure Acc where
  master : Master
  crew : Nat
  addr : Nat
  deriving DecidableEq, Repr, Inhabited

/-- One register read: the first byte's access and the number of bytes (03 R55). -/
structure WideRead where
  acc : Acc
  size : Nat
  deriving DecidableEq, Repr, Inhabited

/-- The data of one register write: the low word and, in an 8-byte access, the high word (03 R55). -/
structure WideWrite where
  low : Word
  high : Option Word
  deriving DecidableEq, Repr, Inhabited

/-- The node and the direction bit of a CAN FD identifier (02 R39). -/
structure CanDest where
  node : Nat
  dir : Bool
  deriving DecidableEq, Repr, Inhabited

/-- The deviations of one monitor window, of the primary and of the active reference (08 R220). -/
structure RefCounts where
  primary : Nat
  active : Nat
  deriving DecidableEq, Repr, Inhabited

/-- A CSI-2 frame start or end packet: its virtual channel and its header's check (09 R233). -/
structure ShortPacket where
  vc : Nat
  header : Nat
  deriving DecidableEq, Repr, Inhabited

/-- The transport a dictionary request arrives on (02 R36, R45, R47). -/
inductive Via where
  | can (k client : Nat) | eth (k srcIp srcPort : Nat) | mailbox (crew : Nat)
  deriving DecidableEq, Repr, Inhabited

/-- The fields of one dictionary request (02 R40, R43); `unknown`: its command code is none of the requests of R40. -/
structure Req where
  node : Nat
  tag : Nat
  index : Nat
  sub : Nat
  dir : Bool
  offset : Nat
  length : Nat
  data : List Byte
  unknown : Bool := false
  deriving DecidableEq, Repr, Inhabited

/-- An object's value: a number, or the content bytes of a STR or BLOB (02 R29). -/
inductive Val where
  | num (n : Nat) | bytes (b : List Byte)
  deriving DecidableEq, Repr, Inhabited

/-- What an eDP sink reports over AUX (08 R206 steps 2, 3 and 5). -/
structure SinkCaps where
  maxRate : Nat
  maxLanes : Nat
  dsc : Bool
  adaptiveSync : Bool
  psr : Bool
  selective : Bool
  deriving DecidableEq, Repr, Inhabited

/-- One telltale bitmap of the limp record: `gpio` none is the condition "always" (12 R340). -/
structure LimpBitmap where
  x : Nat
  y : Nat
  w : Nat
  h : Nat
  pixels : List Nat
  palette : List Nat
  gpio : Option (Nat × Bool)
  deriving DecidableEq, Repr, Inhabited

/-- The limp record of the launch configuration (12 R340). -/
structure LimpRecord where
  background : Nat
  bitmaps : List LimpBitmap
  deriving DecidableEq, Repr, Inhabited

/-- The blend program of an early-camera record (05 R123, 09 R249): its region, steps, scaler table, matrix, and meshes, each coordinate by mesh ×
4,096 + 2 × point + axis. -/
structure EarlyProgram where
  region : Nat
  everyFrame : Bool
  steps : List Nat
  scaler : List Int
  matrix : List Int
  mesh : List (Nat × Int)
  deriving DecidableEq, Repr, Inhabited

/-- The early-camera record (09 R249): port, slot, lane and blend program; the receiver, slot and lane settings it carries, and the destination
rectangle of layer 0, are objects. -/
structure EarlyCamera where
  port : Nat
  slot : Nat
  lane : Nat
  objects : List (Nat × Val)
  program : Option EarlyProgram
  deriving DecidableEq, Repr, Inhabited

/-- The launch configuration an image carries (15 R396 step 2): object values by key index × 256 + subindex, umpire
classes, the limp lane and pair, and the options that have no object. -/
structure LaunchCfg where
  objects : List (Nat × Val)
  refCfg : Nat
  classes : List (Nat × Nat)
  limpLane : Nat
  limpPair : Nat
  alarmPolicy : Nat
  targetLimp : Bool
  selftest : Bool
  provisionWindow : Nat
  portsEnabled : Nat
  lp5Bytes : Nat
  lp5Rate : Nat
  lp5Ecc : Bool
  panelInit : List (Nat × List Byte)
  early : Option EarlyCamera
  deriving DecidableEq, Repr, Inhabited

/-- A boot image as the ROM reads it (14 R375). -/
structure BootImage where
  headerGood : Bool
  slot : Nat
  publicKey : List Byte
  body : List Byte
  signature : List Byte
  version : Nat
  raiseMin : Bool
  blob : Nat
  cfg : LaunchCfg
  deriving DecidableEq, Repr, Inhabited

/-- A provisioning package (14 R389). -/
structure Package where
  keys : Nat
  debugHash : Option Nat
  bootHashes : List (Nat × Nat)
  signed : List Byte
  signature : List Byte
  deriving DecidableEq, Repr, Inhabited

/-- A bus error response to the mover (10 R275, MOVE.SYNDROME). -/
structure BusError where
  write : Bool
  channel : Nat
  kind : Nat
  index : Nat
  cause : Nat
  address : Nat
  deriving DecidableEq, Repr, Inhabited

/-- One wake source (15 R400). -/
inductive WakeSource where
  | wakePin | smuPulse0
  deriving DecidableEq, Repr, Inhabited

/-- A journey of the taximeter (13 R355, R356). `kind` is 0 FOR_HIRE, 1 HIRED, 2 STOPPED. -/
structure Journey where
  kind : Nat
  tariff : Nat
  fare : Nat
  supplements : Nat
  acc : Int
  startOdo : Nat
  ticks : Nat
  deriving DecidableEq, Repr, Inhabited

/-- A state record in a slot of SMU_SPI (13 R362): `counter` is the monotonic counter it carries, `pulses` the four inputs'. -/
structure SmuSlot where
  authentic : Bool
  counter : Nat
  pulses : List Nat
  journey : Journey
  eventCounter : Nat
  tripA : Nat
  tripB : Nat
  time : Nat
  deriving DecidableEq, Repr, Inhabited

/-- The commands, one constructor per row of spec/opcode_table.json. -/
inductive Instr where
  -- dictionary (02)
  | read (dt : Nat) (via : Via) (req : Req)
  | write (dt : Nat) (via : Via) (req : Req)
  | describe (dt : Nat) (via : Via) (req : Req)
  | segReadInit (dt k client : Nat) (req : Req)
  | segWriteInit (dt k client : Nat) (req : Req)
  | segData (dt k client : Nat) (dest : CanDest) (tag seq : Nat) (data : List Byte)
  | segAck (dt k client : Nat) (dest : CanDest) (tag seq : Nat)
  | cancel (dt k client : Nat) (dest : CanDest) (tag : Nat)
  | segTimeout (dt k client node : Nat)
  | udpDatagram (dt k srcIp srcPort : Nat) (payload : List Byte)
  | mbxGo (dt crew : Nat) (value : Word)
  | mbxRequestBufferWrite (dt crew offset : Nat) (value : Word)
  | mbxDone (dt crew : Nat)
  | functionLevelReset (dt port fn : Nat)
  | resyncRequest (dt crew token : Nat)
  -- registers (03)
  | setAliasWrite (dt : Nat) (acc : Acc) (value : Word)
  | clearAliasWrite (dt : Nat) (acc : Acc) (value : Word)
  | toggleAliasWrite (dt : Nat) (acc : Acc) (value : Word)
  | statusWriteBack (dt : Nat) (acc : Acc) (value : Word)
  | keyAWrite (dt : Nat) (acc : Acc) (value : Word)
  | keyBWrite (dt : Nat) (acc : Acc) (value : Word)
  | dualKeyTimeout (dt block : Nat)
  | loReadLatch (dt : Nat) (span : WideRead)
  | countsSnapshot (dt : Nat) (acc : Acc)
  | registerWrite (dt : Nat) (acc : Acc) (value : WideWrite)
  | unimplAccess (dt : Nat) (acc : Acc) (write : Bool) (size enables : Nat)
  | stallTimeout (dt : Nat) (acc : Acc) (write : Bool)
  | spiRead (dt addr : Nat)
  | spiWrite (dt addr : Nat) (value : Word)
  | spiBadCommand (dt command : Nat)
  | wakeFailed (dt domain : Nat)
  -- layers and commits (04)
  | layerCreate (dt crew : Nat)
  | layerDestroy (dt crew : Nat)
  | layerSet (dt crew : Nat)
  | commit (dt crew : Nat)
  | fenceWait (dt crew : Nat)
  | fenceWaitPoll (dt crew : Nat)
  | fenceWaitExpired (dt crew : Nat)
  | fenceSignal (dt crew : Nat)
  | malformedItem (dt crew : Nat)
  | commitAcceptance (dt crew : Nat)
  | laneCommitWrite (dt : Nat) (acc : Acc) (lane : Nat) (value : Word)
  | fenceRead (dt lane : Nat)
  | laneCatch (dt lane : Nat)
  | retimeF0Start (dt lane : Nat)
  | presented (dt lane : Nat)
  -- lanes and composition (05, 07)
  | frameStart (dt lane : Nat)
  | quarterWake (dt quarters : Nat)
  | rowRelease (dt lane row : Nat)
  | tileWrite (dt lane col row : Nat)
  | rowClose (dt lane row : Nat)
  | portStall (dt lane line x count : Nat) (uncorrectable : Bool)
  | selfRefreshEntry (dt lane : Nat)
  | vrrPorchMin (dt lane : Nat)
  | heatComplete (dt lane : Nat)
  | vrrMaxFrontPorch (dt lane : Nat)
  -- ports and clocks (08)
  | edpBringup (dt lane : Nat) (sink : Option SinkCaps)
  | linkTrainingAttempt (dt lane : Nat) (trained : Bool)
  | hpdTimeout (dt lane : Nat)
  | hpdRise (dt lane : Nat)
  | hpdUnplug (dt lane : Nat)
  | hpdIrq (dt lane : Nat) (linkLost : Bool)
  | dsiBringup (dt lane : Nat) (errorReport : Bool)
  | teEdge (dt lane : Nat) (rising : Bool)
  | dsiCmdSend (dt lane : Nat) (answer : Option (List Byte))
  | blpwmPeriodStart (dt lane : Nat)
  | pclkLock (dt lane : Nat)
  | pclkUnlock (dt lane : Nat)
  | refMonitorWindow (dt : Nat) (counts : RefCounts) (watchHz : Nat)
  | grossLoss (dt : Nat)
  | refRestore (dt : Nat)
  -- cameras (09)
  | csiFrameStart (dt port : Nat) (packet : ShortPacket)
  | csiLongPacket (dt port vc dataType header : Nat) (crcError : Bool) (samples : List Nat)
  | csiFrameEnd (dt port : Nat) (packet : ShortPacket)
  | lineLanded (dt port slot line : Nat)
  | streamLost (dt port slot : Nat)
  | bandAbandoned (dt port slot band : Nat)
  | processedLineSignal (dt port slot : Nat)
  | forwardDone (dt port slot : Nat)
  -- programs, writeback, placement (05, 06)
  | programSet (dt crew : Nat)
  | programReady (dt crew : Nat)
  | programDelete (dt crew : Nat)
  | writebackDone (dt lane : Nat)
  | writebackAbandoned (dt lane : Nat)
  | residenceCopyDone (dt layer : Nat)
  | pin (dt crew : Nat)
  | shedEvaluation (dt : Nat)
  | shellSelftestStart (dt : Nat)
  | shellSelftestEnd (dt : Nat) (passed : Bool)
  | scrubPass (dt : Nat) (lp5 : Bool) (channel : Nat) (corrected uncorrectable : List Nat)
  | selftestRequest (dt : Nat) (dualKey : Bool) (value : Word)
  -- blits (10)
  | fill (dt crew : Nat)
  | copy (dt crew : Nat)
  | blendCopy (dt crew : Nat)
  | rect (dt crew : Nat)
  | line (dt crew : Nat)
  | glyph (dt crew : Nat)
  | blitDone (dt crew : Nat)
  -- mover and utility DMA (10)
  | moverStart (dt : Nat) (acc : Acc) (channel : Nat)
  | moverResume (dt : Nat) (acc : Acc) (channel : Nat)
  | moverAbort (dt : Nat) (acc : Acc) (channel : Nat)
  | moverSwReq (dt : Nat) (acc : Acc) (channel : Nat)
  | swLineWrite (dt : Nat) (acc : Acc) (value : Word)
  | requestEdge (dt line : Nat)
  | moverBurstStart (dt channel : Nat)
  | moverBurstDone (dt channel : Nat)
  | descriptorFetch (dt channel : Nat)
  | moverBusError (dt : Nat) (err : BusError) (complete : List (Nat × Nat))
  | allStopComplete (dt : Nat)
  | stopClear (dt : Nat) (acc : Acc)
  | autoResume (dt : Nat)
  | udmaStart (dt : Nat) (acc : Acc) (channel : Nat)
  | udmaResume (dt : Nat) (acc : Acc) (channel : Nat)
  | udmaAbort (dt : Nat) (acc : Acc) (channel : Nat)
  | udmaBurstDone (dt : Nat)
  | udmaBusError (dt : Nat) (err : BusError)
  -- host ports and queues (11)
  | perstAssert (dt port : Nat)
  | perstDeassert (dt port : Nat)
  | portReady (dt port : Nat)
  | hostLinkDown (dt port : Nat)
  | hostLinkUp (dt port lanes speed : Nat)
  | linkRetrain (dt port lanes speed : Nat)
  | vfEnableChange (dt port : Nat) (enable : Bool) (numVfs : Nat)
  | apertureRead (dt crew offset count : Nat) (uncorrectable : Option (Bool × Nat))
  | apertureWrite (dt crew offset : Nat) (data : List Byte)
  | xltInvalidate (dt : Nat) (acc : Acc) (value : Word)
  | xltInvalDone (dt crew : Nat)
  | cqPush (dt crew : Nat) (hi : Word)
  | cqFlush (dt crew : Nat)
  | eqPop (dt crew : Nat)
  | eqPopTimeout (dt crew : Nat)
  | eqArm (dt crew : Nat) (value : Word)
  | doorbell (dt crew : Nat)
  | cplTimeout (dt port : Nat) (reader : Option BusError)
  -- photo-finish and umpire (12)
  | regionEvaluation (dt lane region : Nat)
  | photoRearm (dt crew lane region : Nat)
  | faultOccurrence (dt source detail : Nat)
  | limpFrameStart (dt gpio : Nat)
  | umpireSnapshot (dt : Nat) (acc : Acc)
  | umpireClear (dt : Nat) (acc : Acc) (value : Word)
  | umpireClassWrite (dt : Nat) (acc : Acc) (k : Nat) (value : Word)
  | c3Ack (dt : Nat) (acc : Acc) (value : Word)
  | faultInject (dt : Nat) (acc : Acc) (value : Word)
  -- sealed measuring unit (13)
  | smuStart (dt : Nat) (slots : List SmuSlot) (fwSigned : Bool)
  | smuPulseEdge (dt input : Nat)
  | overrateClear (dt : Nat)
  | smuTick (dt : Nat)
  | indicationPost (dt buffer : Nat) (raster : List Nat)
  | indicationGapTimeout (dt : Nat)
  | smuSealChange (dt : Nat) (opened : Bool)
  | sealOpenTimeout (dt : Nat)
  | hire (dt crew : Nat)
  | tariff (dt crew : Nat)
  | stop (dt crew : Nat)
  | endJourney (dt crew : Nat)
  | supplement (dt crew : Nat)
  | tripReset (dt crew : Nat)
  | showId (dt crew : Nat)
  | showIdEnd (dt : Nat)
  | timeOffset (dt crew : Nat)
  | verifyChallenge (dt crew : Nat)
  | verifyOpen (dt crew : Nat)
  | paramWrite (dt crew : Nat)
  | verifyClose (dt crew : Nat)
  | verifyCloseTimeout (dt : Nat)
  | verifyInactivityTimeout (dt : Nat)
  | fwBlock (dt crew : Nat)
  | logClear (dt crew : Nat)
  -- security (14)
  | bootImageCheck (dt : Nat) (imageA imageB : BootImage)
  | revoke (dt : Nat) (acc : Acc) (value : Word)
  | dbgChallengeRead (dt : Nat)
  | dbgUnlock (dt scope : Nat) (signature : List Byte)
  | dbgBackoffExpiry (dt : Nat)
  | securityAlarm (dt alarm : Nat)
  | alarmPolicyWrite (dt : Nat) (acc : Acc) (value : Word)
  | provisionWindowExpiry (dt : Nat)
  -- modes and power (15, 17)
  | modeRequest (dt : Nat) (acc : Acc) (value : Word)
  | launchComplete (dt : Nat)
  | fullSelftestDone (dt : Nat) (shells boathouse lp5 : List Nat) (limpComposer : Bool)
  | sleepRequest (dt : Nat) (acc : Acc) (value : Word)
  | sleepComplete (dt : Nat)
  | wake (dt : Nat) (source : WakeSource)
  | resetN (dt lowNs : Nat)
  | resetRelease (dt straps : Nat)
  | supplyFault (dt supply : Nat) (belowReset : Bool)
  | vstbyApplied (dt : Nat)
  | powerCycle (dt : Nat)
  | throttleRaise (dt : Nat)
  | throttleLower (dt : Nat)
  -- cascade (16)
  | silithLinkUp (dt link peer : Nat) (peerMaster towardsMaster authentic loop : Bool) (delay : Nat)
  | silithLinkRetry (dt link : Nat)
  | silithLinkLost (dt link : Nat)
  | frameStartMarker (dt : Nat) (masterCatch : Bool)
  | markerLate (dt lane : Nat)
  | leavingMarker (dt : Nat)
  | masterKeepaliveTimeout (dt : Nat)
  | forwardTimeout (dt node : Nat)
  | nodeSummary (dt node mode : Nat) (nfaultLow : Bool) (links : Nat) (umpire : Nat)
  | eventTx (dt : Nat) (acc : Acc) (mask : Nat)
  | spanResync (dt span : Nat)
  -- clocks, network and start-up events
  | xtal32Fault (dt : Nat)
  | xtal32RcWindowEnd (dt : Nat)
  | vstbyRemoved (dt : Nat)
  | arpRequest (dt k ip : Nat)
  | icmpEchoRequest (dt k ip : Nat) (data : List Byte)
  | domainIdleOff (dt domain : Nat)
  | limpRecordLoaded (dt : Nat) (record : LimpRecord)
  | planBuilt (dt : Nat)
  | masterBack (dt : Nat)
  deriving DecidableEq, Repr, Inhabited

end Sys2Proof
end

