-- ==== Sys2Proof/Config.lean ====
section
/-! DEFINITION. What one implementation or one board fixes and the manual leaves open. Every constant here is opaque: no
proof can see its value, so a claim holds whatever it is. -/

namespace Sys2Proof.Config

/-- A fresh free value for each number drawn: `State.freeCount` is the number (notes/assumptions/2). -/
opaque freeValue : Nat → Nat

/-- SYS.ID die and frame-store revision, no reset value given (03 R69). -/
opaque dieRev : Nat
opaque fsRev : Nat

/-- How long after reset release, in ns, the register fabric comes up; no more than 1 ms counts (15 R406). -/
opaque fabricTime : Nat

/-- id.fw_version of the running cox firmware (02 R52). -/
opaque fwVersion : Nat

/-- How the cox rounds a default scaler coefficient, by axis, the ratio's two terms, phase and tap: the rounded value is at most one step
from the nearest (05 R115, which gives the filter and the sum of a phase). -/
opaque scalerTrim : Nat → Nat → Nat → Nat → Nat → Int

/-- SHA-384 of a byte string, as a number (13 R368, 14 R375). -/
opaque sha384 : List Byte → Nat

/-- ECDSA P-384: public key hash, message, signature (14 R375, R379, R389). -/
opaque ecdsaVerifies : Nat → List Byte → List Byte → Bool

/-- The AES-256-GCM tag of a challenge and the words of a request under the SMU's verification key (13 R364). -/
opaque smuTag : Nat → List Nat → Nat

/-- Whether the wrapped key blob unwraps under the root key at an epoch (14 R374). -/
opaque blobUnwraps : Nat → Nat → Bool

/-- smu.fw_id text of an SMU firmware image, by its SHA-384 (13 R368). -/
opaque smuFwId : Nat → List Byte

/-- What a provisioning package's bytes hold (14 R389, which gives no layout). -/
opaque packageOf : List Byte → Package

/-- Whether an SMU firmware image carries a valid Brynsal signature (13 R368). -/
opaque smuImageSigned : List Byte → Bool

/-- The Picture Parameter Set that the cox fills from the DSC 1.2a recommended values, by the DSC settings of a lane (08 R212, which gives no
byte of it). -/
opaque pictureParameterSet : List Nat → List Byte

/-- The byte offset in the boathouse the cox chooses for a lane's frame, by lane and placement generation (07 R174). -/
opaque frameBase : Nat → Nat → Nat

/-- The address the cox chooses for a stream's ring, by slot and placement generation: of a line ring in the boathouse, of a frame ring in LP5X
(06 R145, which gives no place). -/
opaque ringBase : Nat → Nat → Nat

/-- The device address of a backed granule, by crew and granule number (04 R73: which granule lies where is not reported). -/
opaque granuleBase : Nat → Nat → Nat

/-- The order in which the cox prefers shells, within the limits of 06 R146, R154 and R157. -/
opaque shellRank : Nat → Nat

end Sys2Proof.Config
end

