-- ==== Sys2Proof/Machine/Objects.lean ====
section
/-! DEFINITION. The object dictionary as the manual's tables give it (02 R25, R28, R29, R52, 04 R78, R93, 05 R131, R136,
06 R159, R170, 07 R198, 08 R225, R226, 09 R252, 10 R283, 12 R331, R349, 13 R371, 14 R390, 16 R426): each object's type,
access class, write right, default and range. -/

namespace Sys2Proof.Machine

open Sys2Proof

/-- Object types (02 R29). -/
inductive Ty where
  | bool | u8 | u16 | u20 | u32 | u64 | i32 | q19 | str | blob
  deriving DecidableEq, Repr, Inhabited

/-- The type code that DESCRIBE reports (02 R29, R40). -/
def Ty.code : Ty → Nat
  | .bool => 1 | .u8 => 2 | .u16 => 3 | .u20 => 4 | .u32 => 5 | .u64 => 6 | .i32 => 7 | .q19 => 8 | .str => 9 | .blob => 10

/-- The encoded size of a number type (02 R29); 0 for STR and BLOB, whose size is their own. -/
def Ty.size : Ty → Nat
  | .bool => 1 | .u8 => 1 | .u16 => 2 | .u20 => 3 | .u32 => 4 | .u64 => 8 | .i32 => 4 | .q19 => 3 | .str => 0 | .blob => 0

/-- Access classes (02 R30), with WRITE_RSP codes of R40. -/
inductive Access4 where
  | ro | rw | wo | rwc
  deriving DecidableEq, Repr, Inhabited

def Access4.code : Access4 → Nat
  | .ro => 0 | .rw => 1 | .wo => 2 | .rwc => 3

/-- Who may write an object (02 R21 and the object tables). -/
inductive Right where
  | none | anyCrew | owner | portManager | system | sealed | laneCommit | writeback | photoOwner | restore
  deriving DecidableEq, Repr, Inhabited

/-- The rights bits of DESCRIBE_RSP (02 R40): bit 0 OWNER, 1 PORT_MANAGER, 2 SYSTEM, 3 SEALED; every holder that has it. -/
def Right.code : Right → Nat
  | .none => 0 | .anyCrew => 7 | .owner => 7 | .portManager => 6 | .system => 4 | .sealed => 8
  | .laneCommit => 7 | .writeback => 7 | .photoOwner => 5 | .restore => 7

/-- One object of the dictionary. -/
structure ObjRow where
  sub : Nat
  ty : Ty
  access : Access4
  right : Right
  dflt : Option Val
  ok : Nat → Bool
  maxBytes : Nat

/-- Every number of the type is in range. -/
def anyN : Nat → Bool := fun _ => true

/-- A range with both ends in it. -/
def within (lo hi : Nat) : Nat → Bool := fun n => decide (lo ≤ n) && decide (n ≤ hi)

/-- An RO object. -/
def ro (sub : Nat) (ty : Ty) : ObjRow :=
  { sub := sub, ty := ty, access := .ro, right := .none, dflt := none, ok := anyN, maxBytes := 0 }

/-- An RO number whose table gives a default, which DESCRIBE reports (02 R40). -/
def roD (sub : Nat) (ty : Ty) (d : Nat) : ObjRow :=
  { sub := sub, ty := ty, access := .ro, right := .none, dflt := some (.num d), ok := anyN, maxBytes := 0 }

/-- An RW object with a default. -/
def rw (sub : Nat) (ty : Ty) (r : Right) (d : Nat) (ok : Nat → Bool) : ObjRow :=
  { sub := sub, ty := ty, access := .rw, right := r, dflt := some (.num d), ok := ok, maxBytes := 0 }

/-- An RWC object with a default. -/
def rwc (sub : Nat) (ty : Ty) (r : Right) (d : Nat) (ok : Nat → Bool) : ObjRow :=
  { sub := sub, ty := ty, access := .rwc, right := r, dflt := some (.num d), ok := ok, maxBytes := 0 }

/-- An RW or RWC object whose value comes from the launch configuration. -/
def launch (sub : Nat) (ty : Ty) (a : Access4) (ok : Nat → Bool) : ObjRow :=
  { sub := sub, ty := ty, access := a, right := .system, dflt := none, ok := ok, maxBytes := 0 }

/-- A WO object. -/
def wo (sub : Nat) (ty : Ty) (r : Right) (ok : Nat → Bool) (n : Nat) : ObjRow :=
  { sub := sub, ty := ty, access := .wo, right := r, dflt := none, ok := ok, maxBytes := n }

/-- A STR or BLOB object. -/
def bytesObj (sub : Nat) (ty : Ty) (a : Access4) (r : Right) (d : Option Val) (n : Nat) : ObjRow :=
  { sub := sub, ty := ty, access := a, right := r, dflt := d, ok := anyN, maxBytes := n }

/-- The bytes of an ASCII text. -/
def text (t : String) : List Byte := t.toList.map (fun c => BitVec.ofNat 8 c.toNat)

/-- Fill colours: four U1.15 components, each at most 0x8000 (04 R78). -/
def fillOk (v : Nat) : Bool :=
  [0, 16, 32, 48].all (fun i => decide (bits v (i + 15) i ≤ 0x8000))

/-- layer.encoding (04 R78): [7:6] 0 and matrix not 0b11. -/
def encodingOk (v : Nat) : Bool := decide (bits v 7 6 = 0) && decide (bits v 3 2 ≠ 3)

/-- A signed 32-bit value from −16,384 to 16,383 (04 R78). -/
def posOk (v : Nat) : Bool := decide (v ≤ 16383) || decide (2 ^ 32 - 16384 ≤ v)

/-- layer.dst_size: 0, or both halves 1 to 16,383 (04 R78). -/
def dstSizeOk (v : Nat) : Bool :=
  decide (v = 0) || (within 1 16383 (bits v 15 0) && within 1 16383 (bits v 31 16))

/-- The surface format codes (04 R74). -/
def formatOk (v : Nat) : Bool :=
  within 1 5 v || within 0x10 0x15 v || within 0x20 0x23 v || within 0x30 0x33 v

/-- Fence addresses (04 R90): [63:62] and [2:1] are 0. -/
def fenceAddrOk (v : Nat) : Bool := decide (bits v 63 62 = 0) && decide (bits v 2 1 = 0)

/-- umpire sources, watched sources and rectangles need no more than their width; photo.watch (12 R331). -/
def watchOk (v : Nat) : Bool :=
  match bits v 15 14 with
  | 0 => true
  | 1 => decide (bits v 13 11 = 0)
  | 2 => decide (bits v 13 0 ≤ 23)
  | _ => false

/-- Layer objects (04 R78). -/
def layerRows : List ObjRow :=
  [ roD 0x00 .u8 0x1F,
    roD 0x01 .u16 0xFFFF,
    rwc 0x02 .u8 .owner 0 (within 0 7),
    rwc 0x03 .u8 .owner 4 (within 0 4),
    rwc 0x04 .u8 .owner 0 anyN,
    rwc 0x05 .q19 .owner 0x8_0000 (within 0 0x8_0000),
    rwc 0x06 .u8 .owner 0 (within 0 3),
    rwc 0x07 .u8 .owner 0x01 formatOk,
    rwc 0x08 .u8 .owner 0 (within 0 1),
    rwc 0x09 .u64 .owner 0 (fun v => decide (bits v 63 62 = 0)),
    rwc 0x0A .u32 .owner 0 anyN,
    rwc 0x0B .u32 .owner 0 anyN ] ++
  [ rwc 0x0C .u32 .owner 0 anyN,
    rwc 0x0D .u32 .owner 0 anyN,
    rwc 0x0E .u32 .owner 0 anyN,
    rwc 0x0F .u32 .owner 0 anyN,
    rwc 0x10 .u32 .owner 0 anyN,
    rwc 0x11 .i32 .owner 0 posOk,
    rwc 0x12 .i32 .owner 0 posOk,
    rwc 0x13 .u32 .owner 0 dstSizeOk,
    rwc 0x14 .u8 .owner 0x04 encodingOk,
    rwc 0x15 .u8 .owner 0 (within 0 6),
    rwc 0x16 .u64 .owner 0 anyN,
    rwc 0x17 .u64 .owner 0x8000_0000_0000_0000 fillOk ] ++
  [ rwc 0x18 .u8 .owner 0 (within 0 23),
    rwc 0x19 .u16 .owner 3000 (within 1 24000),
    rwc 0x1A .u64 .owner 0 anyN,
    rwc 0x1B .u8 .owner 0 (within 0 1),
    rwc 0x1C .u16 .owner 0 anyN,
    rwc 0x1D .u64 .owner 0 anyN,
    roD 0x1E .u8 0,
    wo 0x1F .u16 .portManager anyN 0 ]

/-- Crew objects: row `r` is the table's base + r (02 R25). Enable, lanes and rights have defaults by crew (`crewDefault`). -/
def crewRows (r : Nat) : List ObjRow :=
  match r with
  | 0 => [ rw 1 .bool .portManager 0 anyN, ro 2 .u8 ]
  | 1 => [ rw 1 .u16 .portManager 100 (within 1 1000), rw 2 .u16 .portManager 16 (within 0 128), roD 3 .u16 0,
           rw 4 .u8 .portManager 0 anyN, rw 5 .u32 .portManager 0 (within 0 0xFF) ]
  | 2 => rw 0 .u8 .portManager 0 (within 0 16) ::
           (List.range 16).map (fun i => rw (i + 1) .u64 .portManager 0 anyN)
  | 3 => [ roD 1 .u32 0, roD 2 .u32 0, roD 3 .u32 0, roD 4 .u32 0 ]
  | _ => []

/-- The default of crew.enable, crew.lanes and crew.rights (02 R25, R27). -/
def crewDefault (crew key : Nat) : Nat :=
  match key with
  | 0x001 => b2n (decide (crew % 128 = 0))
  | 0x104 => if crew % 128 = 0 then 0xFF else 0
  | 0x105 => if crew = 0 then 0xFF else if crew % 128 = 0 then 0xFB else 0x11
  | _ => 0

/-- Lane objects: block `b` of 0x3n00 + b (04 R93, 05 R131, R136, 07 R198, 08 R225). -/
def laneRows (b : Nat) : List ObjRow :=
  match b with
  | 0 => [ roD 0x01 .u8 0, roD 0x02 .u8 0, ro 0x03 .u16, roD 0x04 .u32 0, rwc 0x05 .bool .system 0 anyN, ro 0x06 .u16,
           wo 0x0F .u32 .laneCommit (within 0 0) 0, rwc 0x10 .u16 .system 0 anyN,
           wo 0x11 .u8 .laneCommit anyN 0, rwc 0x12 .u64 .laneCommit 0 fenceAddrOk,
           rwc 0x13 .u64 .laneCommit 0 anyN, rw 0x14 .u16 .system 100 (within 10 10000),
           rw 0x15 .u16 .system 128 (within 0 4095), roD 0x16 .u32 0, roD 0x17 .u32 0, roD 0x18 .u32 0 ]
  | 1 => (List.range 7).map (fun i => launch (i + 1) .u16 .rwc anyN) ++
         [ launch 8 .u32 .rwc anyN, rwc 9 .u8 .system 0 (within 0 3), rwc 0xA .u8 .system 0 anyN,
           rwc 0xB .u8 .system 0 anyN ]
  | 2 => [ rwc 1 .bool .system 0 anyN, rwc 2 .bool .system 0 anyN, rwc 3 .u8 .system 0 (within 0 23),
           launch 4 .u16 .rwc anyN, launch 5 .u16 .rwc anyN, rwc 6 .u16 .system 64 (within 34 128), ro 7 .u8, ro 8 .u8 ]
  | 3 => (List.range 7).map (fun i => roD (i + 1) .u32 0)
  | 4 => [ rwc 1 .u64 .system 0x8000_0000_0000_0000 fillOk, rw 2 .u8 .system 8 anyN, rwc 3 .bool .system 0 anyN,
           rwc 4 .u64 .system 0 (fun v => decide (v % 64 = 0)), rwc 5 .u8 .system 0 (within 0 3),
           rwc 6 .u16 .system 2200 (within 1000 3000), rwc 7 .u16 .system 400 (within 80 5000),
           rwc 8 .u8 .system 8 (fun v => decide (v = 6 ∨ v = 8 ∨ v = 10)), rwc 9 .u8 .system 3 (within 0 3) ]
  | 5 => [ rwc 1 .bool .writeback 0 anyN,
           rwc 2 .u8 .writeback 3 (fun v => decide (v = 3 ∨ v = 2 ∨ v = 0x10 ∨ v = 0x12)),
           rwc 3 .u64 .writeback 0 anyN, rwc 4 .u8 .writeback 0 (within 0 1), rwc 5 .u64 .writeback 0 anyN,
           rwc 6 .u32 .writeback 0 anyN, rwc 7 .u32 .writeback 0 anyN, rwc 8 .u32 .writeback 0 anyN,
           rwc 9 .u32 .writeback 0 anyN, rwc 0xA .u8 .writeback 2 (within 1 4), rwc 0xB .u8 .writeback 1 (within 1 255),
           rwc 0xC .bool .writeback 0 anyN, roD 0xD .u32 0, roD 0xE .u32 0 ]
  | 6 => [ rwc 1 .u8 .system 0 (within 0 4), rwc 2 .bool .system 0 anyN, rwc 3 .bool .system 0 anyN,
           rwc 4 .u8 .system 4 (within 1 255), rwc 5 .bool .system 0 anyN ]
  | 7 => [ launch 1 .u8 .rwc (within 0 2), launch 2 .u8 .rwc (within 1 4), launch 3 .u8 .rwc (within 0 7),
           launch 4 .u16 .rwc (within 0 6000), launch 5 .u8 .rwc (within 0 15), rwc 6 .bool .system 1 anyN,
           rwc 7 .bool .system 0 anyN, rwc 8 .u8 .system 8 (fun v => decide (v = 8 ∨ v = 10 ∨ v = 12)),
           rwc 9 .u16 .system 192 (within 0 1023), rwc 0xA .u8 .system 1 anyN,
           rwc 0xB .u16 .system 0 (within 0 8191), rwc 0xC .u8 .system 0 (within 0 20) ] ++
         [ rw 0xD .u16 .system 200 (within 20 10000), rw 0xE .u16 .system 0 (within 0 4096),
           rw 0xF .u8 .system 0 (within 0 3), roD 0x10 .u8 0, bytesObj 0x11 .blob .wo .system none 62,
           bytesObj 0x12 .blob .ro .none (some (.bytes [])) 62 ]
  | _ => []

/-- The default of a launch-configured lane or camera object before any configuration: the reset of the register field that
holds the same state (07 R199, 08 R227, 09 R253). -/
def launchDefault (b sub : Nat) : Nat :=
  match b, sub with
  | 7, 2 => 4
  | 7, 3 => 7
  | 7, 0xFE => 1
  | _, _ => 0

/-- The identity colour matrix, 9 × I32 in 2^−14 (09 R252). -/
def identityCcm : List Byte :=
  [1, 0, 0, 0, 1, 0, 0, 0, 1].flatMap (fun v => leBytes 4 (v * 16384))

/-- Division rounded to nearest, ties away from zero (05 R107), of natural numbers. -/
def roundDiv (a b : Nat) : Nat := (2 * a + b) / (2 * b)

/-- Default tone entry i = 64e + m (09 R240): round((2^e × (1 + m / 64) − 1) / 32). -/
def toneDefault (i : Nat) : Nat :=
  if 1536 ≤ i then 0x8_0000 else roundDiv (2 ^ (i / 64) * (64 + i % 64) - 64) 2048

/-- The default of raw.tone: 1,537 U20 entries (09 R240). -/
def toneTable : List Byte := (List.range 1537).flatMap (fun i => leBytes 3 (toneDefault i))

/-- Camera objects: block `b` of 0x3800 + n × 0x100 + b (09 R252). -/
def camRows (b : Nat) : List ObjRow :=
  if b = 0 then
    [ rw 1 .bool .system 0 anyN, launch 2 .u8 .rw (within 0 1), launch 3 .u8 .rw (within 1 4),
      launch 4 .u16 .rw (within 80 6000),
      rw 5 .u16 .system 0x3210 (fun v => [2, 6, 10, 14].all (fun i => !bitOf v i)),
      rw 6 .u8 .system 0 (within 0 3), ro 7 .u8, roD 8 .u32 0, roD 9 .u32 0, roD 0xA .u32 0, roD 0xB .u32 0 ]
  else if 0x10 ≤ b ∧ b ≤ 0x13 then
    [ rw 1 .u8 .system 0xFF (fun v => decide (v ≤ 23) || decide (v = 0xFF)), rw 2 .u8 .system 0 (within 0 15),
      rw 3 .u8 .system 0x31 (within 0x30 0x33), rw 4 .u32 .system 0 anyN, rw 5 .u16 .system 3000 (within 100 24000),
      rw 6 .bool .system 0 anyN, ro 7 .u8, roD 8 .u32 0, roD 9 .u8 0 ]
  else if 0x20 ≤ b ∧ b ≤ 0x23 then
    [ rw 1 .u8 .system 0 (within 0 3), rw 2 .u20 .system 0 anyN,
      rw 3 .u64 .system 0x1000_1000_1000_1000 anyN,
      bytesObj 4 .blob .rw .system (some (.bytes identityCcm)) 38,
      bytesObj 5 .blob .rw .system (some (.bytes toneTable)) 4613 ]
  else if 0x30 ≤ b ∧ b ≤ 0x33 then
    [ rw 1 .bool .system 0 anyN, rw 2 .bool .system 0 anyN, rw 3 .u16 .system 0 (within 0 511),
      rw 4 .u8 .system 1 (within 0 1), rw 5 .u64 .system 0 anyN, rw 6 .u32 .system 0 anyN, rw 7 .u32 .system 0 anyN,
      rw 8 .u8 .system 2 (within 1 4), roD 9 .u8 0xFF, roD 0xA .u32 0, roD 0xB .u32 0 ]
  else []

/-- Region objects (12 R331). -/
def regionRows : List ObjRow :=
  [ rwc 0x01 .u8 .system 0 (within 0 4), rwc 0x02 .u64 .system 0 anyN, rwc 0x03 .u32 .photoOwner 0 anyN,
    rwc 0x04 .u16 .system 0 watchOk, rwc 0x05 .u8 .system 2 (within 1 15), rwc 0x06 .u8 .system 1 (within 1 8),
    rwc 0x07 .u8 .system 1 (within 0 3), rwc 0x08 .u8 .photoOwner 0 (within 0 9) ] ++
  (List.range 4).map (fun i => rwc (9 + i) .u32 .photoOwner 0xFFFF_0000 anyN) ++
  [ rw 0x0D .u16 .system 0 (within 0 511), wo 0x0E .bool .photoOwner anyN 0, roD 0x0F .u32 0, roD 0x10 .u16 0 ] ++
  (List.range 4).map (fun i => roD (0x11 + i) .u32 0)

/-- An object that only the SMU writes, with the value it holds before verification mode first sets it. -/
def sealedObj (sub : Nat) (ty : Ty) (d : Nat) (ok : Nat → Bool) : ObjRow :=
  { sub := sub, ty := ty, access := .rw, right := .sealed, dflt := some (.num d), ok := ok, maxBytes := 0 }

/-- The sealed unit's rectangle: at most 1,024 × 256 (13 R371). -/
def indRectOk (v : Nat) : Bool :=
  decide (bits v 47 32 ≤ bits v 15 0 + 1024) && decide (bits v 63 48 ≤ bits v 31 16 + 256)

/-- Objects of 0x7800 to 0x78FF (13 R371). -/
def smuRows (i : Nat) : List ObjRow :=
  if i = 0x7800 then
    [ ro 1 .u32, ro 2 .u32, ro 3 .u64, ro 4 .u64, ro 5 .u64, ro 6 .u32, ro 7 .u32, ro 8 .u16, ro 9 .u32, ro 0xA .u32,
      ro 0xB .u32, ro 0xC .u64, bytesObj 0xD .str .ro .none none 256, bytesObj 0xE .blob .ro .none none 50,
      bytesObj 0xF .blob .ro .none none 18 ]
  else if i = 0x7801 then
    [ sealedObj 1 .u32 500 (within 500 200000), sealedObj 2 .u8 0 (within 0 3),
      sealedObj 3 .u8 0xFF (fun v => decide (v ≤ 3) || decide (v = 0xFF)), sealedObj 4 .u32 500 (within 500 200000),
      sealedObj 5 .u16 0 (within 0 511), sealedObj 6 .u8 0 (within 0 7), sealedObj 7 .u64 0 indRectOk,
      sealedObj 8 .u8 0 anyN, sealedObj 9 .u16 500 (within 100 2000),
      bytesObj 0xA .blob .rw .sealed (some (.bytes (leBytes 48 0))) 50 ]
  else if i = 0x7802 then [ bytesObj 1 .blob .ro .none none 32770 ]
  else if 0x7810 ≤ i ∧ i ≤ 0x781F then
    [ sealedObj 1 .bool 0 anyN, sealedObj 2 .u8 0 (within 0 1), sealedObj 3 .u32 0 anyN, sealedObj 4 .u32 0 anyN,
      sealedObj 5 .u32 1 (fun v => decide (1 ≤ v)), sealedObj 6 .u32 1 (fun v => decide (1 ≤ v)), sealedObj 7 .u32 0 anyN ]
  else if i = 0x7820 then (List.range 8).map (fun k => sealedObj (k + 1) .u32 0 anyN)
  else []

/-- Objects outside the repeated blocks. -/
def fixedRows (i : Nat) : List ObjRow :=
  match i with
  | 0x1000 => [ bytesObj 1 .str .ro .none (some (.bytes (text "Brynsal"))) 8,
                bytesObj 2 .str .ro .none (some (.bytes (text "OW9624"))) 7,
                bytesObj 3 .str .ro .none (some (.bytes (text "OW9624-AQ2"))) 11, ro 5 .u32 ]
  | 0x1010 => [ wo 1 .u32 .restore anyN 0 ]
  | 0x1100 | 0x1101 => [ rw 1 .u32 .system 0x1B20_0000 (fun v => decide (bits v 10 0 = 0)),
                rw 3 .u16 .system 0 (within 0 511), roD 5 .u32 0 ]
  | 0x1200 | 0x1201 => [ rw 3 .u16 .system 45210 anyN, bytesObj 4 .blob .rw .system (some (.bytes [])) 34,
                rw 5 .u16 .system 0 (within 0 511), roD 7 .u32 0 ]
  | 0x2000 => [ ro 1 .u8, rw 2 .u8 .system 3 (fun v => decide (v = 2 ∨ v = 3 ∨ v = 4)), wo 3 .u8 .system anyN 0 ]
  | 0x2002 => [ ro 1 .u8, ro 2 .i32, rw 3 .u8 .system 0 (within 0 1), wo 4 .u8 .system anyN 0 ]
  | 0x2100 => [ roD 1 .u32 0, bytesObj 2 .blob .ro .none none 33270, roD 3 .u32 0, roD 4 .u32 0, roD 6 .u64 0 ]
  | 0x2240 => [ roD 1 .bool 0, rw 2 .u16 .system 0 (within 0 10000), ro 3 .u32 ]
  | 0x7000 => [ bytesObj 1 .blob .ro .none none 18, rw 2 .u8 .system 1 (within 0 3),
                bytesObj 3 .blob .wo .system none 18, bytesObj 4 .blob .ro .none none 34,
                bytesObj 5 .blob .ro .none none 18, bytesObj 6 .blob .ro .none none 34 ]
  | 0x7001 => [ wo 1 .u32 .system anyN 0, ro 2 .u8 ]
  | 0x7003 => [ ro 1 .u8, ro 2 .bool ]
  | 0x7400 => [ ro 1 .u32, ro 2 .u32, launch 3 .u32 .rw (fun v => decide (v < 2 ^ 21)), wo 4 .u32 .system anyN 0,
                rw 5 .u8 .system 8 (within 1 255), bytesObj 6 .blob .ro .none none 258, ro 7 .u16 ]
  | 0x7401 => [ bytesObj 1 .blob .wo .system none 8194 ]
  | 0x7C00 => [ ro 1 .u8, launch 2 .u8 .rw (within 0 3), ro 3 .u8, rw 4 .u8 .system 0 (within 0 7) ]
  | 0x7F00 => [ wo 1 .u32 .anyCrew anyN 0, bytesObj 2 .blob .ro .none none 17362 ]
  | _ => []

/-- The objects of one index (02 R28). -/
def rowsAt (i : Nat) : List ObjRow :=
  if 0x2200 ≤ i ∧ i < 0x2240 then [ rw 1 .u16 .system 0xFFFF (fun v => decide (v ≤ 511) || decide (v = 0xFFFF)), ro 2 .u8 ]
  else if 0x3000 ≤ i ∧ i < 0x3800 then laneRows (i % 0x100)
  else if 0x3800 ≤ i ∧ i < 0x4000 then camRows (i % 0x100)
  else if 0x4000 ≤ i ∧ i < 0x6000 then crewRows (i % 0x10)
  else if 0x6000 ≤ i ∧ i < 0x6800 then layerRows
  else if 0x7100 ≤ i ∧ i < 0x7200 then regionRows
  else if 0x7800 ≤ i ∧ i ≤ 0x78FF then smuRows i
  else if 0x7C10 ≤ i ∧ i ≤ 0x7C13 then [ bytesObj 1 .blob .ro .none none 34 ]
  else if 0x7C20 ≤ i ∧ i ≤ 0x7C23 then
    [ rwc 1 .u8 .system 0xFF (fun v => decide (v ≤ 7) || decide (v = 0xFF)), rwc 2 .u8 .system 0 (fun v => decide (bits v 3 2 = 0) && !bitOf v 7),
      rwc 3 .u16 .system 0 anyN, rwc 4 .u16 .system 0 (fun v => decide (v % 64 = 0)),
      rwc 5 .u8 .system 0 (fun v => decide (v ≤ 64) && decide (v % 2 = 0)) ]
  else fixedRows i

/-- The object at index:subindex, if there is one. -/
def objRow (index sub : Nat) : Option ObjRow := (rowsAt index).find? (fun r => r.sub == sub)

/-- The key of an object in `State.objs`. -/
def objKey (index sub : Nat) : Nat := index * 256 + sub

/-- The documented default of an object (02 R32); none for "—". -/
def docDefault (index sub : Nat) : Option Val :=
  (objRow index sub).bind (fun r =>
    if 0x4000 ≤ index ∧ index < 0x6000 then
      let k := (index % 16) * 256 + sub
      if k = 0x001 ∨ k = 0x104 ∨ k = 0x105 then some (.num (crewDefault ((index - 0x4000) / 16) k)) else r.dflt
    else r.dflt)

/-- What an object holds when nothing has written it: its documented default, or for a launch-configured object the
reset of its register field, else 0 (notes/assumptions/5). -/
def objBlank (index sub : Nat) : Val :=
  match docDefault index sub with
  | some v => v
  | none =>
    if 0x3000 ≤ index ∧ index < 0x3800 then .num (launchDefault (index % 256) sub)
    else if 0x3800 ≤ index ∧ index < 0x4000 ∧ index % 256 = 0 ∧ sub = 3 then .num 4
    else .num 0

end Sys2Proof.Machine
end

