-- ==== Sys2Proof/Machine/RegMap.lean ====
section
/-! DEFINITION. The register map (03 R53 to R56, R69 to R71 and the map of each block): which offsets of a block hold a
register, which of its bits are RW, AL and PV, and what it reads as after reset. -/

namespace Sys2Proof.Machine

open Sys2Proof

/-- The blocks of the control window (03 R54). -/
inductive Block where
  | sys | power | clk | lane (n : Nat) | cam (n : Nat) | shell (s : Nat) | move | udma | matrix | umpire | photo | cox
  | sec | smu | slk | host (p : Nat) | counts | crew (c : Nat)
  deriving DecidableEq, Repr, Inhabited

/-- The base address of a block in crew 0's window (03 R53, R54). -/
def Block.base : Block → Nat
  | .sys => 0x0000_0000 | .power => 0x0001_0000 | .clk => 0x0002_0000
  | .lane n => 0x0010_0000 + n * 0x1_0000 | .cam n => 0x0020_0000 + n * 0x1_0000 | .shell s => 0x0030_0000 + s * 0x1_0000
  | .move => 0x0040_0000 | .udma => 0x0041_0000 | .matrix => 0x0050_0000 | .umpire => 0x0060_0000 | .photo => 0x0061_0000
  | .cox => 0x0070_0000 | .sec => 0x0080_0000 | .smu => 0x0090_0000 | .slk => 0x00A0_0000
  | .host p => 0x00B0_0000 + p * 0x1_0000 | .counts => 0x00C0_0000 | .crew c => 0x0200_0000 + c * 0x1_0000

/-- The block at an address of crew 0's window; none where no block lies (03 R53). -/
def blockAt (a : Nat) : Option Block :=
  let page := a / 0x1_0000
  if page = 0 then some .sys
  else if page = 1 then some .power
  else if page = 2 then some .clk
  else if 0x10 ≤ page ∧ page < 0x18 then some (.lane (page - 0x10))
  else if 0x20 ≤ page ∧ page < 0x28 then some (.cam (page - 0x20))
  else if 0x30 ≤ page ∧ page < 0x40 then some (.shell (page - 0x30))
  else if page = 0x40 then some .move
  else if page = 0x41 then some .udma
  else if page = 0x50 then some .matrix
  else if page = 0x60 then some .umpire
  else if page = 0x61 then some .photo
  else if page = 0x70 then some .cox
  else if page = 0x80 then some .sec
  else if page = 0x90 then some .smu
  else if page = 0xA0 then some .slk
  else if 0xB0 ≤ page ∧ page < 0xB4 then some (.host (page - 0xB0))
  else if page = 0xC0 then some .counts
  else if 0x200 ≤ page ∧ page < 0x400 then some (.crew (page - 0x200))
  else none

/-- The address in crew 0's window that an access names (03 R53): crew 0 and the SPI port see the whole window, every
other crew its own page at offset 0. -/
def globalOf (acc : Acc) : Option Nat :=
  if acc.crew = 0 then (if acc.addr < 0x0400_0000 then some acc.addr else none)
  else if acc.addr < 0x1_0000 then some ((Block.crew acc.crew).base + acc.addr) else none

/-- How a register is accessed. -/
inductive RegKind where
  /-- Its RW fields are held in `State.regs`. -/
  | plain
  /-- It reads and writes state that has its home elsewhere. -/
  | view
  /-- No field is writable. -/
  | readOnly
  /-- A write is a command; a read returns 0. -/
  | command
  /-- A status register (03 R57). -/
  | status
  | keyA
  | keyB
  deriving DecidableEq, Repr, Inhabited

/-- One register of a block. -/
structure RegRow where
  off : Nat
  kind : RegKind
  rw : Nat
  al : Nat
  pv : Nat
  reset : Nat
  deriving DecidableEq, Repr, Inhabited

def plainReg (off rw al pv reset : Nat) : RegRow := { off := off, kind := .plain, rw := rw, al := al, pv := pv, reset := reset }
def viewReg (off rw al pv : Nat) : RegRow := { off := off, kind := .view, rw := rw, al := al, pv := pv, reset := 0 }
def roReg (off pv : Nat) : RegRow := { off := off, kind := .readOnly, rw := 0, al := 0, pv := pv, reset := 0 }
def cmdReg (off pv : Nat) : RegRow := { off := off, kind := .command, rw := 0, al := 0, pv := pv, reset := 0 }
def statusReg (off pv : Nat) : RegRow := { off := off, kind := .status, rw := 0, al := 0, pv := pv, reset := 0 }

/-- The two addresses of a dual-key register (03 R60). -/
def dkReg (off : Nat) : List RegRow :=
  [ { off := off, kind := .keyA, rw := 0, al := 0, pv := 0, reset := 0 },
    { off := off + 4, kind := .keyB, rw := 0, al := 0, pv := 0, reset := 0 } ]

/-- The registers at the offsets `first`, `first + 4`, …, `n` of them, read only. -/
def roRun (first n : Nat) : List RegRow := (List.range n).map (fun i => roReg (first + 4 * i) 0)

/-- Every bit. -/
def all32 : Nat := 0xFFFF_FFFF

def sysRows : List RegRow :=
  [ roReg 0x00 0, roReg 0x04 0, roReg 0x08 0xFFFF_F8F0 ] ++ dkReg 0x10 ++
  [ statusReg 0x18 0x00FF_FF80, roReg 0x20 0, roReg 0x24 0xFE00_FF08, roReg 0x28 0, roReg 0x2C 0xFE00_FF08,
    roReg 0x30 0, roReg 0x34 0xFFFF_000C, roReg 0x38 0, roReg 0x3C 0, roReg 0x40 0, roReg 0x44 0xFFFF_FFC0,
    roReg 0x48 0xFFFF_FFC0, roReg 0x50 0, roReg 0x54 0, plainReg 0x58 all32 all32 0 0 ]

def powerRows : List RegRow :=
  [ roReg 0x00 0, roReg 0x04 0, roReg 0x08 0, plainReg 0x10 all32 all32 0 all32, plainReg 0x14 all32 all32 0 all32,
    plainReg 0x18 0x3FFF_FFFF 0x3FFF_FFFF 0 0x3FFF_FFFF, plainReg 0x20 all32 all32 0 0, plainReg 0x24 all32 all32 0 0,
    plainReg 0x28 all32 all32 0 0, statusReg 0x30 0x00FF_FFE0 ] ++ dkReg 0x38 ++
  [ plainReg 0x40 3 0 0xFFFF_FFFC 3, roReg 0x44 0, roReg 0x48 0, roReg 0x4C 0 ]

def clkRows : List RegRow :=
  [ plainReg 0x00 3 0 0 0, statusReg 0x04 0x00FF_FF80, roReg 0x08 0, roReg 0x0C 0, roReg 0x10 0,
    plainReg 0x14 0x03FF_00FF 0 0 0x0100_0008 ] ++ dkReg 0x18

def laneRegRows : List RegRow :=
  [ viewReg 0x00 0x03FE_7801 0x7801 0xFC01_87FE, roReg 0x04 0xFE00, roReg 0x08 0, cmdReg 0x10 0, roReg 0x14 0, roReg 0x18 0,
    viewReg 0x1C 0x0FFF_1FFF 0 0xF000_E000, viewReg 0x20 0x3FFF_3FFF 0 0xC000_C000, viewReg 0x24 0xBFFF_3FFF 0 0x4000_C000,
    viewReg 0x28 0x3FFF_3FFF 0 0xC000_C000, viewReg 0x2C 0xBFFF_3FFF 0 0x4000_C000, viewReg 0x30 0x3FFF 0 0xFFFF_C000,
    viewReg 0x34 0xFF 0 0xFF00, viewReg 0x38 all32 0 0, roReg 0x3C 0xFFFC, viewReg 0x40 0xFF 0 0xFFFF_FF00,
    viewReg 0x44 0xFFFF 0 0xFFFF_0000, viewReg 0x50 0xFF7F 0x70 0xFFFF_0080, viewReg 0x54 0x1FFF_0FFF 0 0xE000_F000 ] ++
  [ viewReg 0x58 all32 0 0, viewReg 0x5C all32 0 0, viewReg 0x60 all32 0 0, viewReg 0x64 all32 0 0,
    statusReg 0x80 0x00FF_8000, roReg 0x90 0, roReg 0x94 0, roReg 0x98 0, roReg 0x9C 0, roReg 0xA0 0xE000, roReg 0xA4 0xE000,
    roReg 0xB0 0, roReg 0xB4 0, roReg 0xB8 0 ] ++
  [ viewReg 0x200 0x1F_1CE3 0 0xFFE0_E31C, viewReg 0x204 0x1FFF 0 0xFFFF_E000, viewReg 0x210 0xF3_FF0F 1 0xFF0C_00F0,
    viewReg 0x214 0x1FFF 0 0xFFFF_E000, viewReg 0x220 0xFFFF_1FFF 0 0xE000, viewReg 0x230 0x1F 0 0xFFFF_FFE0,
    roReg 0x234 0x3FE0_0E00, roReg 0x238 0xFF00_0000, statusReg 0x280 0x00FF_FC00, roReg 0x284 0xFF00_E318 ]

def camRegRows : List RegRow :=
  [ viewReg 0x00 0x7F 1 0xFFFF_FF80, viewReg 0x04 0x1FFF 0 0xFFFF_E000, viewReg 0x08 0xFFFF 0 0xFFFF_0000, roReg 0x0C 0xF8,
    statusReg 0x10 0x00FF_F000, roReg 0x20 0, roReg 0x24 0, roReg 0x28 0 ] ++
  (List.range 4).flatMap (fun v =>
    [ viewReg (0x100 + v * 0x20) 0x1_FFFF 0x1_0000 0xFFFE_0000, viewReg (0x104 + v * 0x20) all32 0 0,
      viewReg (0x108 + v * 0x20) 0xFFFF 0 0xFFFF_0000, roReg (0x10C + v * 0x20) 0, roReg (0x110 + v * 0x20) 0 ])

/-- The registers of one mover channel at their offsets within the slot (10 R284). -/
def moveChannelRows : List RegRow :=
  [ plainReg 0x00 all32 0 0 0, plainReg 0x04 0xC000_FFFF 0 0x3FFF_0000 0, plainReg 0x08 all32 0 0 0,
    plainReg 0x0C 0xC000_FFFF 0 0x3FFF_0000 0, plainReg 0x10 0x1FFF 0 0xFFFF_E000 1, plainReg 0x14 all32 0 0 0x0001_0001,
    plainReg 0x18 all32 0 0 0, plainReg 0x1C all32 0 0 0, plainReg 0x20 all32 0 0 0, plainReg 0x24 all32 0 0 0,
    plainReg 0x28 all32 0 0 0, plainReg 0x2C all32 0 0 0, plainReg 0x30 0x77 0 0xFFFF_FF88 0, plainReg 0x34 all32 0 0 0 ] ++
  [ plainReg 0x38 0xC000_FFFF 0 0x3FFF_0000 0, plainReg 0x3C 0xFFFF 0 0xFFFF_0000 1024,
    plainReg 0x40 0xFEC0 0x200 0xFFFF_0130 0, roReg 0x44 0xF800_F008, statusReg 0x48 0x00FF_FFC0, roReg 0x4C 0, roReg 0x50 0,
    roReg 0x54 0, roReg 0x58 0xFFFF_FFF0, roReg 0x5C 0, roReg 0x60 0xFFFF_0000 ]

/-- The MOVE global registers in slot 0 (10 R284). -/
def moveGlobalRows : List RegRow :=
  [ statusReg 0xC0 0x00FF_FFFC, cmdReg 0xC4 0xFFFF_FFFC, roReg 0xC8 0xFF00_F000, roReg 0xCC 0, roReg 0xD0 0, cmdReg 0xD4 0,
    plainReg 0xD8 0xDFDF_DFDF 0 0x2020_2020 0, plainReg 0xDC 0xDFDF_DFDF 0 0x2020_2020 0, roReg 0xE0 0, roReg 0xE4 0 ]

/-- The registers of one utility DMA channel (10 R285). -/
def udmaChannelRows : List RegRow :=
  [ plainReg 0x00 all32 0 0 0, plainReg 0x04 0xC000_FFFF 0 0x3FFF_0000 0, plainReg 0x08 all32 0 0 0,
    plainReg 0x0C 0xC000_FFFF 0 0x3FFF_0000 0, plainReg 0x10 0x1FFF 0 0xFFFF_E000 1,
    plainReg 0x14 0xFFFF 0 0xFFFF_0000 0x0001_0001, plainReg 0x18 all32 0 0 0, plainReg 0x1C all32 0 0 0,
    plainReg 0x24 all32 0 0 0, plainReg 0x28 all32 0 0 0, plainReg 0x30 0x77 0 0xFFFF_FF88 0,
    plainReg 0x40 0xC0 0 0xFFFF_FF38 0, roReg 0x44 0xF800_F008, statusReg 0x48 0x00FF_FFC0, roReg 0x4C 0, roReg 0x5C 0 ]

def umpireRows : List RegRow :=
  [ statusReg 0x00 0x00FF_FF80, cmdReg 0x04 0, roReg 0x08 0xFFFF_0000, cmdReg 0x0C 0 ] ++ roRun 0x10 4 ++ roRun 0x20 4 ++
  (List.range 4).map (fun k => viewReg (0x30 + 4 * k) all32 all32 0) ++
  [ viewReg 0x40 3 0 0xFFC8_CEFC, roReg 0x44 0xF0 ] ++ (List.range 8).flatMap (fun k => dkReg (0x80 + 8 * k)) ++
  (List.range 16).flatMap (fun j => roReg (0x100 + j * 0x10) 0xFFFF_EC80 :: roRun (0x104 + j * 0x10) 3) ++
  [ roReg 0x200 0xFFFF_FC80 ] ++ roRun 0x204 3 ++ roRun 0x210 4 ++ dkReg 0x220 ++ [ viewReg 0x300 0x17F 0 0xFFFF_FC80 ]

def photoRows : List RegRow :=
  [ plainReg 0x00 7 0 0xFFFF_FFF8 0 ] ++ (List.range 8).map (fun n => statusReg (0x20 + 4 * n) 0x00FF_FFF0) ++ roRun 0x40 8 ++
  (List.range 32).flatMap (fun i =>
    [ viewReg (0x1000 + i * 0x40) 0x0F0F_CF07 0 0xF0F0_30F0, viewReg (0x1004 + i * 0x40) 0x3FFF_3FFF 0 0xC000_C000,
      viewReg (0x1008 + i * 0x40) 0x1FFF_1FFF 0 0xE000_E000, viewReg (0x100C + i * 0x40) all32 0 0,
      viewReg (0x1010 + i * 0x40) 0xFFFF 0 0xFFFF_0000, viewReg (0x1014 + i * 0x40) 0x1FF 0 0xFFFF_FE00 ] ++
    (List.range 4).map (fun c => viewReg (0x1018 + i * 0x40 + 4 * c) all32 0 0) ++
    [ roReg (0x1028 + i * 0x40) 0, roReg (0x102C + i * 0x40) 0xD ] ++ roRun (0x1030 + i * 0x40) 4)

def coxRows : List RegRow :=
  [ statusReg 0x00 0x00FF_FF00, roReg 0x08 0, cmdReg 0x0C 0, roReg 0x10 0, roReg 0x14 0 ] ++ dkReg 0x18 ++ roRun 0x20 3

def secRows : List RegRow :=
  [ roReg 0x00 0xFFF0_00E0, statusReg 0x04 0x00FF_FFE0, roReg 0x08 0, roReg 0x0C 0 ] ++ dkReg 0x10 ++ dkReg 0x18 ++
  roRun 0x20 9

def smuRegRows : List RegRow := roReg 0x00 0xFFFF_E000 :: (roRun 0x04 8 ++ [ roReg 0x24 0xFFFF_0000 ] ++ roRun 0x28 5)

def slkRows : List RegRow :=
  [ statusReg 0x00 0x00FF_FF00, roReg 0x04 0xFFFF_F0F0, roReg 0x10 0xFFFF_0088, roReg 0x14 0xFFFF_0000, roReg 0x18 0,
    roReg 0x20 0xFFFF_0088, roReg 0x24 0xFFFF_0000, roReg 0x28 0, cmdReg 0x40 0 ]

def hostRows : List RegRow :=
  [ roReg 0x00 0, statusReg 0x04 0x00FF_FFC0, plainReg 0x08 0x7F 0 0xFFFF_FF80 0, plainReg 0x0C 0x7F 0 0xFFFF_FF80 10,
    roReg 0x10 0 ]

def matrixRows : List RegRow := [ statusReg 0x00 0x00FF_FFFE, roReg 0x08 0, roReg 0x0C 0, roReg 0x10 0 ]

/-- Whether an offset of COUNTS holds half of a counter pair (03 R71). -/
def isCounterOff (o : Nat) : Bool := decide (o % 4 = 0) &&
  ((within' 0x20 0x5F o) || (within' 0x100 0x2FF o) || (within' 0x300 0x3FF o) || (within' 0x400 0x5FF o) ||
  (within' 0x600 0x67F o) || (within' 0x680 0x687 o) || (within' 0x2000 0x2FFF o))
where within' (lo hi n : Nat) : Bool := decide (lo ≤ n) && decide (n ≤ hi)

/-- The register at an offset of COUNTS. -/
def countsRow (o : Nat) : Option RegRow :=
  if o = 0 then some (cmdReg 0 0)
  else if o = 4 ∨ o = 8 ∨ o = 0xC then some (roReg o 0)
  else if o = 0x10 then some (plainReg 0x10 3 0 0xFFFF_FFFC 0)
  else if isCounterOff o then some (roReg o 0)
  else none

/-- The registers of a crew page but for the mover view, the mailbox buffers and the MSI-X structures (11 R316). -/
def crewRegRows : List RegRow :=
  [ cmdReg 0x00 0, cmdReg 0x04 0, roReg 0x08 0xFFFF_FE00, cmdReg 0x0C 0, roReg 0x10 0, roReg 0x14 0, roReg 0x20 0, roReg 0x24 0,
    roReg 0x28 0xFFFF_FE00, roReg 0x2C 0, cmdReg 0x30 0, statusReg 0x40 0x00FF_FFC0, roReg 0x44 0x80FC_FE00, roReg 0x48 0,
    cmdReg 0x4C 0, plainReg 0x60 0xFFFF_F003 0 0xFFC 0, plainReg 0x64 0xF_FFFF 0 0xFFF0_0000 0, cmdReg 0x68 0xFFFF_FFFC ] ++
  [ roReg 0x70 0, roReg 0x74 0, roReg 0x78 0xF800_F0E0, roReg 0x7C 0, roReg 0x1800 0xFFFF_FFFC, viewReg 0x3000 4 4 0xFFFF_FFF8,
    statusReg 0x3004 0x00FF_FFF8 ] ++
  (List.range 8).map (fun i => plainReg (0x3800 + 4 * i) all32 0 0 (if i % 4 = 3 then 1 else 0)) ++ roRun 0x3C00 2

/-- A row found by its offset. -/
def findRow (rows : List RegRow) (o : Nat) : Option RegRow := rows.find? (fun r => r.off == o)

/-- A row of a channel's slot, moved to the slot's place. -/
def channelRow (rows : List RegRow) (o : Nat) : Option RegRow :=
  (findRow rows (o % 0x100)).map (fun r => { r with off := o })

/-- The register at an offset (0 to 0x3FFF) of a block (03 R54, R55 and the maps); none is unimplemented. `j` is how many
mover channels the page's crew owns (10 R265). -/
def regRow (b : Block) (o j : Nat) : Option RegRow :=
  match b with
  | .sys => findRow sysRows o
  | .power => findRow powerRows o
  | .clk => findRow clkRows o
  | .lane _ => findRow laneRegRows o
  | .cam _ => findRow camRegRows o
  | .shell _ => none
  | .move => if o < 0x100 ∧ 0xC0 ≤ o then findRow moveGlobalRows o else if o < 0x4000 then channelRow moveChannelRows o else none
  | .udma => if o = 0x800 then some (statusReg 0x800 0xFFFC) else if o < 0x800 then channelRow udmaChannelRows o else none
  | .matrix => findRow matrixRows o
  | .umpire => findRow umpireRows o
  | .photo => findRow photoRows o
  | .cox => findRow coxRows o
  | .sec => findRow secRows o
  | .smu => findRow smuRegRows o
  | .slk => findRow slkRows o
  | .host _ => findRow hostRows o
  | .counts => countsRow o
  | .crew _ =>
    if 0x1000 ≤ o ∧ o < 0x1800 then (if (o - 0x1000) / 0x100 < j then channelRow moveChannelRows o else none)
    else if 0x2000 ≤ o ∧ o < 0x2800 ∧ o % 4 = 0 then some (cmdReg o 0)
    else if 0x2800 ≤ o ∧ o < 0x3000 ∧ o % 4 = 0 then some (roReg o 0)
    else findRow crewRegRows o

/-- The power domain of a block's registers (03 R67, R68, 12 R347 but for its region window, 13 R372, 16 R427): none where
they are not power-gated by a switched domain the register fabric itself depends on. -/
def blockDomain : Block → Option Nat
  | .lane n => some (64 + n)
  | .cam n => some (72 + n)
  | .shell s => some (4 * s)
  | .move => some 92
  | .udma => some 92
  | .sec => some 94
  | .smu => some 91
  | .cox => some 91
  | .slk => some 93
  | .host p => some (86 + p)
  | .crew c => some (86 + c / 128)
  | .umpire => some 90
  | .photo => some 90
  | .matrix => some 90
  | _ => none

end Sys2Proof.Machine
end

