-- ==== Sys2Proof/Machine/State.lean ====
section
/-! DEFINITION. Everything the manual gives the OW9624 to hold, as plain data, and its value right after reset.
Object values (02) live in `objs`, registers without an object in `regs`, counters in `counts`; every other piece of state
has a field of its own. A table entry that is not listed holds the `blank` of its type. -/

namespace Sys2Proof.Machine

open Sys2Proof

/-- Why a command stops with a fault: it has no constructor, since the manual gives every row of the table an effect. Safe. -/
inductive Fault
  deriving DecidableEq, Repr

/-- Why a command is refused by the model. -/
inductive Refusal where
  /-- Raised by an arm of `exec` whose command has no meaning yet. Safe. -/
  | notModelled (mnemonic : String)
  deriving DecidableEq, Repr, Inhabited

/-- What the device sends or drives outward, in the order of occurrence (the model's own record, notes/assumptions/3). -/
inductive Out where
  | canFrame (k ident : Nat) (data : List Byte)
  | udp (k ip port : Nat) (payload : List Byte)
  | mailbox (crew : Nat) (payload : List Byte)
  | readData (crew value : Nat)
  | readBytes (crew : Nat) (data : List Byte) (poisoned : Bool)
  | completerAbort (crew : Nat)
  | spi (status : Nat) (data : List Byte)
  | msix (crew vector : Nat)
  | slkMarker (link : Nat) | slkLeaving (link : Nat) | slkEvent (node line : Nat)
  | forwarded (node crew cmd : Nat) (req : Req)
  | arpReply (k ip : Nat) | icmpReply (k ip : Nat) (data : List Byte)
  | portIdle (lane : Nat) | portOff (lane : Nat) | portVideo (lane : Nat) (rows : List Nat) (padding : Nat)
  | dsiPacket (lane : Nat) (packet : List Byte) | pps (lane : Nat) (set : List Byte) | deskew (lane : Nat) (initial : Bool)
  | pwm (lane periodNs highNs : Nat) (inverted : Bool) | panelOff (lane ms : Nat) | panelOn (lane ms : Nat) | ulps (lane : Nat) (enter : Bool)
  | jtag (data : List Byte)
  deriving DecidableEq, Repr, Inhabited

/-- A status register (03 R57): `count` events so far (its low 8 bits are seq); each set event bit with the count of its
last occurrence. -/
structure Status where
  count : Nat
  last : Tab Nat
  deriving DecidableEq, Repr, Inhabited

/-- An open dual-key attempt of one block (03 R60, R61). -/
structure KeyAttempt where
  master : Master
  crew : Nat
  addr : Nat
  value : Word
  openedAt : Nat
  deriving DecidableEq, Repr, Inhabited

/-- A staged write (02 R30) or pin (06 R156) of a crew. -/
inductive Staged where
  | obj (key : Nat) (v : Val)
  | surfacePin (layer memory : Nat)
  | regionPin (lane first last mask : Nat)
  | program (handle lane : Nat)
  deriving DecidableEq, Repr, Inhabited

/-- A fence of a commit (04 R90) and the acceptance instant of the commit that named it (R91). -/
structure Fence where
  host : Bool
  addr : Nat
  target : Nat
  namedAt : Nat
  met : Bool
  deriving DecidableEq, Repr, Inhabited

/-- A pending commit (04 R83 to R91). -/
structure Commit where
  seq : Nat
  crew : Nat
  lanes : Nat
  linked : Bool
  writes : List Staged
  fences : List Fence
  acceptedAt : Nat
  eligible : Bool
  deferred : Bool
  late : Bool
  cookie : Nat
  deriving DecidableEq, Repr, Inhabited

/-- A commit request that the cox is checking: from a COMMIT item or from LANE[n].COMMIT (04 R84, 07 R199). -/
structure CommitReq where
  mask : Nat
  linked : Bool
  fences : List Fence
  cookie : Nat
  register : Option Nat
  deriving DecidableEq, Repr, Inhabited

/-- A FENCE_SIGNAL that waits for a commit (04 R95): `onPresented` false is when = 0b01. -/
structure Signal where
  seq : Nat
  onPresented : Bool
  host : Bool
  addr : Nat
  value : Nat
  deriving DecidableEq, Repr, Inhabited

/-- One item of a command queue with the words it has so far (11 R296). -/
structure CqItem where
  words : List Nat
  closed : Bool
  malformed : Bool
  deriving DecidableEq, Repr, Inhabited

/-- A blit taken from a queue (10 R255, R261 to R263): its item, the blocks not yet written (column and row of 64 × 32 destination blocks), the
blade clocks that each is charged, how many of them the division of blade time has granted, the blocks written, and the memories as its reads find
them. `fill` is the free colour of an A8 source. -/
structure BlitRun where
  notify : Bool
  cookie : Nat
  item : CqItem
  fill : Nat
  left : List (Nat × Nat)
  clocks : Nat
  granted : Nat
  blocks : Nat
  faulted : Bool
  aperture : List Host.Cell
  hostMem : List Host.Cell
  deriving DecidableEq, Repr, Inhabited

/-- What holds a crew's later items (04 R95, 10 R255). -/
inductive Holding where
  | idle
  | commit (req : CommitReq)
  | fenceWait (host : Bool) (addr target deadline cookie : Nat)
  | blit (run : BlitRun)
  deriving DecidableEq, Repr, Inhabited

/-- The first write of a confirmed object (02 R34). -/
structure Confirm where
  key : Nat
  value : Nat
  at_ : Nat
  deriving DecidableEq, Repr, Inhabited

/-- A program install in progress (05 R122). -/
structure ProgramReq where
  lane : Nat
  replace : Nat
  region : Nat
  block : Nat
  cookie : Nat
  deriving DecidableEq, Repr, Inhabited

/-- One crew's run-time state; its parameters are objects (02 R25). -/
structure Crew where
  cq : List CqItem
  inItem : Bool
  pushLo : Nat
  eq : List Nat
  eqPopHi : Nat
  popSince : Option Nat
  eqDrops : Nat
  eqArmed : Bool
  msixPending : Nat
  holding : Holding
  accepting : List CommitReq
  staged : List Staged
  latest : Option Nat
  signals : List Signal
  confirm : Option Confirm
  statusRead : Option Nat
  resync : Option (List Byte)
  mbxReq : Tab Byte
  mbxResp : List Byte
  mbxNotify : Bool
  mbxBusy : Bool
  mbxReply : List Byte
  mbxRestore : Bool
  xltCache : Tab Nat
  xltBusy : Bool
  xltFaultAddr : Nat
  xltFaultInfo : Nat
  xltFaultCount : Nat
  lastCommit : Nat
  programs : List Nat
  installing : List ProgramReq
  granules : List Nat
  deriving DecidableEq, Repr, Inhabited

/-- One layer's run-time state; its parameters are objects (04 R78). `owner` none is 0xFFFF, free; `stirred`: it caused damage in this
lane frame (05 R127); `heats`: of a LIVE layer, the heats since the latest halving (06 R166). -/
structure Layer where
  owner : Option Nat
  damage : List (Nat × Nat × Nat × Nat)
  quiet : Nat
  stirred : Bool
  heats : Nat
  residence : Nat
  copying : Option Nat
  surfacePin : Option Nat
  honouredAt : Option Nat
  removing : Bool
  deriving DecidableEq, Repr, Inhabited

/-- A flat tile (05 R128): per pixel four U1.19 components and the supplied bit, with the stack it replaces. -/
structure FlatTile where
  depth : Nat
  layers : List Nat
  pixels : List (Nat × Nat × Nat × Nat × Bool)
  deriving DecidableEq, Repr, Inhabited

/-- A blend program (05 R122 to R126). `reaches` gives for each mesh that a WARP step uses the source lines read below and above an output
line, from the crop origin (R121). -/
structure Program where
  owner : Nat
  lane : Nat
  region : Nat
  everyFrame : Bool
  steps : List Nat
  scaler : List Int
  matrix : List Int
  mesh : Tab Int
  reaches : Tab (Int × Int)
  inEffect : Bool
  deriving DecidableEq, Repr, Inhabited

/-- One composition of one lane frame (05 R104). Tiles are keyed row × 256 + column. `objs`, `layers`, `programs`, `lut` and
`ind` are the shadows it was bound to at its catch (01 R12); `reasons` pairs a tile with a cause of its composition. -/
structure Heat where
  frame : Nat
  tiles : List Nat
  held : List Nat
  released : List Nat
  closed : List Nat
  written : List Nat
  abandoned : List Nat
  reasons : List (Nat × Nat)
  cameras : Tab Nat
  commits : List (Nat × Nat)
  objs : Tab Val
  layers : Tab Layer
  programs : Tab Program
  lut : List Nat
  ind : Option Nat
  divided : Bool
  deriving DecidableEq, Repr, Inhabited

/-- The state of a lane (07 R199, LANE.STATE.state). -/
inductive LaneMode where
  | off | running | selfRefresh | retiming | limp
  deriving DecidableEq, Repr, Inhabited

/-- A RETIME in progress (07 R192). -/
structure Retime where
  enabling : Bool
  disabling : Bool
  idle : Bool
  portUp : Bool
  f0 : Bool
  commits : List (Nat × Nat)
  deriving DecidableEq, Repr, Inhabited

/-- The state of a port's link (08 R227, LANE.LINK_STATE.state). -/
inductive LinkMode where
  | off | waitingHpd | training | up | failed | lowPower
  deriving DecidableEq, Repr, Inhabited

/-- One lane's run-time state; its parameters are objects (07 R198). `timing` holds the lane's objects that the frame in progress began with
(R191), `heldLine` the line its timing generator stopped at, `lost` the pixels of the frame that were lost to an uncorrectable unit; `dueGate`: it is gated for a reference at the end of its last active line
(08 R223). -/
structure Lane where
  mode : LaneMode
  frameAt : Nat
  caughtAt : Option Nat
  groupAt : Option Nat
  porch : Bool
  porchExtended : Bool
  porchMaxed : Bool
  porchCaught : Bool
  frameDue : Bool
  teSeen : Bool
  sStart : Option Nat
  appliedSeq : Nat
  presentedSeq : Nat
  awaiting : List (Nat × Nat × Nat)
  heat : Heat
  shown : Heat
  damage : List (Nat × Nat)
  flat : Tab FlatTile
  lut : List Nat
  retime : Option Retime
  commitBusy : Bool
  commitResult : Nat
  commitAbort : Nat
  quietFrames : Nat
  cameraLock : Bool
  lockOff : Bool
  genlockAligned : Bool
  genlockLost : Bool
  lastPorch : Nat
  gated : Bool
  locked : Bool
  tracking : Bool
  trackOffset : Int
  trackBeyond : Bool
  synthRef : Nat
  synthN : Nat
  synthP : Nat
  synthF : Nat
  lastPixel : Nat
  stalls : List (Nat × Nat)
  evaluated : Bool
  underrunInfo : Nat
  stallInfo : Nat
  link : LinkMode
  failReason : Nat
  trainedRate : Nat
  trainedLanes : Nat
  candidates : List (Nat × Nat)
  hpd : Bool
  sink : Option SinkCaps
  psr : Bool
  selective : Bool
  linkCheckDue : Bool
  dsiCmd : Option (List Byte)
  dsiRsp : List Byte
  blPeriod : Nat
  blDuty : Nat
  blLow : Bool
  wbOwner : Option Nat
  wbFrames : Nat
  wbAbandoned : Nat
  wbCount : Nat
  wbActive : Bool
  kept : List Nat
  porchSince : Option Nat
  reachDown : Nat
  reachUp : Nat
  deficit : Tab Nat
  lastServed : Nat
  regionPins : List (Nat × Nat × Nat)
  suspended : List Nat
  lastJudged : Option Nat
  timing : Option (Tab Val)
  heldLine : Nat
  dueGate : Bool
  lost : List Nat
  blInvert : Bool
  deskewAt : Nat
  deriving DecidableEq, Repr, Inhabited

/-- The state of a stream slot (09 R252, cam.stream_state). -/
inductive SlotMode where
  | disabled | waiting | streaming | lost
  deriving DecidableEq, Repr, Inhabited

/-- A frame in managed forwarding (09 R245 to R248): its number among the slot's frame starts, where its lines lie, the requests it has issued,
whether it is published, whether a loss has been posted, its bands abandoned, and its bands released: band, lines signalled, instant. -/
structure FwdFrame where
  frame : Nat
  slot : Nat
  base : Nat
  line : Bool
  issued : Nat
  ended : Bool
  spoiled : Bool
  skipped : List Nat
  bands : List (Nat × Nat × Nat)
  deriving DecidableEq, Repr, Inhabited

/-- One stream slot's run-time state; its parameters are objects (09 R252). -/
structure Slot where
  mode : SlotMode
  frames : Nat
  lastFlags : Nat
  linesReceived : Nat
  isOpen : Bool
  crc : Bool
  long : Bool
  startedAt : Option Nat
  landed : Nat
  ringPos : Nat
  ringBase : Nat
  frameSlot : Nat
  ring : Nat
  starts : Nat
  filled : Tab Nat
  newest : Option Nat
  held : List (Nat × Nat)
  ringLines : Tab (List Nat)
  processing : List (Nat × Val)
  linePeriod : Nat
  lineStartAt : Option Nat
  lineSum : Nat
  channel : Option Nat
  fwdFrames : Nat
  fwdIncomplete : Nat
  fwdLines : Nat
  fwd : List FwdFrame
  deriving DecidableEq, Repr, Inhabited

/-- One camera port's run-time state. -/
structure CamPort where
  crcErrors : Nat
  headerErrors : Nat
  headerCorrected : Nat
  dtDrops : Nat
  deriving DecidableEq, Repr, Inhabited

/-- The state of a mover or utility DMA channel (10 R284, CH.STATE.state). -/
inductive ChMode where
  | idle | running | waiting | stopped | error
  deriving DecidableEq, Repr, Inhabited

/-- A burst in flight (10 R268): its middle and outer pass and the bytes it writes, each at its place in host memory or in the
aperture. -/
structure Burst where
  outer : Nat
  middle : Nat
  host : Bool
  bytes : List (Nat × Byte)
  deriving DecidableEq, Repr, Inhabited

/-- One mover or utility DMA channel's run-time state; its configuration registers are in `regs`. -/
structure Channel where
  mode : ChMode
  err : Nat
  pending : Nat
  outer : Nat
  middle : Nat
  desc : Nat
  descWords : List Nat
  hops : Nat
  leftover : Nat
  transfers : Nat
  managed : Option Nat
  inFlight : List Burst
  abandoned : Nat
  deriving DecidableEq, Repr, Inhabited

/-- The mover's global state (10 R275 to R278, R285). -/
structure Mover where
  stoppedAll : Bool
  stopping : Option BusError
  stoppedAt : Nat
  syndrome : Nat
  errAddr : Nat
  levels : Nat
  served : Nat
  udmaLast : Nat
  deriving DecidableEq, Repr, Inhabited

/-- One host port (11 R286 to R289, R317). -/
structure Port where
  linkUp : Bool
  l0 : Bool
  lanes : Nat
  speed : Nat
  perst : Bool
  crs : Bool
  vfEnable : Bool
  numVfs : Nat
  tags : Nat
  deriving DecidableEq, Repr, Inhabited

/-- One photo-finish region's run-time state; its parameters are objects (12 R331). -/
structure Region where
  armedAt : Nat
  crcs : List (Nat × Nat)
  history : Nat
  counts : List Nat
  run : Nat
  frame : Nat
  window : Option Nat
  failed : Bool
  expected : Nat
  nextExpected : Option (Nat × Nat)
  rearmAt : Option Nat
  deriving DecidableEq, Repr, Inhabited

/-- One entry of the fault log (12 R348). -/
structure LogEntry where
  source : Nat
  cls : Nat
  setBit : Bool
  detail : Nat
  time : Nat
  deriving DecidableEq, Repr, Inhabited

/-- The C3 record in the standby island (12 R344). -/
structure C3Record where
  source : Nat
  detail : Nat
  time : Nat
  word : Nat
  limpEntered : Bool
  deriving DecidableEq, Repr, Inhabited

/-- The umpire (12 R332 to R345). The three words hold source n in bit n; `lastAt` orders occurrences. -/
structure Umpire where
  latched : Nat
  active : Nat
  occurrences : Nat
  lastAt : Tab Nat
  classes : Tab Nat
  heldBack : Tab Nat
  class48 : Nat
  loaded : Bool
  nfaultLow : Bool
  snap : Nat
  snapSeq : Nat
  snapAt : Nat
  clearSel : Nat
  log : List LogEntry
  logCount : Nat
  c3 : Option C3Record
  injectSource : Nat
  injectHold : Bool
  deriving DecidableEq, Repr, Inhabited

/-- LIMP (12 R339 to R341). `launch` holds the launch configuration's objects of the designated safety lane. -/
structure Limp where
  record : Option LimpRecord
  launch : List (Nat × Val)
  lane : Nat
  pair : Nat
  driving : Bool
  gpio : Nat
  expected : Tab Nat
  deriving DecidableEq, Repr, Inhabited

/-- An entry of the audit log (13 R367). -/
structure Audit where
  counter : Nat
  time : Nat
  index : Nat
  sub : Nat
  kind : Nat
  old : Nat
  new : Nat
  deriving DecidableEq, Repr, Inhabited

/-- What an SMU request brings about at the next tick (13 R369); `v` is the challenge that follows an accepted authenticated
request (R364). -/
inductive SmuEffect where
  | refused | hire (t : Nat) | tariff (t : Nat) | stop | endJourney | supplement (k : Nat) | tripReset (trip : Nat) | showId
  | timeOffset (plus : Bool) | challenge (v : Nat) | verifyOpen (v : Nat) | param (key : Nat) (value : Val) (v : Nat)
  | verifyClose (v : Nat) | fwBlock (offset : Nat) (data : List Byte) (v : Nat) | logClear (v : Nat)
  deriving DecidableEq, Repr, Inhabited

/-- A request that waits for the tick: who asked, its cookie, its result, its effect (13 R369). -/
structure SmuAnswer where
  crew : Nat
  cookie : Nat
  result : Nat
  effect : SmuEffect
  deriving DecidableEq, Repr, Inhabited

/-- A VERIFY_CLOSE in progress (13 R365): since when, whose, and the passing outcomes so far. -/
structure SmuClosing where
  since : Nat
  crew : Nat
  cookie : Nat
  passes : Nat
  deriving DecidableEq, Repr, Inhabited

/-- The sealed measuring unit (13 R350 to R372); its sealed parameters are objects; `view` is the register set of the last tick. -/
structure Smu where
  running : Bool
  tick : Nat
  pulses : List Nat
  edges : List Nat
  overrate : Bool
  overrateAt : Nat
  implausible : Bool
  checkBase : Nat × Nat
  tripBase : Nat × Nat
  window : List Nat
  time : Nat
  subTicks : Nat
  tickAt : Nat
  timeValid : Bool
  journey : Journey
  effects : List SmuAnswer
  indValid : Bool
  indPlaced : Bool
  passes : Nat
  judgedAt : Nat
  posted : Option Nat
  bound : Option Nat
  carriedFrom : Option Nat
  rasters : List (List Nat)
  crcs : List Nat
  verifying : Bool
  closing : Option SmuClosing
  challenge : Nat
  lastAuth : Nat
  stagedParams : List (Nat × Val)
  savedParams : List (Nat × Val)
  stagedFw : Tab Byte
  sealOpen : Bool
  sealSince : Nat
  sealAnswered : Bool
  needsVerification : Bool
  storageFault : Bool
  fwOk : Bool
  fwHash : Nat
  eventCounter : Nat
  audit : List Audit
  slots : List SmuSlot
  recordOdo : Nat
  showId : Bool
  showIdAt : Nat
  view : List Nat
  out : Bool
  deriving DecidableEq, Repr, Inhabited

/-- Fuses, which survive every power cycle (14 R373). -/
structure Fuses where
  bootHashes : Tab Nat
  revoked : Nat
  debugHash : Option Nat
  provisionHash : Nat
  epoch : Nat
  minVersion : Nat
  fieldLock : Bool
  keyKill : Bool
  deriving DecidableEq, Repr, Inhabited

/-- An entry of SEC.ALARM_LOG (14 R383). -/
structure AlarmEntry where
  alarm : Nat
  policy : Nat
  time : Nat
  deriving DecidableEq, Repr, Inhabited

/-- The security block (14 R373 to R391). -/
structure Sec where
  fuses : Fuses
  lock : Bool
  erased : Bool
  debugOpen : Bool
  scope : Nat
  noKeys : Bool
  keys : Option Nat
  blob : Nat × Nat
  debugFails : Nat
  policyMax : Nat
  policy : Nat
  challenge : Option Nat
  withheldUntil : Nat
  withheld : Bool
  alarmLog : List AlarmEntry
  bootStatus : Nat
  raiseMin : Option Nat
  runningSlot : Nat
  provisionWindow : Nat
  holdSince : Nat
  deriving DecidableEq, Repr, Inhabited

/-- The six modes, and the unpowered device (15 R392, R393). -/
inductive Mode where
  | unpowered | standby | watch | launch | run | limp | factory
  deriving DecidableEq, Repr, Inhabited

/-- How far LAUNCH has come (15 R396): which step was completed last. -/
inductive LaunchStep where
  | begun | configured | limpLoaded | planned | selftest | ready | hold
  deriving DecidableEq, Repr, Inhabited

/-- Mode, reset, supplies and start-up (15, 17). -/
structure Modes where
  mode : Mode
  previous : Nat
  portsDisabled : Bool
  targetSet : Bool
  step : LaunchStep
  sleeping : Option Bool
  wakeDuringSleep : Bool
  inReset : Bool
  releasedAt : Nat
  resetAt : Nat
  causePending : Nat
  cause : Nat
  straps : Nat
  vstby : Bool
  vstbyAt : Nat
  wakePinAt : Option Nat
  pulse0At : Option Nat
  selftest : Nat
  selftestAsked : Bool
  generation : Nat
  rcWindow : Bool
  seconds : Nat
  standbySince : Nat
  wakePulses : Nat
  counting : Bool
  monotonic : Nat
  pwrReq : Bool
  deriving DecidableEq, Repr, Inhabited

/-- References, oscillators and clock monitor (08 R219 to R224); `refCfg` is CLK.REF_CFG as the last entry to LAUNCH read it. -/
structure Clocks where
  active : Nat
  drift : Int
  watchHz : Nat
  primaryGood : Bool
  grossBad : Bool
  xtal32Failed : Bool
  watchBad : Bool
  watchDead : Bool
  noRef : Bool
  refCfg : Nat
  deriving DecidableEq, Repr, Inhabited

/-- Placement, shedding and scrubbing (06). `shellSets` and `allotments` are the plan's shells and flat-cache bytes for each lane (R146,
R147). -/
structure Placement where
  generation : Nat
  shedSteps : Nat
  shedReturns : Nat
  lastRefusal : Nat
  shellOk : Nat
  shellTest : Option Nat
  nextShell : Nat
  lastShellTest : Tab Nat
  above : Tab Nat
  below : Tab Nat
  shed : List (Nat × Nat × Nat)
  exhausted : List Nat
  repairBoathouse : Nat
  repairLp5 : Nat
  corrections : List (Nat × Nat)
  badUnits : List Nat
  lp5Bytes : Nat
  lp5Rate : Nat
  lp5Ecc : Bool
  shellSets : Tab Nat
  allotments : Tab Nat
  blitTime : Tab Nat
  blitDeficit : Tab Nat
  blitLast : Nat
  deriving DecidableEq, Repr, Inhabited

/-- Power (03 R70, 15 R402): bit i of `on` is PD[i]. -/
structure Power where
  on : Nat
  throttle : Nat
  throttledAt : Option Nat
  deriving DecidableEq, Repr, Inhabited

/-- The state of a Silith link (16 R427). -/
inductive SlkMode where
  | off | training | authenticating | up | refused
  deriving DecidableEq, Repr, Inhabited

/-- One Silith link. -/
structure Link where
  mode : SlkMode
  peer : Nat
  towards : Bool
  reason : Nat
  delay : Nat
  retries : Nat
  refusedAt : Nat
  deriving DecidableEq, Repr, Inhabited

/-- The summary of a node (16 R422). -/
structure Node where
  mode : Nat
  reachable : Bool
  nfaultLow : Bool
  links : Nat
  generation : Nat
  umpire : Nat
  updatedAt : Nat
  deriving DecidableEq, Repr, Inhabited

/-- A request that the master has forwarded and that waits for its answer (16 R421). -/
structure Forward where
  at_ : Nat
  node : Nat
  via : Via
  req : Req
  deriving DecidableEq, Repr, Inhabited

/-- The cascade (16): the last marker and the last one that repeated a catch (R417); bit j of `spanHeld` is a span that waits for its
resynchronisation (R425); `forwarded` lists requests in flight, oldest first. -/
structure Cascade where
  links : List Link
  masterLost : Bool
  markerAt : Option Nat
  catchAt : Option Nat
  spanHeld : Nat
  forwarded : List Forward
  deriving DecidableEq, Repr, Inhabited

/-- A segmented transfer (02 R41). -/
structure Segment where
  write : Bool
  tag : Nat
  index : Nat
  sub : Nat
  total : Nat
  data : List Byte
  nextSeq : Nat
  unacked : Nat
  at_ : Nat
  deriving DecidableEq, Repr, Inhabited

/-- Registers that record the last irregular access (03 R69). -/
structure Access where
  dkAddr : Nat
  dkInfo : Nat
  unimplAddr : Nat
  unimplInfo : Nat
  accessAddr : Nat
  accessInfo : Nat
  pvAddr : Nat
  pvMask : Nat
  seqRejectAddr : Nat
  spiAbort : Bool
  matrixAddr : Nat
  matrixInfo : Nat
  deriving DecidableEq, Repr, Inhabited

/-- COUNTS (03 R63, R71). -/
structure Counts where
  live : Tab Nat
  held : Tab Nat
  snapSeq : Nat
  snapTime : Nat
  deriving DecidableEq, Repr, Inhabited

/-- The whole device and the queue of commands that wait. `prefetch` holds the boathouse copies of prefetched host surfaces (06 R144), a
byte of crew c at address a under c × 2^64 + a. -/
structure State where
  pending : List Instr
  now : Nat
  freeCount : Nat
  out : List Out
  objs : Tab Val
  regs : Tab Word
  latches : Tab Nat
  status : Tab Status
  counts : Counts
  keys : Tab KeyAttempt
  access : Access
  aperture : List Host.Cell
  hostMem : List Host.Cell
  frames : Tab Word
  prefetch : List Host.Cell
  nextSeq : Nat
  commits : List Commit
  crews : Tab Crew
  layers : Tab Layer
  lanes : Tab Lane
  programs : Tab Program
  cams : Tab CamPort
  slots : Tab Slot
  channels : Tab Channel
  mover : Mover
  ports : Tab Port
  regions : Tab Region
  umpire : Umpire
  limp : Limp
  smu : Smu
  sec : Sec
  modes : Modes
  clocks : Clocks
  placement : Placement
  power : Power
  cascade : Cascade
  nodes : Tab Node
  segments : Tab Segment
  bootQueues : Tab (Nat × Nat)
  panelInit : List (Nat × List Byte)
  early : Option EarlyCamera
  deriving DecidableEq, Repr, Inhabited

/-- A status register with no event yet (03 R57: the sequence is 0x00 after reset). -/
def blankStatus : Status := { count := 0, last := [] }

/-- A crew after reset (02 R22, 11 R316): empty queues, translation off, no record. -/
def blankCrew : Crew :=
  { cq := [], inItem := false, pushLo := 0, eq := [], eqPopHi := 0, popSince := none, eqDrops := 0, eqArmed := false,
    msixPending := 0, holding := .idle, accepting := [], staged := [], latest := none, signals := [], confirm := none,
    statusRead := none, resync := none, mbxReq := [], mbxResp := [], mbxNotify := false, mbxBusy := false, mbxReply := [], mbxRestore := false,
    xltCache := [], xltBusy := false, xltFaultAddr := 0, xltFaultInfo := 0, xltFaultCount := 0, lastCommit := 0,
    programs := [], installing := [], granules := [] }

/-- A free layer (04 R76, R78). -/
def blankLayer : Layer :=
  { owner := none, damage := [], quiet := 0, stirred := false, heats := 0, residence := 0, copying := none,
    surfacePin := none, honouredAt := none, removing := false }

/-- A heat with nothing to compose. -/
def blankHeat : Heat :=
  { frame := 0, tiles := [], held := [], released := [], closed := [], written := [], abandoned := [], reasons := [],
    cameras := [], commits := [], objs := [], layers := [], programs := [], lut := [], ind := none, divided := false }

/-- A lane that is off (07 R198, R199, 08 R227). -/
def blankLane : Lane :=
  { mode := .off, frameAt := 0, caughtAt := none, groupAt := none, porch := false, porchExtended := false, porchMaxed := false,
    porchCaught := false, frameDue := false, teSeen := false, sink := none, sStart := none, appliedSeq := 0, presentedSeq := 0, awaiting := [], heat := blankHeat,
    shown := blankHeat, damage := [], flat := [], lut := [], retime := none, commitBusy := false, commitResult := 0,
    commitAbort := 0, quietFrames := 0, cameraLock := false, lockOff := false, genlockAligned := false, genlockLost := false,
    lastPorch := 0, gated := false, locked := false, tracking := false, trackOffset := 0, trackBeyond := false,
    synthRef := 0, synthN := 0, synthP := 0, synthF := 0, lastPixel := 0xC000_0000, stalls := [], evaluated := true,
    underrunInfo := 0, stallInfo := 0, link := .off, failReason := 0, trainedRate := 0, trainedLanes := 0,
    candidates := [], hpd := false, psr := false, selective := false, linkCheckDue := false, dsiCmd := none,
    dsiRsp := [], blPeriod := 200, blDuty := 0, blLow := false, wbOwner := none, wbFrames := 0, wbAbandoned := 0,
    wbCount := 0, wbActive := false, kept := [], porchSince := none, reachDown := 0, reachUp := 0, deficit := [], lastServed := 0, regionPins := [], suspended := [],
    lastJudged := none, timing := none, heldLine := 0, dueGate := false, lost := [], blInvert := false, deskewAt := 0 }

/-- A program handle that is not installed. -/
def blankProgram : Program :=
  { owner := 0, lane := 0, region := 0, everyFrame := false, steps := [], scaler := [], matrix := [],
    mesh := [], reaches := [], inEffect := false }

/-- A disabled stream slot (09 R252). -/
def blankSlot : Slot :=
  { mode := .disabled, frames := 0, lastFlags := 0, linesReceived := 0, isOpen := false, crc := false,
    long := false, startedAt := none, landed := 0, ringPos := 0, ringBase := 0, frameSlot := 0, ring := 0, starts := 0,
    filled := [], newest := none,
    held := [], ringLines := [], processing := [], linePeriod := 0, lineStartAt := none, lineSum := 0,
    channel := none, fwdFrames := 0, fwdIncomplete := 0, fwdLines := 0, fwd := [] }

/-- A camera port with its counters at 0 (09 R252). -/
def blankCam : CamPort := { crcErrors := 0, headerErrors := 0, headerCorrected := 0, dtDrops := 0 }

/-- An idle channel (10 R284). -/
def blankChannel : Channel :=
  { mode := .idle, err := 0, pending := 0, outer := 0, middle := 0, desc := 0, descWords := [], hops := 0, leftover := 0,
    transfers := 0, managed := none, inFlight := [], abandoned := 0 }

/-- A host port whose link is down (11 R317); 127 virtual functions, none enabled (R288). -/
def blankPort : Port :=
  { linkUp := false, l0 := false, lanes := 0, speed := 0, perst := false, crs := false, vfEnable := false, numVfs := 0,
    tags := 0 }

/-- A region that is off (12 R331, R347). -/
def blankRegion : Region :=
  { armedAt := 0, crcs := [], history := 0, counts := [0, 0, 0, 0], run := 0, frame := 0, window := none,
    failed := false, expected := 0, nextExpected := none, rearmAt := none }

/-- The umpire after reset (12 R348): nothing latched, nFAULT driven low until the classes are loaded (R336). -/
def blankUmpire : Umpire :=
  { latched := 0, active := 0, occurrences := 0, lastAt := [], classes := [], heldBack := [], class48 := 2,
    loaded := false, nfaultLow := true, snap := 0, snapSeq := 0, snapAt := 0, clearSel := 2 ^ 128 - 1, log := [],
    logCount := 0, c3 := none, injectSource := 0, injectHold := false }

/-- No limp record loaded (12 R341); lane and pair come from the launch configuration. -/
def blankLimp : Limp :=
  { record := none, launch := [], lane := 0, pair := 0, driving := false, gpio := 0, expected := [] }

/-- A journey that is FOR_HIRE (13 R355). -/
def blankJourney : Journey :=
  { kind := 0, tariff := 0, fare := 0, supplements := 0, acc := 0, startOdo := 0, ticks := 0 }

/-- The SMU before its start (13 R372): SMU_OUT high, the indication invalid. -/
def blankSmu : Smu :=
  { running := false, tick := 0, pulses := [0, 0, 0, 0], edges := [], overrate := false, overrateAt := 0, implausible := false,
    checkBase := (0, 0), tripBase := (0, 0), window := [], time := 0, subTicks := 0, tickAt := 0, timeValid := false,
    journey := blankJourney, effects := [], indValid := false, indPlaced := false, passes := 0,
    judgedAt := 0, posted := none, bound := none, carriedFrom := none, rasters := [[], []], crcs := [0, 0], verifying := false,
    closing := none, challenge := 0, lastAuth := 0, stagedParams := [], savedParams := [], stagedFw := [],
    sealOpen := false, sealSince := 0, sealAnswered := false, needsVerification := false, storageFault := false,
    fwOk := false, fwHash := 0, eventCounter := 0, audit := [], slots := [], recordOdo := 0, showId := false,
    showIdAt := 0, view := [8], out := true }

/-- Fuses of a device with nothing blown (14 R373). -/
def blankFuses : Fuses :=
  { bootHashes := [], revoked := 0, debugHash := none, provisionHash := 0, epoch := 0, minVersion := 0,
    fieldLock := false, keyKill := false }

/-- The default policies and classes of R382, packed as SEC.ALARM_POLICY: alarm a in bits [3a + 2:3a]. -/
def defaultAlarmPolicy : Nat := 0x124E

/-- The security block after reset (14 R391). -/
def blankSec : Sec :=
  { fuses := blankFuses, lock := false, erased := false, debugOpen := false, scope := 0, noKeys := false, keys := none,
    blob := (0, 0), debugFails := 0, policyMax := 0, policy := defaultAlarmPolicy, challenge := none, withheldUntil := 0,
    withheld := false, alarmLog := [], bootStatus := 0x11, raiseMin := none, runningSlot := 0, provisionWindow := 60, holdSince := 0 }

/-- The instant of reset release after power-on: LAUNCH has begun (15 R393, 03 R69 SYS.MODE reset 0b010), cause power_on. -/
def blankModes : Modes :=
  { mode := .launch, previous := 0, portsDisabled := false, targetSet := false, step := .begun, sleeping := none,
    wakeDuringSleep := false, inReset := false, releasedAt := 0, resetAt := 0, causePending := 0, cause := 1, straps := 0,
    vstby := true, vstbyAt := 0, wakePinAt := none, pulse0At := none,
    selftest := 0, selftestAsked := false, generation := 0, rcWindow := false, seconds := 0, standbySince := 0, wakePulses := 0,
    counting := false, monotonic := 0, pwrReq := true }

/-- The clock monitor after reset (08 R228). -/
def blankClocks : Clocks :=
  { active := 0, drift := 0, watchHz := 50000000, primaryGood := false, grossBad := false, xtal32Failed := false,
    watchBad := false, watchDead := false, noRef := false, refCfg := 0 }

/-- Placement after reset (06 R159, R171): all 16 shells healthy. -/
def blankPlacement : Placement :=
  { generation := 0, shedSteps := 0, shedReturns := 0, lastRefusal := 0, shellOk := 0xFFFF, shellTest := none,
    nextShell := 0, lastShellTest := [], above := [], below := [], shed := [], exhausted := [], repairBoathouse := 0,
    repairLp5 := 0, corrections := [], badUnits := [], lp5Bytes := 0, lp5Rate := 0, lp5Ecc := false,
    shellSets := [], allotments := [], blitTime := [], blitDeficit := [], blitLast := 0 }

/-- The domains that are on at the start of LAUNCH (15 R402): PD[80] to PD[85], PD[90], PD[91], PD[94], PD[95]. -/
def launchDomains : Nat :=
  2 ^ 80 + 2 ^ 81 + 2 ^ 82 + 2 ^ 83 + 2 ^ 84 + 2 ^ 85 + 2 ^ 90 + 2 ^ 91 + 2 ^ 94 + 2 ^ 95

/-- Power after reset: no throttle (03 R70). -/
def blankPower : Power := { on := launchDomains, throttle := 0, throttledAt := none }

/-- A link that is off (16 R427). -/
def blankLink : Link := { mode := .off, peer := 0, towards := false, reason := 0, delay := 0, retries := 0, refusedAt := 0 }

/-- A node of which nothing is known (16 R422). -/
def blankNode : Node :=
  { mode := 0, reachable := false, nfaultLow := false, links := 0, generation := 0, umpire := 0, updatedAt := 0 }

/-- The cascade after reset. -/
def blankCascade : Cascade :=
  { links := [blankLink, blankLink], masterLost := false, markerAt := none, catchAt := none, spanHeld := 0,
    forwarded := [] }

/-- The record of irregular accesses after reset (03 R69). -/
def blankAccess : Access :=
  { dkAddr := 0, dkInfo := 0, unimplAddr := 0, unimplInfo := 0, accessAddr := 0, accessInfo := 0, pvAddr := 0,
    pvMask := 0, seqRejectAddr := 0, spiAbort := false, matrixAddr := 0, matrixInfo := 0 }

/-- The mover with no stop in force (10 R284). -/
def blankMover : Mover :=
  { stoppedAll := false, stopping := none, stoppedAt := 0, syndrome := 0, errAddr := 0, levels := 0, served := 0, udmaLast := 0 }

/-- No counter has counted and no snapshot was taken (03 R71). -/
def blankCounts : Counts := { live := [], held := [], snapSeq := 0, snapTime := 0 }

/-- The device right after reset release that follows power-on; no command waits. -/
def State.reset : State :=
  { pending := [], now := 0, freeCount := 0, out := [], objs := [], regs := [], latches := [], status := [],
    counts := blankCounts, keys := [], access := blankAccess,
    aperture := [], hostMem := [], frames := [], prefetch := [], nextSeq := 1, commits := [], crews := [], layers := [], lanes := [],
    programs := [], cams := [], slots := [], channels := [],
    mover := blankMover,
    ports := [], regions := [], umpire := blankUmpire, limp := blankLimp, smu := blankSmu, sec := blankSec,
    modes := blankModes, clocks := blankClocks, placement := blankPlacement, power := blankPower,
    cascade := blankCascade, nodes := [], segments := [], bootQueues := [], panelInit := [], early := none }

end Sys2Proof.Machine
end

