-- ==== Sys2Proof/Machine/Tab.lean ====
section
/-! DEFINITION. Reading and writing the sparse tables of the state, and memory in its one canonical form. -/

namespace Sys2Proof.Machine

open Sys2Proof

/-- The entry of a key, if one is listed. -/
def tabFind {α : Type} : Tab α → Nat → Option α
  | [], _ => none
  | (k', v') :: t, k => if k' = k then some v' else tabFind t k

/-- The entry of a key; `d` is what an unlisted key holds. -/
def tabGet {α : Type} (d : α) (t : Tab α) (k : Nat) : α := (tabFind t k).getD d

/-- The table with one entry written, keys kept rising. -/
def tabSet {α : Type} : Tab α → Nat → α → Tab α
  | [], k, v => [(k, v)]
  | (k', v') :: t, k, v =>
    if k < k' then (k, v) :: (k', v') :: t
    else if k = k' then (k, v) :: t
    else (k', v') :: tabSet t k v

/-- The table without one entry. -/
def tabErase {α : Type} : Tab α → Nat → Tab α
  | [], _ => []
  | (k', v') :: t, k => if k' = k then t else (k', v') :: tabErase t k

/-- The table with one entry changed. -/
def tabMod {α : Type} (d : α) (t : Tab α) (k : Nat) (f : α → α) : Tab α := tabSet t k (f (tabGet d t k))

/-- Keys strictly rise. -/
def tabRising {α : Type} : Tab α → Bool
  | [] => true
  | [_] => true
  | (k, _) :: (k', v') :: t => decide (k < k') && tabRising ((k', v') :: t)

/-- A byte of memory; a byte that nothing has written reads 0 (notes/assumptions/4). -/
def memRead (m : List Host.Cell) (a : Nat) : Byte := tabGet 0 m a

/-- Memory with one byte written; a 0 is not listed, so equal memories are equal lists. -/
def memWrite (m : List Host.Cell) (a : Nat) (b : Byte) : List Host.Cell :=
  if b = 0 then tabErase m a else tabSet m a b

/-- The canonical form of memory: addresses rise and no listed byte is 0. -/
def memWf (m : List Host.Cell) : Bool := tabRising m && m.all (fun c => decide (c.2 ≠ 0))

/-- `n` bytes from address `a` up. -/
def memReads (m : List Host.Cell) (a : Nat) : Nat → List Byte
  | 0 => []
  | n + 1 => memRead m a :: memReads m (a + 1) n

/-- A run of bytes written from address `a` up. -/
def memWrites (m : List Host.Cell) (a : Nat) : List Byte → List Host.Cell
  | [] => m
  | b :: bs => memWrites (memWrite m a b) (a + 1) bs

/-- `n` bytes as a little-endian number. -/
def memNat (m : List Host.Cell) (a n : Nat) : Nat := leNat (memReads m a n)

/-- Where a byte of a crew's 256 MiB surface aperture lies in `State.aperture` (11 R290). -/
def apertureKey (crew offset : Nat) : Nat := crew * 0x1000_0000 + offset

/-- Where a byte of the host memory behind a port lies in `State.hostMem`. -/
def hostKey (port addr : Nat) : Nat := port * 2 ^ 64 + addr

/-- One entry put at its place in a list in order. -/
def insertBy {α : Type} (le : α → α → Bool) (a : α) : List α → List α
  | [] => [a]
  | b :: t => if le a b then a :: b :: t else b :: insertBy le a t

/-- A list put in order. -/
def sortBy {α : Type} (le : α → α → Bool) (l : List α) : List α := l.foldr (insertBy le) []

end Sys2Proof.Machine
end

