-- ==== Sys2Proof/Machine/Ops.lean ====
section
/-! DEFINITION. The named operations that every meaning is made of: time, objects, tables of the state, counters, what the
device sends, free values, mode tests. -/

namespace Sys2Proof.Machine

open Sys2Proof

/-- `dt` ns pass (notes/assumptions/1). -/
def State.tick (s : State) (dt : Nat) : State := { s with now := s.now + dt }

/-- A command whose instant has come: time passes, and where the device is ready for the event its effect happens. A
command that the device cannot meet in its state changes nothing but time (notes/assumptions/7). -/
def happen (dt : Nat) (ready : State → Bool) (eff : State → State) (s : State) : Host.Outcome State Fault Refusal :=
  .next (if ready (s.tick dt) then eff (s.tick dt) else s.tick dt)

/-- SYS.UPTIME: µs since reset release (03 R69). -/
def State.uptime (s : State) : Nat := (s.now - s.modes.releasedAt) / 1000

/-! ### Objects -/

/-- The value of an object; an unlisted one holds its default. -/
def State.obj (s : State) (index sub : Nat) : Val := tabGet (objBlank index sub) s.objs (objKey index sub)

/-- A number object's value. -/
def valNat : Val → Nat
  | .num n => n
  | .bytes b => leNat b

/-- A STR or BLOB object's content. -/
def valContent : Val → List Byte
  | .num _ => []
  | .bytes b => b

def State.num (s : State) (index sub : Nat) : Nat := valNat (s.obj index sub)

/-- An object written. -/
def State.setObj (s : State) (index sub : Nat) (v : Val) : State := { s with objs := tabSet s.objs (objKey index sub) v }

/-- An object written at its key. -/
def State.setKey (s : State) (key : Nat) (v : Val) : State := { s with objs := tabSet s.objs key v }

def State.setNum (s : State) (index sub n : Nat) : State := s.setObj index sub (.num n)

/-- Object indices of the repeated blocks (02 R25, R28, 12 R331). -/
def crewIx (c row : Nat) : Nat := 0x4000 + c * 0x10 + row
def laneIx (n b : Nat) : Nat := 0x3000 + n * 0x100 + b
def camIx (p b : Nat) : Nat := 0x3800 + p * 0x100 + b
def layerIx (l : Nat) : Nat := 0x6000 + l
def regionIx (n i : Nat) : Nat := 0x7100 + n * 0x20 + i
def spanIx (j : Nat) : Nat := 0x7C20 + j

/-- The lane's frames follow one another: it runs, or its RETIME has reached F0 (07 R192, R193). -/
def Lane.scans (l : Lane) : Bool := decide (l.mode = .running) || l.retime.any (fun r => r.f0)

/-- Objects whose index lies in a range, back at their defaults. -/
def State.dropObjs (s : State) (lo hi : Nat) : State :=
  { s with objs := s.objs.filter (fun p => !(decide (lo * 256 ≤ p.1) && decide (p.1 < hi * 256))) }

/-! ### Tables of the state -/

def State.crew (s : State) (c : Nat) : Crew := tabGet blankCrew s.crews c
def State.modCrew (s : State) (c : Nat) (f : Crew → Crew) : State := { s with crews := tabMod blankCrew s.crews c f }
def State.layer (s : State) (l : Nat) : Layer := tabGet blankLayer s.layers l
def State.modLayer (s : State) (l : Nat) (f : Layer → Layer) : State := { s with layers := tabMod blankLayer s.layers l f }
def State.lane (s : State) (n : Nat) : Lane := tabGet blankLane s.lanes n
def State.modLane (s : State) (n : Nat) (f : Lane → Lane) : State := { s with lanes := tabMod blankLane s.lanes n f }
def State.program (s : State) (h : Nat) : Program := tabGet blankProgram s.programs h
def State.modProgram (s : State) (h : Nat) (f : Program → Program) : State :=
  { s with programs := tabMod blankProgram s.programs h f }
def State.cam (s : State) (p : Nat) : CamPort := tabGet blankCam s.cams p
def State.modCam (s : State) (p : Nat) (f : CamPort → CamPort) : State := { s with cams := tabMod blankCam s.cams p f }

/-- Stream slots are keyed port × 4 + slot (09 R234). -/
def State.slot (s : State) (k : Nat) : Slot := tabGet blankSlot s.slots k
def State.modSlot (s : State) (k : Nat) (f : Slot → Slot) : State := { s with slots := tabMod blankSlot s.slots k f }

/-- Channels are keyed by mover channel 0 to 63; utility DMA channels by 64 + number (10 R265, R279). -/
def State.channel (s : State) (k : Nat) : Channel := tabGet blankChannel s.channels k
def State.modChannel (s : State) (k : Nat) (f : Channel → Channel) : State :=
  { s with channels := tabMod blankChannel s.channels k f }
def State.port (s : State) (p : Nat) : Port := tabGet blankPort s.ports p
def State.modPort (s : State) (p : Nat) (f : Port → Port) : State := { s with ports := tabMod blankPort s.ports p f }

/-- Regions are keyed lane × 32 + region (12 R331). -/
def State.region (s : State) (k : Nat) : Region := tabGet blankRegion s.regions k
def State.modRegion (s : State) (k : Nat) (f : Region → Region) : State :=
  { s with regions := tabMod blankRegion s.regions k f }
def State.node (s : State) (n : Nat) : Node := tabGet blankNode s.nodes n
def State.statusAt (s : State) (a : Nat) : Status := tabGet blankStatus s.status a
def State.modStatus (s : State) (a : Nat) (f : Status → Status) : State := { s with status := tabMod blankStatus s.status a f }

/-- A plain register's stored word at its address in crew 0's window; `d` is its reset value. -/
def State.reg (s : State) (a d : Nat) : Nat := (tabGet (BitVec.ofNat 32 d) s.regs a).toNat
def State.setReg (s : State) (a v : Nat) : State := { s with regs := tabSet s.regs a (BitVec.ofNat 32 v) }

def State.modUmpire (s : State) (f : Umpire → Umpire) : State := { s with umpire := f s.umpire }
def State.modSmu (s : State) (f : Smu → Smu) : State := { s with smu := f s.smu }
def State.modSec (s : State) (f : Sec → Sec) : State := { s with sec := f s.sec }
def State.modModes (s : State) (f : Modes → Modes) : State := { s with modes := f s.modes }
def State.modClocks (s : State) (f : Clocks → Clocks) : State := { s with clocks := f s.clocks }
def State.modPlacement (s : State) (f : Placement → Placement) : State := { s with placement := f s.placement }
def State.modPower (s : State) (f : Power → Power) : State := { s with power := f s.power }
def State.modCascade (s : State) (f : Cascade → Cascade) : State := { s with cascade := f s.cascade }
def State.modAccess (s : State) (f : Access → Access) : State := { s with access := f s.access }
def State.modMover (s : State) (f : Mover → Mover) : State := { s with mover := f s.mover }
def State.modLimp (s : State) (f : Limp → Limp) : State := { s with limp := f s.limp }

/-! ### Counters (03 R63, R71) -/

/-- Live counters are keyed by their COUNTS offset, a crew's by 0x1_0000 + crew × 0x20 + its place. -/
def laneCount (n k : Nat) : Nat := 0x100 + n * 0x40 + k
def camCount (n k : Nat) : Nat := 0x300 + n * 0x20 + k
def chanCount (k : Nat) : Nat := 0x400 + k * 8
def vrrCount (n k : Nat) : Nat := 0x600 + n * 0x10 + k
def crewCount (c k : Nat) : Nat := 0x1_0000 + c * 0x20 + k

def State.counter (s : State) (o : Nat) : Nat := tabGet 0 s.counts.live o

/-- A counter grows by `k`. -/
def State.count (s : State) (o k : Nat) : State :=
  { s with counts := { s.counts with live := tabMod 0 s.counts.live o (· + k) } }

/-- The lane frame counter: COUNTS LANE[n].FRAMES (07 R199). -/
def State.frame (s : State) (n : Nat) : Nat := s.counter (laneCount n 0)

/-! ### Sending, free values, modes -/

/-- The device sends `o`. -/
def State.send (s : State) (o : Out) : State := { s with out := o :: s.out }

/-- The next free value (notes/assumptions/2), and the state in which it is used up. -/
def State.free (s : State) : Nat := Config.freeValue s.freeCount
def State.used (s : State) : State := { s with freeCount := s.freeCount + 1 }

/-- SYS.MODE.current (03 R69, 15 R392); STANDBY and no power have no code. -/
def Mode.code : Mode → Nat
  | .unpowered => 0 | .standby => 0 | .watch => 1 | .launch => 2 | .run => 3 | .limp => 4 | .factory => 5

/-- The plan is built: step 4 of 15 R396 is done, which FACTORY carries out like LAUNCH (notes/assumptions/25). -/
def State.planBuilt (s : State) : Bool :=
  decide (s.modes.step = .planned ∨ s.modes.step = .selftest ∨ s.modes.step = .ready ∨ s.modes.step = .hold)

/-- Normal operation: RUN, or FACTORY, which runs everything that RUN runs (15 R392). -/
def State.running (s : State) : Bool :=
  (decide (s.modes.mode = .run) || (decide (s.modes.mode = .factory) && s.planBuilt)) && !s.modes.inReset && !s.modes.portsDisabled

/-- The register fabric works: the device is out of reset in a mode that has a code of its own (15 R392, R402). -/
def State.awake (s : State) : Bool :=
  !s.modes.inReset &&
  (decide (s.modes.mode = .launch) || decide (s.modes.mode = .run) || decide (s.modes.mode = .limp) ||
   decide (s.modes.mode = .factory))

/-- The cox serves the dictionary and the queues: not in LIMP, not with all ports disabled (15 R402, 12 R342). -/
def State.coxUp (s : State) : Bool :=
  s.awake && !decide (s.modes.mode = .limp) && !s.modes.portsDisabled

/-- The launch configuration has taken effect (15 R396 step 2, R409). -/
def State.configured (s : State) : Bool := s.coxUp && !decide (s.modes.step = .begun)

/-- This device is the master of a cascade (16 R414): CASC_EN and CASC_ROLE. -/
def State.cascMaster (s : State) : Bool := bitOf s.modes.straps 3 && bitOf s.modes.straps 0

/-- This device's node number: CASC_ID (16 R414). -/
def State.ownNode (s : State) : Nat := bits s.modes.straps 2 1

/-- The dictionary answers normally (15 R396 step 4). -/
def State.planned (s : State) : Bool := s.coxUp && s.planBuilt

/-- A sleep request is being carried out (15 R399): no commit is applied and no event is posted. -/
def State.quiet (s : State) : Bool := s.modes.sleeping.isSome || !s.coxUp

/-- A power domain is on (15 R402). -/
def State.domainOn (s : State) (d : Nat) : Bool := s.power.on.testBit d

/-! ### Crews (02 R20 to R27) -/

/-- The manager crew of a crew's port (02 R20). -/
def managerOf (c : Nat) : Nat := c / 128 * 128

def State.crewEnabled (s : State) (c : Nat) : Bool := decide (s.num (crewIx c 0) 1 = 1)

/-- Bit `b` of crew.rights (02 R27). -/
def State.crewRight (s : State) (c b : Nat) : Bool := (s.num (crewIx c 1) 5).testBit b

/-- crew.lanes permits lane `n`. -/
def State.crewLane (s : State) (c n : Nat) : Bool := (s.num (crewIx c 1) 4).testBit n

/-- The layers a crew owns, in ascending number. -/
def State.layersOf (s : State) (c : Nat) : List Nat :=
  (s.layers.filter (fun p => decide (p.2.owner = some c))).map Prod.fst

/-- The crew's PCIe function can reach the device (02 R26). -/
def State.functionPresent (s : State) (c : Nat) : Bool :=
  let p := s.port (c / 128)
  p.linkUp && (decide (c % 128 = 0) || (p.vfEnable && decide (c % 128 ≤ p.numVfs)))

/-- crew.state (02 R25, R26): 0 disabled, 1 enabled, 2 faulted. -/
def State.crewState (s : State) (c : Nat) : Nat :=
  if s.crewEnabled c then (if s.functionPresent c then 1 else 2) else 0

/-- The crew holds PORT_MANAGER for a port (02 R21). -/
def portManager (c port : Nat) : Bool := decide (c = 0) || decide (c = port * 128)

end Sys2Proof.Machine
end

