-- ==== Sys2Proof/Machine/Flags.lean ====
section
/-! DEFINITION. Status registers and the sequence clear (03 R57 to R59), completion events (04 R96, 11 R300 to R302) and MSI-X. -/

namespace Sys2Proof.Machine

open Sys2Proof

/-- Events of one clock cycle: the sequence advances by one and every bit records the new value (03 R57). -/
def Status.raised (st : Status) (bs : List Nat) : Status :=
  { count := st.count + 1, last := bs.foldl (fun t b => tabSet t b (st.count + 1)) st.last }

/-- The word a read of a status register returns, without PV bits (03 R57). -/
def Status.word (st : Status) : Nat := (st.count % 256) * 2 ^ 24 + (st.last.foldl (fun w p => w ||| 2 ^ p.1) 0)

/-- Whether a write-back value is one already issued: (Q − S) mod 256 is 0 to 127 (03 R58). -/
def Status.valid (st : Status) (sq : Nat) : Bool := decide ((st.count + 256 - sq) % 256 < 128)

/-- A valid write-back clears every set event whose last occurrence is S or earlier (03 R58): those at least (Q − S) mod 256
steps before Q, counted without wrapping. -/
def Status.cleared (st : Status) (sq : Nat) : Status :=
  { st with last := st.last.filter (fun p => decide (st.count < p.2 + (st.count + 256 - sq) % 256)) }

/-- An event bit is set. -/
def Status.has (st : Status) (b : Nat) : Bool := (tabFind st.last b).isSome

/-- Raises events of a status register (03 R57). -/
def State.raise (s : State) (a : Nat) (bs : List Nat) : State := s.modStatus a (fun st => st.raised bs)

/-- The addresses of the status registers. -/
def sysStatus : Nat := 0x18
def powerStatus : Nat := 0x1_0030
def refStatus : Nat := 0x2_0004
def laneStatus (n : Nat) : Nat := (Block.lane n).base + 0x80
def portStatus (n : Nat) : Nat := (Block.lane n).base + 0x280
def camStatus (n : Nat) : Nat := (Block.cam n).base + 0x10
def channelStatus (k : Nat) : Nat := if k < 64 then Block.move.base + k * 0x100 + 0x48 else Block.udma.base + (k - 64) * 0x100 + 0x48
def moveStatus : Nat := Block.move.base + 0xC0
def matrixStatus : Nat := Block.matrix.base
def umpireStatus : Nat := Block.umpire.base
def photoStatus (n : Nat) : Nat := Block.photo.base + 0x20 + 4 * n
def coxStatus : Nat := Block.cox.base
def secStatus : Nat := Block.sec.base + 4
def slkStatus : Nat := Block.slk.base
def hostStatus (p : Nat) : Nat := (Block.host p).base + 4
def crewStatus (c : Nat) : Nat := (Block.crew c).base + 0x40
def mbxStatus (c : Nat) : Nat := (Block.crew c).base + 0x3004

/-- The domains that are on; a change raises domain_changed (03 R70). -/
def State.setPower (s : State) (on : Nat) : State :=
  if s.power.on = on then s else (s.modPower (fun p => { p with on := on })).raise powerStatus [0]

/-- One domain turned on or off. -/
def State.setDomain (s : State) (d : Nat) (on : Bool) : State :=
  s.setPower (if s.domainOn d = on then s.power.on else s.power.on ^^^ 2 ^ d)

/-- POWER HOLD of a domain (03 R70). -/
def State.held (s : State) (d : Nat) : Bool :=
  if d < 32 then bitOf (s.reg 0x1_0020 0) d else if d < 64 then bitOf (s.reg 0x1_0024 0) (d - 32) else bitOf (s.reg 0x1_0028 0) (d - 64)

/-- A domain turned off, but where its HOLD bit is set (03 R70, 15 R403). -/
def State.letGo (s : State) (d : Nat) : State := if s.held d then s else s.setDomain d false

/-- Both LP5X domains on: they turn on together (15 R403). -/
def State.lp5Up (s : State) : State := (s.setDomain 84 true).setDomain 85 true

/-! ### MSI-X (11 R302) -/

/-- A vector's mask bit: word 3 of its table entry. -/
def State.msixMasked (s : State) (c v : Nat) : Bool :=
  decide (s.reg ((Block.crew c).base + 0x3800 + v * 16 + 12) 1 % 2 = 1)

/-- A message is sent, or stays pending while its vector is masked. -/
def State.msix (s : State) (c v : Nat) : State :=
  if s.msixMasked c v then s.modCrew c (fun k => { k with msixPending := k.msixPending ||| 2 ^ v })
  else s.send (.msix c v)

/-- Raises events of CREW.STATUS: vector 1 is sent for each bit that was clear (11 R302). -/
def State.raiseCrew (s : State) (c b : Nat) : State :=
  if (s.statusAt (crewStatus c)).has b then s.raise (crewStatus c) [b] else (s.raise (crewStatus c) [b]).msix c 1

/-! ### The completion queue (04 R96, 11 R300, R301) -/

/-- A completion item: code, lane (0xF where none applies), reason, cookie, low word (04 R96). -/
def eventWord (code lane reason cookie low : Nat) : Nat :=
  code * 2 ^ 56 + (lane % 16) * 2 ^ 52 + (reason % 16) * 2 ^ 48 + (cookie % 2 ^ 16) * 2 ^ 32 + low % 2 ^ 32

/-- The armed vector 0 is sent once while the queue is not empty; sending disarms it (11 R302). -/
def State.checkArm (s : State) (c : Nat) : State :=
  if (s.crew c).eqArmed && !(s.crew c).eq.isEmpty then (s.modCrew c (fun k => { k with eqArmed := false })).msix c 0 else s

/-- Posts an event to a crew (11 R300): dropped for a disabled crew (02 R23) and where the device posts none (12 R339, 15 R399);
taken by a waiting read; dropped and counted at a full queue. -/
def State.post (s : State) (c w : Nat) : State :=
  if s.quiet || !s.crewEnabled c then s
  else if (s.crew c).popSince.isSome then
    (s.modCrew c (fun k => { k with popSince := none, eqPopHi := w / 2 ^ 32 })).send (.readData c (w % 2 ^ 32))
  else if 256 ≤ (s.crew c).eq.length then
    (s.modCrew c (fun k => { k with eqDrops := k.eqDrops + 1 })).raiseCrew c 2
  else (s.modCrew c (fun k => { k with eq := k.eq ++ [w] })).checkArm c

/-- Posts the same event to the four manager crews. -/
def State.postManagers (s : State) (w : Nat) : State := (((s.post 0 w).post 128 w).post 256 w).post 384 w

end Sys2Proof.Machine
end

