-- ==== Sys2Proof/Machine/Umpire.lean ====
section
/-! DEFINITION. The umpire's shared operations: occurrences, classes, nFAULT, entry to LIMP, the state with all ports disabled,
the C3 record (12 R332 to R346). -/

namespace Sys2Proof.Machine

open Sys2Proof

/-! ### Classes (12 R333, R334) -/

/-- The default class of a source (12 R333). -/
def defaultClass (n : Nat) : Nat :=
  if n ≤ 37 then 1
  else if n = 38 then 2
  else if n = 39 then 1
  else if n = 40 then 3
  else if n ≤ 43 then 2
  else if n ≤ 45 then 1
  else if n = 46 then 0
  else if n = 47 then 1
  else if n ≤ 50 then 2
  else if n = 51 then 0
  else if n ≤ 53 then 2
  else if n = 54 then 0
  else if n = 55 then 1
  else if n ≤ 57 then 2
  else if n ≤ 63 then 0
  else if n ≤ 95 then (n - 64) % 4
  else 1

/-- Sources whose class is fixed (12 R334). -/
def classFixed (n : Nat) : Bool :=
  decide (n = 48 ∨ n = 49 ∨ (59 ≤ n ∧ n ≤ 63) ∨ (64 ≤ n ∧ n ≤ 95))

/-- The class of a source in effect (12 R333, R334). -/
def State.classOf (s : State) (n : Nat) : Nat :=
  if n = 48 then (if s.umpire.latched.testBit 48 then s.umpire.class48 else 2)
  else if classFixed n then defaultClass n
  else tabGet (defaultClass n) s.umpire.classes n

/-- A latched source of at least a class. -/
def State.latchedAt (s : State) (c : Nat) : Bool :=
  (List.range 128).any (fun n => s.umpire.latched.testBit n && decide (c ≤ s.classOf n))

/-- nFAULT is driven low (12 R336, 14 R381). From reset release until the classes are loaded, `loaded` is false. -/
def State.nfaultNow (s : State) : Bool :=
  !s.umpire.loaded || s.sec.debugOpen || s.latchedAt (s.num 0x7000 2)

/-- nFAULT follows its conditions; a change of level raises nfault_changed in the cycle of the events `bs` that bring it about
(03 R57, 12 R332, R336, R348). -/
def State.raiseUmpire (s : State) (bs : List Nat) : State :=
  if s.nfaultNow = s.umpire.nfaultLow then s.raise umpireStatus bs
  else (s.modUmpire (fun u => { u with nfaultLow := s.nfaultNow })).raise umpireStatus (bs ++ [4])

/-- A change of nFAULT alone. -/
def State.followNfault (s : State) : State := if s.nfaultNow = s.umpire.nfaultLow then s else s.raiseUmpire []

/-- The limp path is intact (12 R341). -/
def State.limpIntact (s : State) : Bool :=
  let on := s.umpire.latched ||| s.umpire.active
  s.limp.record.isSome &&
  !(on.testBit 38 || on.testBit 57 || on.testBit (16 + s.limp.lane) ||
    s.umpire.latched.testBit (112 + 2 * s.limp.pair) || s.umpire.latched.testBit (113 + 2 * s.limp.pair))

/-! ### Modes and the generation counter (15 R394) -/

/-- A completed transition: mode_changed, the old mode recorded, the generation counter advanced (15 R394). -/
def State.setMode (s : State) (m : Mode) : State :=
  (s.modModes (fun d => { d with mode := m, previous := s.modes.mode.code, generation := d.generation + 1 })).raise sysStatus [0]

/-! ### The sealed indication's validity (13 R360, R361) -/

/-- SMU.STATUS of the present state (13 R372). -/
def Smu.statusWord (u : Smu) : Nat :=
  b2n u.running + 2 * b2n u.indPlaced + 4 * b2n u.indValid + 8 * b2n u.out + 16 * b2n u.verifying + 32 * b2n u.sealOpen +
  64 * b2n u.needsVerification + 128 * b2n u.timeValid + 256 * b2n u.implausible + 512 * b2n u.overrate +
  1024 * b2n u.storageFault + 2048 * b2n (decide (1008 ≤ u.audit.length)) + 4096 * b2n u.fwOk

/-- SMU_EVENT of a kind to smu.requester (13 R370). -/
def State.smuEvent (s : State) (kind : Nat) : State :=
  s.post (s.num 0x7801 5) (eventWord 0x1C 0xF kind 0 s.smu.statusWord)

/-- A change of validity drives SMU_OUT, is counted and posts an SMU event (13 R361). -/
def State.setValidity (s : State) (v : Bool) : State :=
  if s.smu.indValid = v then s
  else ((s.modSmu (fun u => { u with indValid := v, out := !v, passes := 0 })).count 0x680 1).smuEvent 1

/-! ### Stopping (12 R339, R341) -/

/-- Crew, layer, plan and commit state discarded (12 R339, 15 R395): crews at the state of 02 R22, no layers, no commits, no
programs, no backing. -/
def State.discardCrews (s : State) : State :=
  { s.dropObjs 0x4000 0x6800 with
    crews := [], layers := [], commits := [], programs := [], aperture := [],
    regs := s.regs.filter (fun p => decide (p.1 < 0x0200_0000)),
    status := s.status.filter (fun p => decide (p.1 < 0x0200_0000)) }

/-- A lane without anything of its plan: no heat, no commits awaiting presentation, no damage, flat tiles or pins. -/
def Lane.unplanned (l : Lane) : Lane :=
  { l with heat := blankHeat, shown := blankHeat, awaiting := [], damage := [], flat := [], retime := none, porch := false,
           porchExtended := false, porchMaxed := false, porchCaught := false, frameDue := false, teSeen := false, caughtAt := none, groupAt := none, sStart := none,
           commitBusy := false, quietFrames := 0, cameraLock := false, genlockAligned := false, tracking := false,
           wbActive := false, kept := [], porchSince := none, deficit := [], regionPins := [], suspended := [], dsiCmd := none, evaluated := false,
           timing := none, dueGate := false, lost := [], trackOffset := 0 }

/-- A mode transition ends self-refresh: sr_exit is raised, and the port is up again (07 R196). -/
def State.endRefresh (s : State) (n : Nat) : State :=
  if (s.lane n).mode = .selfRefresh then
    (s.modLane n (fun l => { l with mode := .running, link := if l.link = .lowPower then .up else l.link })).raise (laneStatus n) [11]
  else s

/-- A lane stopped at once (12 R339 step 3): its port sends its idle pattern to the end of the line, then is off; its BLPWM is low. -/
def State.stopLane (s0 : State) (n : Nat) : State :=
  let s := s0.endRefresh n
  let off := s.modLane n (fun l => { l.unplanned with mode := .off, link := .off, gated := true, locked := false, blLow := true })
  if (s.lane n).link = .up then (off.send (.portIdle n)).send (.portOff n) else off.send (.portOff n)

/-- The backlight objects of a lane, which keep their settings in LIMP (08 R213). -/
def isBacklight (d key : Nat) : Bool := decide (key / 256 = laneIx d 7) && within 0xD 0xF (key % 256)

/-- Lane d goes to the limp composer (12 R339 step 3, 08 R213, R224): at its timing in effect, or its launch timing where it was off
or retiming; gated and relocked on the watch oscillator unless it runs from it. Its backlight keeps its settings. -/
def State.limpLane (s0 : State) (d : Nat) : State :=
  let s := s0.endRefresh d
  let l := s.lane d
  let s1 := if l.mode = .off ∨ l.mode = .retiming
            then { s with objs := (s.limp.launch.filter (fun p => !isBacklight d p.1)).foldl (fun t p => tabSet t p.1 p.2) s.objs } else s
  let onWatch := decide (l.synthRef = 2) && l.locked && !l.gated
  s1.modLane d (fun k => { k.unplanned with mode := .limp, gated := !onWatch, locked := onWatch, synthRef := 2, sStart := none, blLow := false })

/-- Step 4 of 12 R339: host ports, cameras, mover and utility DMA, shells, cox and network stop. -/
def State.stopUnits (s : State) : State :=
  { s with
    ports := s.ports.map (fun p => (p.1, { p.2 with linkUp := false, l0 := false, crs := false, tags := 0 })),
    slots := s.slots.map (fun p => (p.1, { blankSlot with frames := p.2.frames, fwdFrames := p.2.fwdFrames,
                                                          fwdIncomplete := p.2.fwdIncomplete })),
    channels := s.channels.map (fun p => (p.1, { p.2 with mode := .idle, pending := 0, inFlight := [], managed := none })),
    segments := [], bootQueues := [], keys := [],
    cascade := { s.cascade with forwarded := [] } }

/-- The cascade links' domain turns off: a master sends its leaving marker first (15 R402, 16 R424). -/
def State.stopLinks (s : State) : State :=
  let mark (t : State) (k : Nat) : State :=
    if (t.cascade.links.getD k blankLink).mode = .up ∧ t.cascMaster then t.send (.slkLeaving k) else t
  (mark (mark s 0) 1).modCascade (fun c => { c with links := c.links.map (fun l => { l with mode := .off }) })

/-- Everything that stops in LIMP, with all ports disabled, and for sleep. -/
def State.stopBlocks (s : State) : State := s.stopLinks.stopUnits

/-- The domains that are on in LIMP (15 R402). -/
def limpDomains (pair d : Nat) : Nat := 2 ^ 95 + 2 ^ 94 + 2 ^ 90 + 2 ^ (80 + pair) + 2 ^ (64 + d)

/-- Entry to LIMP after the latch (12 R339, 14 R381): steps 2 to 5 up to the relock of lane d, which restarts with its limp picture. -/
def State.enterLimp (s : State) : State :=
  let d := s.limp.lane
  let s1 := (s.setMode .limp).modSec (fun c => { c with debugOpen := false })
  let s2 := (List.range 8).foldl (fun t n => if n = d then t else t.stopLane n) s1
  let s3 := (s2.limpLane d).stopBlocks.discardCrews
  ((s3.setPower (limpDomains s.limp.pair d)).modLimp
    (fun l => { l with driving := true })).modSmu (fun u => { u with indPlaced := false })

/-- All ports disabled (12 R341, R342): steps 1, 2 and 4 of R339 and every lane stopped; entered in LAUNCH the mode stays LAUNCH. -/
def State.disablePorts (s : State) : State :=
  let s1 := if s.modes.mode = .launch ∨ s.modes.mode = .limp then s else s.setMode .limp
  let s2 := (List.range 8).foldl (fun t n => t.stopLane n) s1
  let s3 := (s2.stopBlocks.discardCrews).modModes (fun m => { m with portsDisabled := true })
  (((s3.setPower (2 ^ 95 + 2 ^ 94 + 2 ^ 90 + 2 ^ (80 + s.limp.pair))).modLimp
    (fun l => { l with driving := false })).modSmu (fun u => { u with indPlaced := false })).modSec
      (fun c => { c with debugOpen := false })

/-- The C3 record, stored only where none is held (12 R344). -/
def State.recordC3 (s : State) (source detail : Nat) (limpEntered : Bool) : State :=
  if s.umpire.c3.isSome then s
  else (s.modUmpire (fun u => { u with c3 := some { source := source, detail := detail, time := s.uptime,
                                                    word := u.latched, limpEntered := limpEntered } })).raise umpireStatus [5]

/-- The reaction of a class at an occurrence that sets the bit (12 R335, R341, R344, 15 R401). DEDUCED (log 44): the C3 record says
that LIMP was entered where this occurrence entered it. -/
def State.react (s : State) (source cls detail : Nat) : State :=
  if cls < 2 then s
  else
    let free := decide (s.modes.mode = .factory)
    let inLimp := decide (s.modes.mode = .limp)
    let enters := !free && !inLimp && !s.modes.portsDisabled && s.limpIntact
    let disables := !free && !s.modes.portsDisabled && !s.limpIntact && (!inLimp || decide (cls = 3))
    let r := if cls = 3 then s.recordC3 source detail enters else s
    if enters then r.enterLimp else if disables then r.disablePorts else r

/-- An occurrence of a source with a class (12 R332, R333): latched, ordered and logged in one cycle, nFAULT, the FAULT event of
an occurrence that sets the bit, then the reaction. The umpire is off in STANDBY, WATCH and reset. -/
def State.occurAs (s : State) (source cls detail : Nat) : State :=
  if !s.awake then s
  else
    let was := s.umpire.latched.testBit source
    let sets := !was || (decide (source = 48) && decide (s.umpire.class48 < cls))
    let entry : LogEntry := { source := source, cls := cls, setBit := sets, detail := detail, time := s.uptime }
    let s1 := s.modUmpire (fun u =>
      { u with latched := u.latched ||| 2 ^ source, occurrences := u.occurrences + 1,
               lastAt := tabSet u.lastAt source (u.occurrences + 1), log := (entry :: u.log).take 16,
               logCount := u.logCount + 1,
               class48 := if source = 48 then (if was then max u.class48 cls else cls) else u.class48 })
    if !sets then s1.followNfault
    else
      let s2 := s1.raiseUmpire [0]
      let s3 := if 1 ≤ cls then s2.postManagers (eventWord 0x19 0xF cls 0 source) else s2
      let s4 := s3.react source cls detail
      if source = 49 then s4.setValidity false else s4

/-- An occurrence of an event line, at its configured class. -/
def State.occur (s : State) (source detail : Nat) : State := s.occurAs source (s.classOf source) detail

/-- A level line becomes active: its rising edge is an occurrence (12 R332). -/
def State.lineOn (s : State) (source detail : Nat) : State :=
  if s.umpire.active.testBit source then s
  else (s.modUmpire (fun u => { u with active := u.active ||| 2 ^ source })).occur source detail

/-- A level line becomes inactive; its latched bit stays (12 R332). -/
def State.lineOff (s : State) (source : Nat) : State :=
  s.modUmpire (fun u => { u with active := u.active &&& ((2 ^ 128 - 1) ^^^ 2 ^ source) })

/-! ### Clearing (12 R337, R338) -/

/-- The sources that a clear may remove: named, class C0 to C2, line inactive, no occurrence after the instant `since`. -/
def State.clearable (s : State) (mask since : Nat) : Nat :=
  (List.range 128).foldl (fun w n =>
    if mask.testBit n && s.umpire.latched.testBit n && decide (s.classOf n ≤ 2) && !s.umpire.active.testBit n &&
       decide (tabGet 0 s.umpire.lastAt n ≤ since)
    then w ||| 2 ^ n else w) 0

/-- A held-back class takes effect at the instant its source is cleared (12 R334). -/
def Umpire.release (u : Umpire) (n : Nat) : Umpire :=
  match tabFind u.heldBack n with
  | some c => { u with classes := tabSet u.classes n c, heldBack := tabErase u.heldBack n }
  | none => u

/-- Sources cleared: `cleared` is raised if there is one, and nFAULT follows. -/
def State.clearSources (s : State) (w : Nat) : State :=
  if w = 0 then s
  else
    let u := { s.umpire with latched := s.umpire.latched &&& ((2 ^ 128 - 1) ^^^ w) }
    let v := (List.range 128).foldl (fun x n => if w.testBit n then x.release n else x) u
    ({ s with umpire := v }).raiseUmpire [1]

end Sys2Proof.Machine
end

