-- ==== Sys2Proof/Machine/Aborts.lean ====
section
/-! DEFINITION. The abort codes of a refusal and the reason codes of a completion item (02 R46, 04 R96). -/

namespace Sys2Proof.Machine

open Sys2Proof

/-- Every refusal carries one of these (02 R46). -/
inductive Abort where
  | protocol | segSequence | segTimeout | segReplaced | segmentRequired | noRoom | cancelled | noObject | noSubindex
  | readOnly | writeOnly | noRight | sealed | securityLocked | typeLength | valueRange | valueConflict | confirmFailed
  | booting | wrongMode | busy | noRecord | quota | oversubscribed | pinInfeasible | nodeAbsent | nodeUnreachable | internal
  deriving DecidableEq, Repr, Inhabited

def Abort.code : Abort → Nat
  | .protocol => 0x0501_0000 | .segSequence => 0x0501_0001 | .segTimeout => 0x0501_0002 | .segReplaced => 0x0501_0003
  | .segmentRequired => 0x0501_0004 | .noRoom => 0x0501_0005 | .cancelled => 0x0501_0006
  | .noObject => 0x0601_0000 | .noSubindex => 0x0601_0001 | .readOnly => 0x0602_0000 | .writeOnly => 0x0602_0001
  | .noRight => 0x0603_0000 | .sealed => 0x0603_0001 | .securityLocked => 0x0603_0002
  | .typeLength => 0x0604_0000 | .valueRange => 0x0604_0001 | .valueConflict => 0x0604_0002 | .confirmFailed => 0x0604_0003
  | .booting => 0x0605_0000 | .wrongMode => 0x0605_0001 | .busy => 0x0605_0002 | .noRecord => 0x0605_0003
  | .quota => 0x0606_0000 | .oversubscribed => 0x0606_0001 | .pinInfeasible => 0x0606_0002
  | .nodeAbsent => 0x0607_0000 | .nodeUnreachable => 0x0607_0001 | .internal => 0x0800_0000

/-- The reason a completion item carries for an abort (04 R96); 0xF for those an item never meets. -/
def Abort.reason : Abort → Nat
  | .valueConflict => 1 | .quota => 2 | .oversubscribed => 3 | .pinInfeasible => 4 | .noRight => 5 | .busy => 6
  | .valueRange => 7 | .noObject => 9 | .noSubindex => 9 | .readOnly => 0xA | .writeOnly => 0xA | .typeLength => 0xB
  | .wrongMode => 0xC | .booting => 0xC | .sealed => 0xD | .securityLocked => 0xD | .nodeAbsent => 0xE
  | .nodeUnreachable => 0xE | _ => 0xF

end Sys2Proof.Machine
end

