-- ==== Sys2Proof/Machine/Curves.lean ====
section
/-! DEFINITION. The transfer curves of 05 R111 and R133 by fixed-point arithmetic with 80 fraction bits, and the tables the cox
builds from them (notes/assumptions/10). -/

namespace Sys2Proof.Machine

open Sys2Proof

/-- One in fixed point. -/
def fxOne : Nat := 2 ^ 80

/-- Square root of a natural number, rounded down: bits from `b` down. -/
def isqrtFrom (v : Nat) : Nat → Nat → Nat
  | 0, r => r
  | b + 1, r => if (r + 2 ^ b) * (r + 2 ^ b) ≤ v then isqrtFrom v b (r + 2 ^ b) else isqrtFrom v b r

/-- Square root of a number below 2^64, rounded down. -/
def isqrt (v : Nat) : Nat := isqrtFrom v 32 0

/-- Rounds a / b to nearest, ties away from zero (05 R107). -/
def roundI (a : Int) (b : Nat) : Int :=
  if 0 ≤ a then ((2 * a.natAbs + b) / (2 * b) : Nat) else -((2 * a.natAbs + b) / (2 * b) : Nat)

/-- 2 × artanh(y) for y in fixed point below 1/2: terms y^(2i+1) / (2i+1). -/
def artanhSum (y2 : Int) : Nat → Nat → Int → Int
  | 0, _, _ => 0
  | k + 1, i, p => p / ((2 * i + 1 : Nat) : Int) + artanhSum y2 k (i + 1) (p * y2 / fxOne)

/-- Natural logarithm of m / 2^80 for m between 1/2 and 2. -/
def fxLnUnit (m : Nat) : Int :=
  let y : Int := ((m : Int) - fxOne) * fxOne / ((m : Int) + fxOne)
  2 * artanhSum (y * y / fxOne) 60 0 y

/-- ln 2. -/
def fxLn2 : Int := 2 * artanhSum (fxOne / 9) 60 0 (fxOne / 3)

/-- Natural logarithm of a positive fixed-point number. -/
def fxLn (x : Nat) : Int :=
  let e := Nat.log2 x
  fxLnUnit (if 80 ≤ e then x / 2 ^ (e - 80) else x * 2 ^ (80 - e)) + ((e : Int) - 80) * fxLn2

/-- Terms r^i / i! of the exponential. -/
def expSum (r : Int) : Nat → Nat → Int → Int
  | 0, _, _ => 0
  | k + 1, i, p => p + expSum r k (i + 1) (p * r / fxOne / ((i + 1 : Nat) : Int))

/-- The exponential of a fixed-point number; arguments below −80 ln 2 give 0. -/
def fxExp (t : Int) : Nat :=
  let k := t / fxLn2
  let r := t - k * fxLn2
  let m := (expSum r 40 0 fxOne).toNat
  if 0 ≤ k then m * 2 ^ k.toNat else m / 2 ^ (-k).toNat

/-- x^(n / d); 0 at 0. -/
def fxPow (x n d : Nat) : Nat := if x = 0 then 0 else fxExp (fxLn x * (n : Int) / (d : Int))

/-- π in fixed point. -/
def fxPi : Nat := 3797952473636338580787993

/-- Terms of the sine's series: `t2` is the square of the angle. -/
def sinSum (t2 : Int) : Nat → Nat → Int → Int
  | 0, _, _ => 0
  | k + 1, i, p => p + sinSum t2 k (i + 1) (-(p * t2 / fxOne / (((2 * i + 2) * (2 * i + 3) : Nat) : Int)))

/-- sin(π a / b) / (π a / b) in fixed point. -/
def fxSinc (a b : Nat) : Int :=
  if a = 0 then fxOne
  else
    let m := a % (2 * b)
    let q : Int := if b < m then (m : Int) - (2 * b : Nat) else m
    let t := q * fxPi / (b : Int)
    sinSum (t * t / fxOne) 30 0 t * fxOne * (b : Int) / ((fxPi * a : Nat) : Int)

/-- A ratio in fixed point. -/
def fx (a b : Nat) : Nat := a * fxOne / b

def fxMul (a b : Nat) : Nat := a * b / fxOne
def fxDiv (a b : Nat) : Nat := a * fxOne / b

/-- IEC 61966-2-1 to linear light. -/
def srgbToLinear (e : Nat) : Nat :=
  if e ≤ fx 4045 100000 then fxDiv e (fx 1292 100) else fxPow (fxDiv (e + fx 55 1000) (fx 1055 1000)) 12 5

/-- IEC 61966-2-1 from linear light. -/
def linearToSrgb (x : Nat) : Nat :=
  if x ≤ fx 31308 10000000 then fxMul x (fx 1292 100) else fxMul (fx 1055 1000) (fxPow x 5 12) - fx 55 1000

/-- BT.1886 with zero black level: e^2.4. -/
def bt1886 (e : Nat) : Nat := fxPow e 12 5

/-- The ST 2084 EOTF in cd/m². -/
def pqToLight (e : Nat) : Nat :=
  let p := fxPow e 32 2523
  let num := p - fx 3424 4096
  let den := fx (2413 * 32) 4096 - fxMul (fx (2392 * 32) 4096) p
  10000 * fxPow (fxDiv num den) 16384 2610

/-- The ST 2084 inverse EOTF of a luminance in cd/m². -/
def lightToPq (l : Nat) : Nat :=
  let y := fxPow (l / 10000) 2610 16384
  let num := fx 3424 4096 + fxMul (fx (2413 * 32) 4096) y
  let den := fxOne + fxMul (fx (2392 * 32) 4096) y
  fxPow (fxDiv num den) 2523 32

/-- The BT.2100 inverse OETF of HLG (scene light). -/
def hlgToScene (e : Nat) : Nat :=
  if e ≤ fxOne / 2 then fxMul e e / 3
  else (fxExp ((((e : Int) - (fx 55991073 100000000 : Nat)) * fxOne) / (fx 17883277 100000000 : Nat)) +
        fx 28466892 100000000) / 12

/-- A fixed-point value as U1.19, rounded and saturated (05 R107). -/
def toU119 (x : Nat) : Nat := min 0xF_FFFF ((2 * x * 2 ^ 19 + fxOne) / (2 * fxOne))

/-- Entry k of the linearisation table L: transfer code, YUV-type source, white level (05 R111). -/
def linearEntry (transfer : Nat) (yuv : Bool) (w k : Nat) : Nat :=
  let e := fx k 1024
  match transfer with
  | 0 => toU119 (if yuv then bt1886 e else srgbToLinear e)
  | 1 => toU119 (pqToLight e / w)
  | _ => toU119 (hlgToScene e)

/-- Entry k of the panel table T, the encoded value of k² / 16 (05 R133). -/
def panelEntry (transfer gamma w k : Nat) : Nat :=
  let x := fx (k * k) (16 * 2 ^ 19)
  let one := min x fxOne
  match transfer with
  | 0 => toU119 (fxPow one 1000 gamma)
  | 1 => toU119 (linearToSrgb one)
  | 2 => min 0x8_0000 (toU119 (lightToPq (x * w)))
  | _ => toU119 one

end Sys2Proof.Machine
end

