-- ==== Sys2Proof/Machine/Geometry.lean ====
section
/-! DEFINITION. Lanes, streams, layers, tiles and stacks as the objects of a configuration give them (04 R72 to R81, R98, R99,
05 R101, R103, R105, R118, R125, 07 R198). A configuration is a state whose objects hold it. -/

namespace Sys2Proof.Machine

open Sys2Proof

/-- A rectangle with exclusive ends, in lane pixels. -/
structure Rect where
  x0 : Int
  y0 : Int
  x1 : Int
  y1 : Int
  deriving DecidableEq, Repr, Inhabited

def Rect.nonempty (r : Rect) : Bool := decide (r.x0 < r.x1) && decide (r.y0 < r.y1)

def Rect.inter (a b : Rect) : Rect :=
  { x0 := max a.x0 b.x0, y0 := max a.y0 b.y0, x1 := min a.x1 b.x1, y1 := min a.y1 b.y1 }

def Rect.hull (a b : Rect) : Rect :=
  { x0 := min a.x0 b.x0, y0 := min a.y0 b.y0, x1 := max a.x1 b.x1, y1 := max a.y1 b.y1 }

def Rect.inside (a b : Rect) : Bool :=
  decide (b.x0 ≤ a.x0) && decide (b.y0 ≤ a.y0) && decide (a.x1 ≤ b.x1) && decide (a.y1 ≤ b.y1)

def Rect.has (r : Rect) (x y : Int) : Bool :=
  decide (r.x0 ≤ x) && decide (x < r.x1) && decide (r.y0 ≤ y) && decide (y < r.y1)

/-- The pixels of a rectangle. -/
def Rect.area (r : Rect) : Nat := if r.nonempty then ((r.x1 - r.x0) * (r.y1 - r.y0)).toNat else 0

/-- A rectangle encoded as crew.clip_rect (02 R25). -/
def rectOf (v : Nat) : Rect :=
  { x0 := bits v 15 0, y0 := bits v 31 16, x1 := bits v 47 32, y1 := bits v 63 48 }

/-! ### Lanes (07 R198) -/

def State.laneNum (s : State) (n b sub : Nat) : Nat := s.num (laneIx n b) sub
def State.laneW (s : State) (n : Nat) : Nat := s.laneNum n 1 1
def State.laneH (s : State) (n : Nat) : Nat := s.laneNum n 1 5
def State.laneOn (s : State) (n : Nat) : Bool := decide (s.laneNum n 0 5 = 1)

/-- A timing object of a lane as the frame in progress began with it (07 R191); before a first frame, the one in effect. -/
def State.frameNum (s : State) (n b sub : Nat) : Nat :=
  match (s.lane n).timing with
  | some t => valNat (tabGet (objBlank (laneIx n b) sub) t (objKey (laneIx n b) sub))
  | none => s.laneNum n b sub

/-- The lane is a member of a genlock group: of its device, or of the cascade's (07 R187, 16 R417). -/
def State.genlocked (s : State) (n : Nat) : Bool := decide (s.laneNum n 6 1 ≠ 0) || decide (s.laneNum n 6 2 = 1)

/-- Camera lock is set for a lane. -/
def State.leadSet (s : State) (n : Nat) : Bool := decide (s.laneNum n 2 2 = 1)

/-- Lead discipline: a camera-locked lane (01 R18, 07 R176), once the lock is in effect (15 R397). -/
def State.lead (s : State) (n : Nat) : Bool := s.leadSet n && !(s.lane n).lockOff
def State.lockStream (s : State) (n : Nat) : Nat := s.laneNum n 2 3

/-- The lane's active area. -/
def State.active (s : State) (n : Nat) : Rect := { x0 := 0, y0 := 0, x1 := s.laneW n, y1 := s.laneH n }

/-- The minimum vertical total. -/
def State.vTotal (s : State) (n : Nat) : Nat := s.laneH n + s.laneNum n 2 4

def State.tileCols (s : State) (n : Nat) : Nat := (s.laneW n + 63) / 64
def State.tileRows (s : State) (n : Nat) : Nat := (s.laneH n + 31) / 32

/-- Tile keys are row × 256 + column (05 R101). -/
def tileKey (c r : Nat) : Nat := r * 256 + c

/-- A tile's rectangle, clipped to the active area (05 R101). -/
def State.tileRect (s : State) (n t : Nat) : Rect :=
  Rect.inter { x0 := 64 * (t % 256 : Nat), y0 := 32 * (t / 256 : Nat),
               x1 := 64 * (t % 256 : Nat) + 64, y1 := 32 * (t / 256 : Nat) + 32 } (s.active n)

/-- Every tile of the lane, row by row. -/
def State.allTiles (s : State) (n : Nat) : List Nat :=
  (List.range (s.tileRows n)).flatMap (fun r => (List.range (s.tileCols n)).map (fun c => tileKey c r))

/-- The tiles that a rectangle intersects. -/
def State.tilesIn (s : State) (n : Nat) (r : Rect) : List Nat :=
  (s.allTiles n).filter (fun t => (r.inter (s.tileRect n t)).nonempty)

/-- The active lines of a tile row. -/
def State.rowLines (s : State) (n r : Nat) : Nat := min 32 (s.laneH n - 32 * r)

/-- A lane's line time in ns, rounded down; 0 where no timing is set. -/
def State.lineNs (s : State) (n : Nat) : Nat := s.laneNum n 1 4 * 1000000000 / s.laneNum n 1 8

/-- The boathouse offset of a lane's frame: 4 KiB-aligned, the cox's choice (07 R174). -/
def State.frameBase (s : State) (n : Nat) : Nat := Config.frameBase n s.placement.generation % 2 ^ 17 * 4096

/-- Bytes of a stored line (07 R174). -/
def State.frameStride (s : State) (n : Nat) : Nat := (s.laneW n + 63) / 64 * 256

/-- The boathouse offset of a lane's pixel (07 R174). -/
def State.pixelOffset (s : State) (n x y : Nat) : Nat := s.frameBase n + y * s.frameStride n + 4 * x

/-- The channel of a device address, in either memory (07 R172, 11 R308). -/
def channelAt (a : Nat) : Nat := bits a 10 8

/-! ### Camera streams (09 R234, R252). Slots are numbered port × 4 + slot. -/

def State.slotNum (s : State) (k sub : Nat) : Nat := s.num (camIx (k / 4) (0x10 + k % 4)) sub

/-- The enabled slot that carries a stream. -/
def State.slotOf (s : State) (stream : Nat) : Option Nat :=
  (List.range 32).find? (fun k => decide (s.slotNum k 6 = 1) && decide (s.slotNum k 1 = stream))

def State.streamW (s : State) (k : Nat) : Nat := s.slotNum k 4 % 2 ^ 16
def State.streamH (s : State) (k : Nat) : Nat := s.slotNum k 4 / 2 ^ 16

/-- Ring bytes per sample: 2, or 4 for RAW20 (06 R145). -/
def State.ringBytes (s : State) (k : Nat) : Nat := if s.slotNum k 3 = 0x33 then 4 else 2

/-- The bytes of one ring line: whole 256-byte segments (09 R241). -/
def State.ringLine (s : State) (k : Nat) : Nat := (s.streamW k * s.ringBytes k + 255) / 256 * 256

/-! ### Layers (04 R78) -/

def State.lyr (s : State) (l sub : Nat) : Nat := s.num (layerIx l) sub

/-- The size of a layer's source in samples: a camera's configured size, else layer.src_size (04 R75). -/
def State.srcSize (s : State) (l : Nat) : Nat × Nat :=
  if s.lyr l 6 = 2 then
    match s.slotOf (s.lyr l 0x18) with
    | some k => (s.streamW k, s.streamH k)
    | none => (0, 0)
  else (s.lyr l 0xE % 2 ^ 16, s.lyr l 0xE / 2 ^ 16)

/-- The crop: x, y, w, h; a crop size of 0 is the whole surface (04 R75). -/
def State.crop (s : State) (l : Nat) : Nat × Nat × Nat × Nat :=
  let c := s.lyr l 0x10
  if c = 0 then (s.lyr l 0xF % 2 ^ 16, s.lyr l 0xF / 2 ^ 16, (s.srcSize l).1, (s.srcSize l).2)
  else (s.lyr l 0xF % 2 ^ 16, s.lyr l 0xF / 2 ^ 16, c % 2 ^ 16, c / 2 ^ 16)

/-- The destination size: layer.dst_size, or the crop size where it is 0 (04 R78). -/
def State.dstSize (s : State) (l : Nat) : Nat × Nat :=
  let d := s.lyr l 0x13
  if d = 0 then ((s.crop l).2.2.1, (s.crop l).2.2.2) else (d % 2 ^ 16, d / 2 ^ 16)

def State.dstX (s : State) (l : Nat) : Int := signedOf 32 (s.lyr l 0x11)
def State.dstY (s : State) (l : Nat) : Int := signedOf 32 (s.lyr l 0x12)

/-- The destination rectangle. -/
def State.dstRect (s : State) (l : Nat) : Rect :=
  { x0 := s.dstX l, y0 := s.dstY l, x1 := s.dstX l + (s.dstSize l).1, y1 := s.dstY l + (s.dstSize l).2 }

/-- A layer is scaled where destination and crop size differ (05 R114). -/
def State.scaled (s : State) (l : Nat) : Bool :=
  !(decide ((s.dstSize l).1 = (s.crop l).2.2.1) && decide ((s.dstSize l).2 = (s.crop l).2.2.2))

def State.safety (s : State) (l : Nat) : Bool := decide (s.lyr l 3 = 0)

/-- The program a layer runs through: none for SAFETY layers, which ignore layer.program (04 R99). -/
def State.layerProgram (s : State) (l : Nat) : Option Nat :=
  if s.safety l ∨ s.lyr l 0x1C = 0 then none
  else if (s.program (s.lyr l 0x1C)).inEffect ∧ (s.program (s.lyr l 0x1C)).lane = s.lyr l 2 then some (s.lyr l 0x1C) else none

/-- The layers shown on a lane: given to a crew, source not off, in the order of 04 R98. -/
def State.layersOn (s : State) (n : Nat) : List Nat :=
  let ls := (s.layers.filter (fun p => p.2.owner.isSome && decide (s.lyr p.1 6 ≠ 0) && decide (s.lyr p.1 2 = n))).map Prod.fst
  sortBy (fun a b => decide (s.lyr a 4 < s.lyr b 4) || (decide (s.lyr a 4 = s.lyr b 4) && decide (a ≤ b))) ls

/-- A program's region, encoded in its PROGRAM_SET word (05 R122). -/
def Program.rect (p : Program) : Rect :=
  { x0 := bits p.region 13 0, y0 := bits p.region 27 14, x1 := bits p.region 41 28, y1 := bits p.region 55 42 }

/-- The rectangle in which a layer shows: its destination, or its program's region (05 R105, R125). -/
def State.footprint (s : State) (l : Nat) : Rect :=
  match s.layerProgram l with
  | some h => (s.program h).rect
  | none => s.dstRect l

/-- The lane pixels that a layer can change, clipped to the active area. -/
def State.shown (s : State) (n l : Nat) : Rect := (s.footprint l).inter (s.active n)

/-- Where a layer shows unscaled: its crop at its destination position (05 R124, LOAD). -/
def State.copyRect (s : State) (l : Nat) : Rect :=
  { x0 := s.dstX l, y0 := s.dstY l, x1 := s.dstX l + (s.crop l).2.2.1, y1 := s.dstY l + (s.crop l).2.2.2 }

/-- The layers that cover a tile, in order. -/
def State.covering (s : State) (n t : Nat) : List Nat :=
  (s.layersOn n).filter (fun l => ((s.footprint l).inter (s.tileRect n t)).nonempty)

/-- The sealed indication covers a tile (13 R358, R360). -/
def State.indCovers (s : State) (n t : Nat) : Bool :=
  s.smu.indPlaced && decide (s.num 0x7801 6 = n) && ((rectOf (s.num 0x7801 7)).inter (s.tileRect n t)).nonempty

/-- One entry of a tile's normal stack: a layer, or a program with its slots (05 R125). -/
inductive Elem where
  | layer (l : Nat)
  | program (h : Nat) (slots : List Nat)
  deriving DecidableEq, Repr, Inhabited

/-- The slots of a program: the layers on its lane that name it, in order (05 R125). -/
def State.slotsOf (s : State) (n h : Nat) : List Nat := (s.layersOn n).filter (fun l => decide (s.layerProgram l = some h))

/-- The normal stack of a tile, bottom up: a program stands at the place of its slot 0 (05 R125). -/
def State.stack (s : State) (n t : Nat) : List Elem :=
  ((s.covering n t).filter (fun l => !s.safety l)).foldl (fun acc l =>
    match s.layerProgram l with
    | none => acc ++ [.layer l]
    | some h => if acc.any (fun e => match e with | .program k _ => decide (k = h) | .layer _ => false) then acc
                else acc ++ [.program h (s.slotsOf n h)]) []

/-- The SAFETY layers of a tile, bottom up. -/
def State.safetyOf (s : State) (n t : Nat) : List Nat := (s.covering n t).filter (fun l => s.safety l)

/-- How many layers a tile counts (05 R118): a program counts as its slots. -/
def State.tileLayers (s : State) (n t : Nat) : Nat :=
  ((s.stack n t).map (fun e => match e with | .layer _ => 1 | .program _ k => k.length)).sum + (s.safetyOf n t).length

/-- A RAW camera source (05 R103). -/
def State.rawSource (s : State) (l : Nat) : Bool := decide (s.lyr l 6 = 2)

/-- Fields of a program step word (05 R124). -/
def stepOp (w : Nat) : Nat := bits w 63 58
def stepDst (w : Nat) : Nat := bits w 57 56
def stepA (w : Nat) : Nat := bits w 55 54
def stepB (w : Nat) : Nat := bits w 53 52
def stepSlot (w : Nat) : Nat := bits w 51 48

/-- Clocks of one layer (05 R103). -/
def State.layerClocks (s : State) (l : Nat) : Nat :=
  (if s.scaled l then 1024 else 512) + (if s.rawSource l then 1024 else 0)

/-- Clocks of one program step (05 R103). -/
def State.stepClocks (s : State) (slots : List Nat) (w : Nat) : Nat :=
  let raw := if (slots[stepSlot w]?).any (fun l => s.rawSource l) then 1024 else 0
  match stepOp w with
  | 1 => 512 + raw
  | 2 => 1024 + raw
  | 3 => 2048 + raw
  | _ => 512

/-- Blade clocks of a tile's full stack without flat-tile credit (05 R103, 06 R149); the sealed indication counts as one
unscaled layer (notes/assumptions/9). -/
def State.tileCost (s : State) (n t : Nat) : Nat :=
  640 + ((s.stack n t).map (fun e => match e with
          | .layer l => s.layerClocks l
          | .program h slots => ((s.program h).steps.map (s.stepClocks slots)).sum)).sum +
    ((s.safetyOf n t).map s.layerClocks).sum +
    (if s.indCovers n t then 512 else 0) +
    (if 16 < s.tileLayers n t then 1024 else 0)

/-! ### Damage (04 R81, 05 R105) -/

/-- Integer ceiling division of a non-negative product. -/
def ceilDiv (a b : Nat) : Nat := (a + b - 1) / b

/-- A source rectangle taken to the lane: clipped to the crop, mapped, widened by the scaler's reach and by the two lines of the demosaic,
clipped to the destination (05 R105, 09 R240). -/
def State.mapDamage (s : State) (n l : Nat) (q : Nat × Nat × Nat × Nat) : Rect :=
  match s.layerProgram l with
  | some h => ((s.program h).rect).inter (s.active n)
  | none =>
    let (cx, cy, cw, ch) := s.crop l
    let (dw, dh) := s.dstSize l
    let x0 := max q.1 cx; let y0 := max q.2.1 cy
    let x1 := min q.2.2.1 (cx + cw); let y1 := min q.2.2.2 (cy + ch)
    if x1 ≤ x0 ∨ y1 ≤ y0 then { x0 := 0, y0 := 0, x1 := 0, y1 := 0 }
    else
      let wx : Int := if s.scaled l then (ceilDiv (4 * dw) cw : Nat) else 0
      let raw := if s.rawSource l then ceilDiv (2 * dh) ch else 0
      let wy : Int := (((if s.scaled l then ceilDiv (3 * dh) ch else 0) + raw : Nat) : Int)
      let r : Rect := { x0 := s.dstX l + ((x0 - cx) * dw / cw : Nat) - wx, y0 := s.dstY l + ((y0 - cy) * dh / ch : Nat) - wy,
                        x1 := s.dstX l + (ceilDiv ((x1 - cx) * dw) cw : Nat) + wx,
                        y1 := s.dstY l + (ceilDiv ((y1 - cy) * dh) ch : Nat) + wy }
      (r.inter (s.dstRect l)).inter (s.active n)

/-- The damage of a change of a layer's parameters: its whole footprint (04 R81, 05 R105). -/
def State.wholeDamage (s : State) (n l : Nat) : Rect := s.shown n l

/-- Adds a rectangle to a layer's staged rectangles; a seventeenth replaces them all by their hull (04 R81). -/
def addDamage (rs : List (Nat × Nat × Nat × Nat)) (q : Nat × Nat × Nat × Nat) : List (Nat × Nat × Nat × Nat) :=
  if rs.length < 16 then rs ++ [q]
  else [rs.foldl (fun a b => (min a.1 b.1, min a.2.1 b.2.1, max a.2.2.1 b.2.2.1, max a.2.2.2 b.2.2.2)) q]

/-- A layer.damage value as a rectangle of surface coordinates. -/
def damageRect (v : Nat) : Nat × Nat × Nat × Nat := (bits v 15 0, bits v 31 16, bits v 47 32, bits v 63 48)

end Sys2Proof.Machine
end

