-- ==== Sys2Proof/Machine/Plan.lean ====
section
/-! DEFINITION. The plan: placement, rings, rated capacities, demand and the admission rule (06 R141 to R157, 04 R73).
Rates are exact rationals. -/

namespace Sys2Proof.Machine

open Sys2Proof

/-! ### Rates (06 R149) -/

/-- The camera rate of a slot in frames per second (09 R234: units of 0.01 Hz). -/
def State.camRate (s : State) (k : Nat) : Rat := (s.slotNum k 5 : Rat) / 100

/-- f_n: the frame rate of a lane; a camera-locked lane's is its camera's configured rate (06 R149). -/
def State.fps (s : State) (n : Nat) : Rat :=
  if s.leadSet n then
    match s.slotOf (s.lockStream n) with
    | some k => s.camRate k
    | none => 0
  else (s.laneNum n 1 8 : Rat) / ((s.laneNum n 1 4 * s.vTotal n : Nat) : Rat)

/-- The rates r_S, r_C, r_P, r_L of a tile (06 R149). -/
def State.tileRates (s : State) (n t : Nat) : Rat × Rat × Rat × Rat :=
  let f := s.fps n
  let cov := s.covering n t
  let rS := if cov.any s.safety || s.indCovers n t then f else 0
  let cam := cov.foldl (fun m l =>
    if s.lyr l 6 = 2 then
      match s.slotOf (s.lyr l 0x18) with
      | some k => max m (s.camRate k)
      | none => m
    else m) (0 : Rat)
  let rC := min (f - rS) cam
  let per := cov.foldl (fun m l =>
    if s.lyr l 3 = 2 ∨ s.lyr l 3 = 3 then m + min f ((s.lyr l 0x19 : Rat) / 100) else m) (0 : Rat)
  let rP := min (f - rS - rC) per
  let rL := if s.leadSet n then f - rS - rC - rP else 0
  (rS, rC, rP, rL)

/-- The charged rate of one layer for its prefetch copies: SAFETY at the lane's rate, PERIODIC at layer.rate, STILL none. -/
def State.layerRate (s : State) (n l : Nat) : Rat :=
  match s.lyr l 3 with
  | 0 => s.fps n
  | 2 => min (s.fps n) ((s.lyr l 0x19 : Rat) / 100)
  | 3 => min (s.fps n) ((s.lyr l 0x19 : Rat) / 100)
  | _ => 0

/-! ### Surfaces (04 R72 to R75) -/

/-- Bits per pixel over all planes, in eighths of a byte (06 R150); RAW by the ring. -/
def formatBits (f : Nat) : Nat :=
  match f with
  | 0x01 => 32 | 0x02 => 32 | 0x03 => 32 | 0x04 => 16 | 0x05 => 64 | 0x10 => 12 | 0x11 => 16 | 0x12 => 24 | 0x13 => 32
  | 0x14 => 12 | 0x15 => 16 | 0x20 => 8 | 0x21 => 8 | 0x22 => 8 | 0x23 => 1 | _ => 0

/-- b of a layer (06 R150): camera sources by the ring bytes; a fill reads nothing. -/
def State.layerBits (s : State) (l : Nat) : Nat :=
  match s.lyr l 6 with
  | 1 => formatBits (s.lyr l 7)
  | 2 => match s.slotOf (s.lyr l 0x18) with
         | some k => 8 * s.ringBytes k
         | none => 16
  | _ => 0

/-- Bytes per line of plane 0 at width w (04 R74). -/
def lineBytes0 (f w : Nat) : Nat :=
  match f with
  | 0x01 => 4 * w | 0x02 => 4 * w | 0x03 => 4 * w | 0x04 => 2 * w | 0x05 => 8 * w | 0x10 => w | 0x11 => w | 0x12 => 2 * w
  | 0x13 => 2 * w | 0x14 => w | 0x15 => 2 * w | 0x20 => w | 0x21 => w | 0x22 => w | 0x23 => (w + 7) / 8 | _ => 0

/-- Bytes per line of planes 1 and 2 (04 R74). -/
def lineBytes12 (f w : Nat) : Nat :=
  match f with
  | 0x10 => w | 0x11 => w | 0x12 => 2 * w | 0x13 => 2 * w | 0x14 => w / 2 | _ => 0

/-- Planes of a format, and the lines of planes 1 and 2 (04 R74). -/
def planesOf (f : Nat) : Nat :=
  match f with
  | 0x10 => 2 | 0x11 => 2 | 0x12 => 2 | 0x13 => 2 | 0x14 => 3 | _ => 1

/-- Formats whose chroma planes have half the lines (04 R74). -/
def subY (f : Nat) : Bool := decide (f = 0x10 ∨ f = 0x12 ∨ f = 0x14)

def chromaLines (f h : Nat) : Nat := if f = 0x11 ∨ f = 0x13 then h else h / 2

/-- The byte ranges a surface layer reads: plane starts with their lengths, and the palette (04 R74, R75). -/
def State.planes (s : State) (l : Nat) : List (Nat × Nat) :=
  let f := s.lyr l 7
  let (w, h) := s.srcSize l
  let a := s.lyr l 9
  let plane (base stride line lines : Nat) : Nat × Nat := (base, if lines = 0 then 0 else stride * (lines - 1) + line)
  [plane a (s.lyr l 0xC) (lineBytes0 f w) h] ++
  (if 2 ≤ planesOf f then [plane (a + s.lyr l 0xA) (s.lyr l 0xD) (lineBytes12 f w) (chromaLines f h)] else []) ++
  (if 3 ≤ planesOf f then [plane (a + s.lyr l 0xB) (s.lyr l 0xD) (lineBytes12 f w) (chromaLines f h)] else []) ++
  (if f = 0x21 then [(s.lyr l 0x1A, 1024)] else [])

/-- The bytes of storage of a surface. -/
def State.surfaceBytes (s : State) (l : Nat) : Nat := ((s.planes l).map Prod.snd).sum

/-- Whether two layers use the same surface storage (04 R72). -/
def State.sameSurface (s : State) (a b : Nat) : Bool :=
  decide ((s.layer a).owner = (s.layer b).owner) && decide (s.lyr a 8 = s.lyr b 8) && decide (s.lyr a 9 = s.lyr b 9)

/-- Every layer that shows a surface on an enabled lane, in ascending number. -/
def State.surfaceUsers (s : State) : List Nat :=
  (s.layers.filter (fun p => p.2.owner.isSome && decide (s.lyr p.1 6 = 1) && s.laneOn (s.lyr p.1 2))).map Prod.fst

/-- One layer, the lowest, for each surface storage in use. -/
def State.surfaceLayers (s : State) : List Nat :=
  s.surfaceUsers.foldl (fun acc l => if acc.any (fun k => s.sameSurface k l) then acc else acc ++ [l]) []

/-- The layers that use the storage of a layer's surface (04 R72). -/
def State.sharers (s : State) (l : Nat) : List Nat := s.surfaceUsers.filter (fun k => s.sameSurface k l)

/-- The bytes of a storage: those of the largest surface in it. -/
def State.storageBytes (s : State) (l : Nat) : Nat := (s.sharers l).foldl (fun m k => max m (s.surfaceBytes k)) (s.surfaceBytes l)

/-- The surface pin of a storage: of the first of its layers that has one (06 R155). -/
def State.storagePin (s : State) (l : Nat) : Option Nat := (s.sharers l).findSome? (fun k => (s.layer k).surfacePin)

/-- Step 4 of 06 R143 places a storage: a layer of it is pinned to the boathouse, or is a SAFETY layer without a pin. -/
def State.placedFirst (s : State) (l : Nat) : Bool :=
  (s.sharers l).any (fun k => decide ((s.layer k).surfacePin = some 0) || (s.safety k && (s.layer k).surfacePin.isNone))

/-! ### Rings (06 R145) -/

def State.enabledSlots (s : State) : List Nat := (List.range 32).filter (fun k => decide (s.slotNum k 6 = 1))

/-- The lanes that show a stream through a layer. -/
def State.showsStream (s : State) (n stream : Nat) : Bool :=
  (s.layersOn n).any (fun l => decide (s.lyr l 6 = 2) && decide (s.lyr l 0x18 = stream))

/-- A stream has a line ring: it is the lock stream of a camera-locked lane (06 R145). -/
def State.lineRing (s : State) (k : Nat) : Bool :=
  (List.range 8).any (fun n => s.laneOn n && s.leadSet n && decide (s.lockStream n = s.slotNum k 1))

/-- Forwarding of a slot is enabled (09 R245, R252). -/
def State.fwdOn (s : State) (k : Nat) : Bool := decide (s.num (camIx (k / 4) (0x30 + k % 4)) 1 = 1)

/-- The frames of a stream's frame ring: 3 where a chase lane, or a camera-locked lane of another stream, shows it; 2 where it
is only forwarded; 0 where it has none (06 R145). -/
def State.frameRing (s : State) (k : Nat) : Nat :=
  let shown := (List.range 8).any (fun n =>
    s.laneOn n && s.showsStream n (s.slotNum k 1) && !(s.lead n && decide (s.lockStream n = s.slotNum k 1)))
  if shown then 3 else if s.lineRing k then 0 else if s.fwdOn k then 2 else 0

/-- LP5X holds a backing, a frame ring or a pinned surface (15 R403). -/
def State.lp5Needed (s : State) : Bool :=
  s.crews.any (fun p => decide (p.2.granules ≠ [])) || s.enabledSlots.any (fun k => decide (s.frameRing k ≠ 0)) ||
  s.layers.any (fun p => decide (p.2.surfacePin = some 1))

/-- LP5X is turned on before it is needed (15 R403); `g` is the configuration that comes. -/
def State.lp5Wake (s g : State) : State := if g.lp5Needed then s.lp5Up else s

/-! ### Boathouse (06 R143, R153) and backing (04 R73) -/

def mib : Nat := 1048576

/-- The bytes of steps 1 to 4 of 06 R143. -/
def State.mandatory (s : State) : Nat :=
  ((List.range 8).map (fun n => if s.laneOn n then s.frameStride n * s.laneH n else 0)).sum + 16 * mib +
  (s.enabledSlots.map (fun k => if s.lineRing k then 128 * s.ringLine k else 0)).sum +
  (s.surfaceLayers.map (fun l => if s.placedFirst l then s.storageBytes l else 0)).sum

/-- Installed LP5X capacity less check bytes and camera frame rings (04 R73). -/
def State.lp5Free (s : State) : Nat :=
  (if s.placement.lp5Ecc then s.placement.lp5Bytes / 8 * 7 else s.placement.lp5Bytes) -
  (s.enabledSlots.map (fun k => s.frameRing k * s.streamH k * s.ringLine k)).sum

/-- The backing capacity (04 R73). -/
def State.backingCapacity (s : State) : Nat := (512 * mib - s.mandatory) + s.lp5Free

/-- The granules an aperture range touches (04 R73). -/
def granulesOf (start len : Nat) : List Nat :=
  if len = 0 then [] else (List.range ((start + len - 1) / (2 * mib) - start / (2 * mib) + 1)).map (· + start / (2 * mib))

/-- The granules that the layers in effect make the device read, crew by crew: (crew, granule). -/
def State.readGranules (s : State) : List (Nat × Nat) :=
  (s.layers.filter (fun p => p.2.owner.isSome && decide (s.lyr p.1 6 = 1) && decide (s.lyr p.1 8 = 0))).flatMap (fun p =>
    ((s.planes p.1).flatMap (fun q => granulesOf q.1 q.2)).map (fun g => (p.2.owner.getD 0, g)))

/-- Granules backed for one crew, with those of a list added. -/
def addGranules (gs : List Nat) (new : List Nat) : List Nat :=
  new.foldl (fun acc g => if acc.contains g then acc else acc ++ [g]) gs

/-- The backed granules of all crews with the layers' own counted in. -/
def State.backedCount (s : State) : Nat :=
  let cs := (List.range 512)
  (cs.map (fun c =>
    (addGranules (s.crew c).granules ((s.readGranules.filter (fun p => decide (p.1 = c))).map Prod.snd)).length)).sum

/-! ### Residence (06 R143, R144) -/

/-- The charged read bytes of one tile of a layer (06 R150), in bytes; program layers by their steps. -/
def State.tileInput (s : State) (l : Nat) : Nat :=
  let b := s.layerBits l
  let pal := if s.lyr l 6 = 1 ∧ s.lyr l 7 = 0x21 then 1024 else 0
  let (_, _, cw, ch) := s.crop l
  let (dw, dh) := s.dstSize l
  let scaledBytes := ceilDiv ((ceilDiv (64 * cw) dw + 7) * (ceilDiv (32 * ch) dh + 5) * b) 8
  if b = 0 then 0
  else pal +
    (match s.layerProgram l with
     | none => if s.scaled l then scaledBytes else 256 * b
     | some h =>
       let slots := s.slotsOf (s.lyr l 2) h
       ((s.program h).steps.map (fun w =>
         if slots[stepSlot w]? = some l then
           (match stepOp w with
            | 1 => 256 * b
            | 2 => scaledBytes
            | 3 => 1024 * b
            | _ => 0) else 0)).sum)

/-- The charged read rate of a surface's storage, all layers that use it together. -/
def State.readRate (s : State) (l : Nat) : Rat :=
  (s.layers.filter (fun p => p.2.owner.isSome && decide (s.lyr p.1 6 = 1) && s.sameSurface p.1 l)).foldl (fun m p =>
    let n := s.lyr p.1 2
    m + ((s.tilesIn n (s.shown n p.1)).foldl (fun q t =>
      let (a, b, c, d) := s.tileRates n t
      q + (a + b + c + d)) (0 : Rat)) * (s.tileInput p.1 : Rat)) 0

/-- Surfaces by descending charged read bytes per second per byte of storage, ties to the lower layer (06 R143 step 6). -/
def State.byDensity (s : State) (ls : List Nat) : List Nat :=
  sortBy (fun a b =>
    let da := s.readRate a / (s.storageBytes a : Rat)
    let db := s.readRate b / (s.storageBytes b : Rat)
    decide (db < da) || (decide (da = db) && decide (a ≤ b))) ls

/-- The need of the flat cache: 24,576 bytes a tile (06 R147). -/
def State.flatNeed (s : State) : Nat :=
  ((List.range 8).map (fun n => if s.laneOn n then (s.allTiles n).length * 24576 else 0)).sum

/-- The flat cache's bytes of step 5 of 06 R143. -/
def State.flatFirst (s : State) : Nat := min (min (512 * mib - s.mandatory) (64 * mib)) s.flatNeed

/-- The storages that steps 6 and 7 of 06 R143 put into the boathouse, in order, each whole, and the bytes that are left. -/
def State.boathouseFill (s : State) : List Nat × Nat :=
  let rest := s.surfaceLayers.filter (fun l => !(s.placedFirst l) && (s.storagePin l).isNone)
  let ap := s.byDensity (rest.filter (fun l => decide (s.lyr l 8 = 0)))
  let host := s.byDensity (rest.filter (fun l => decide (s.lyr l 8 = 1) && (s.sharers l).any (fun k => decide (s.lyr k 3 ≠ 2))))
  (ap ++ host).foldl (fun (acc : List Nat × Nat) l =>
    if s.storageBytes l ≤ acc.2 then (acc.1 ++ [l], acc.2 - s.storageBytes l) else acc) ([], 512 * mib - s.mandatory - s.flatFirst)

def State.inBoathouse (s : State) : List Nat := s.boathouseFill.1

/-- The flat cache's bytes: those of step 5 and, up to the lanes' need, what step 8 of 06 R143 leaves. -/
def State.flatTotal (s : State) : Nat := min s.flatNeed (s.flatFirst + s.boathouseFill.2)

/-- A lane's flat-cache allotment in bytes: its share by tiles (06 R143, R147, notes/assumptions/15). -/
def State.allotment (s : State) (n : Nat) : Nat :=
  if s.laneOn n ∧ s.flatNeed ≠ 0 then s.flatTotal * ((s.allTiles n).length * 24576) / s.flatNeed else 0

/-- A surface layer's residence: 0 boathouse, 1 LP5X, 2 host read in place, 3 host prefetched (06 R143, R144, R155, R160);
`inb` is `inBoathouse`. -/
def State.residenceIn (s : State) (inb : List Nat) (l : Nat) : Nat :=
  let host := decide (s.lyr l 8 = 1)
  let first := s.placedFirst l
  let inside := first || inb.any (fun k => s.sameSurface k l)
  match (s.storagePin l).filter (fun m => decide (m ≠ 0) && !first) with
  | some m => m
  | none =>
    if !host then (if inside then 0 else 1)
    else if inside && (decide (s.lyr l 3 ≠ 2) || (s.storagePin l).isSome) then 3 else 2

def State.residenceOf (s : State) (l : Nat) : Nat := s.residenceIn s.inBoathouse l

/-- The granules of the surfaces that the boathouse holds: crew and granule (04 R73). -/
def State.boatGranules (s : State) (inb : List Nat) : List (Nat × Nat) :=
  (s.surfaceLayers.filter (fun l => decide (s.lyr l 8 = 0 ∧ s.residenceIn inb l = 0))).flatMap (fun l =>
    (s.sharers l).flatMap (fun k => ((s.planes k).flatMap (fun q => granulesOf q.1 q.2)).map (fun g => ((s.layer l).owner.getD 0, g))))

/-- A backed granule lies in LP5X: no surface that the boathouse holds lies in it (04 R73; which lies where is the cox's,
notes/assumptions/32). -/
def State.granuleLp5 (s : State) (c g : Nat) : Bool := !(s.boatGranules s.inBoathouse).contains (c, g)

/-! ### Rated capacities (06 R148) -/

/-- The speed factor of a negotiated speed code (06 R148, 11 R317). -/
def speedFactor (sp : Nat) : Rat :=
  match sp with
  | 4 => 1 | 3 => 1 / 2 | 2 => 1 / 4 | 1 => 1 / 8 | _ => 0

def State.portCapacity (s : State) (p : Nat) : Rat :=
  if (s.port p).linkUp then 7000000000 * ((s.port p).lanes : Rat) / 4 * speedFactor (s.port p).speed else 0

/-- Healthy shells of COX.SHELL_OK. -/
def State.healthy (s : State) : Nat := (List.range 16).countP (fun i => s.placement.shellOk.testBit i)

/-- Rated capacity of a resource, in bytes or clocks per second (06 R148). -/
def State.rated (s : State) (r : Nat) : Rat :=
  if r = 0 then 256000000000
  else if r = 1 then 16 * (s.placement.lp5Rate : Rat) * 1000000 * (if s.placement.lp5Ecc then 7 / 8 else 1)
  else if r = 2 then ((s.healthy - 1 : Nat) : Rat) * 64 * 1000000000
  else if r ≤ 6 then s.portCapacity (r - 3)
  else s.portCapacity (r - 7)

/-! ### Demand (06 R149 to R151). Class 0 S, 1 L, 2 C, 3 P. -/

/-- One charge: resource, class, amount per second. -/
abbrev Charge := Nat × Nat × Rat

/-- The resource a residence reads through (06 R149): boathouse, LP5X, or the owner's host port. A surface that is being copied counts on the
memory of the two of which it takes the larger share (R142). -/
def State.readResource (s : State) (inb : List Nat) (n l : Nat) : Nat :=
  match s.lyr l 6 with
  | 2 => if s.leadSet n ∧ s.lockStream n = s.lyr l 0x18 then 0 else 1
  | 1 => if (s.layer l).copying.isSome then
           (if s.lyr l 8 = 1 then 3 + ((s.layer l).owner.getD 0) / 128 else if s.rated 1 ≤ s.rated 0 then 1 else 0)
         else match s.residenceIn inb l with
              | 0 => 0
              | 1 => 1
              | 2 => 3 + ((s.layer l).owner.getD 0) / 128
              | _ => 0
  | _ => 0

/-- The charges of one tile (06 R149, R150). -/
def State.tileCharges (s : State) (inb : List Nat) (n t : Nat) : List Charge :=
  let (rS, rC, rP, rL) := s.tileRates n t
  let total := rS + rC + rP + rL
  if total ≤ 0 then []
  else
    let each (r : Nat) (amount : Rat) : List Charge :=
      [(r, 0, amount * rS), (r, 1, amount * rL), (r, 2, amount * rC), (r, 3, amount * rP)]
    each 2 (s.tileCost n t : Rat) ++ each 0 8192 ++
    (s.covering n t).flatMap (fun l => each (s.readResource inb n l) (s.tileInput l : Rat))

/-- The demand of forwarding a stream (06 R151): its ring read and its host port; of processed forwarding also 2,176 clocks, the raw
ring bytes and 8,192 bytes for each 64 × 32 block (09 R247). -/
def State.fwdCharges (s : State) (k : Nat) : List Charge :=
  let ix := camIx (k / 4) (0x30 + k % 4)
  let raw := ((s.streamW k * s.streamH k * s.ringBytes k : Nat) : Rat) * s.camRate k
  let done := decide (s.num ix 2 = 1)
  let sent := if done then ((s.streamW k * s.streamH k * 4 : Nat) : Rat) * s.camRate k else raw
  let blocks := (((s.streamW k + 63) / 64 * ((s.streamH k + 31) / 32) : Nat) : Rat) * s.camRate k
  let ring := if s.lineRing k then 0 else 1
  (if done then [(ring, 2, raw), (0, 2, sent), (2, 2, 2176 * blocks), (0, 2, 8192 * blocks)] else [(ring, 2, raw)]) ++
  (if s.num ix 4 = 1 then [(7 + s.num ix 3 / 128, 2, sent)] else [])

/-- Scan-out, streams, forwarding, guaranteed writeback and prefetch copies (06 R151). -/
def State.furtherCharges (s : State) (inb : List Nat) : List Charge :=
  ((List.range 8).filter s.laneOn).flatMap (fun n =>
    [(0, 1, ((s.laneW n * s.laneH n * 4 : Nat) : Rat) * s.fps n)] ++
    (if s.laneNum n 5 1 = 1 ∧ s.laneNum n 5 0xC = 1 then
      let reg := if s.laneNum n 5 3 = 0 then s.active n else rectOf (s.laneNum n 5 3)
      let amount := ((reg.area * formatBits (s.laneNum n 5 2) : Nat) : Rat) / 8 * s.fps n / (s.laneNum n 5 0xB : Rat)
      [((if s.laneNum n 5 4 = 1 then 7 + ((s.lane n).wbOwner.getD 0) / 128 else 0), 3, amount)]
     else [])) ++
  s.enabledSlots.flatMap (fun k =>
    let bytes := ((s.streamW k * s.streamH k * s.ringBytes k : Nat) : Rat) * s.camRate k
    (if s.lineRing k then [((0, 2, bytes) : Charge)] else []) ++ (if s.frameRing k ≠ 0 then [(1, 2, bytes)] else []) ++
    (if s.fwdOn k then s.fwdCharges k else [])) ++
  (s.surfaceUsers.filter (fun l => decide (s.residenceIn inb l = 3))).flatMap (fun l =>
    let amount := (s.surfaceBytes l : Rat) * s.layerRate (s.lyr l 2) l
    let cls := if s.safety l then 0 else 3
    [(3 + ((s.layer l).owner.getD 0) / 128, cls, amount), (0, cls, amount)])

/-- Every charge of the configuration with the surfaces `inb` in the boathouse. -/
def State.chargesWith (s : State) (inb : List Nat) : List Charge :=
  ((List.range 8).filter s.laneOn).flatMap (fun n => (s.allTiles n).flatMap (s.tileCharges inb n)) ++ s.furtherCharges inb

/-- Every charge of the configuration. -/
def State.charges (s : State) : List Charge := s.chargesWith s.inBoathouse

/-- Work on a layer loads a resource: the boathouse it composes to, blade time, and what its input is read from (06 R149, R150). -/
def State.layerLoads (s : State) (inb : List Nat) (l r : Nat) : Bool :=
  decide (r = 0 ∨ r = 2) || (decide (s.lyr l 6 = 1 ∨ s.lyr l 6 = 2) && decide (s.readResource inb (s.lyr l 2) l = r))

/-- The admitted demand of a resource by class, rounded upward (06 R151). -/
def demandOf (cs : List Charge) (r cls : Nat) : Nat :=
  ((cs.filter (fun c => decide (c.1 = r) && decide (c.2.1 = cls))).foldl (fun m c => m + c.2.2) (0 : Rat)).ceil.toNat

/-- D_r: the sum of its S, L, C and P parts (06 R152). -/
def demandTotal (cs : List Charge) (r : Nat) : Nat :=
  demandOf cs r 0 + demandOf cs r 1 + demandOf cs r 2 + demandOf cs r 3

/-! ### The row check (06 R154) -/

/-- D and U of a program in effect on a lane: the source lines its WARP steps read below and above an output line, and the two lines of the
demosaic where it reads a RAW stream (05 R121, 07 R177, 09 R240). -/
def State.programReach (s : State) (n h : Nat) : Nat × Nat :=
  let p := s.program h
  let slots := s.slotsOf n h
  let raw := if slots.any s.rawSource then 2 else 0
  let warps := p.steps.filter (fun w => decide (stepOp w = 3))
  let lines (w : Nat) : Int × Int :=
    let q := tabGet (0, 0) p.reaches (bits w 1 0)
    let top : Int := (((slots[stepSlot w]?).map (fun l => (s.crop l).2.1)).getD 0 : Nat)
    (q.1 + top, q.2 - top)
  (warps.foldl (fun m w => max m (lines w).1.toNat) 0 + raw, warps.foldl (fun m w => max m (lines w).2.toNat) 0 + raw)

/-- D and U of a lane: the largest of the programs in effect on it. -/
def State.reach (s : State) (n : Nat) : Nat × Nat :=
  ((s.programs.filter (fun p => p.2.inEffect && decide (p.2.lane = n))).map (fun p => s.programReach n p.1)).foldl
    (fun m p => (max m.1 p.1, max m.2 p.2)) (0, 0)

/-- A row's composition window in line times (01 R13, R19, 04 R86). -/
def State.rowWindow (s : State) (n r : Nat) : Nat :=
  if s.leadSet n then
    let d := (s.reach n).1
    let hc := match s.slotOf (s.lockStream n) with
              | some k => s.streamH k
              | none => 0
    32 * r + s.laneNum n 2 6 + d - 1 - (min (32 * r + 31 + d) (hc - 1) + 1)
  else
    let release := max (32 * r + s.rowLines n r) (s.laneNum n 0 0x10 + 1)
    s.vTotal n + 32 * r - 1 - release

/-- The region pin over a row, as its shell mask (06 R155). -/
def State.rowPin (s : State) (n r : Nat) : Option Nat :=
  ((s.lane n).regionPins.find? (fun p => decide (p.1 ≤ r) && decide (r ≤ p.2.1))).map (fun p => p.2.2)

/-- The largest K_t of a row. -/
def State.rowCost (s : State) (n r : Nat) : Nat :=
  (List.range (s.tileCols n)).foldl (fun m c => max m (s.tileCost n (tileKey c r))) 0

/-- A row's excess over 70 % of its window with `shells` shells, in ns; 0 where it passes (06 R154). -/
def State.rowExcess (s : State) (n r shells : Nat) : Rat :=
  let time := ((ceilDiv (s.tileCols n) (64 * shells) * s.rowCost n r : Nat) : Rat)
  let window := ((s.rowWindow n r * s.laneNum n 1 4 : Nat) : Rat) * 1000000000 / (s.laneNum n 1 8 : Rat)
  max 0 (time - window * 7 / 10)

/-- The healthy shells of a mask. -/
def State.healthyIn (s : State) (m : Nat) : Nat := (List.range 16).countP (fun i => m.testBit i && s.placement.shellOk.testBit i)

/-- The shells that the region pins of a lane name. -/
def State.pinMask (s : State) (n : Nat) : Nat := (s.lane n).regionPins.foldl (fun m p => m ||| p.2.2) 0

/-- The fewest shells with which every unpinned row of a lane passes the row check; none where no number does, or a pinned row fails with
the healthy shells of its mask (06 R146, R154). -/
def State.shellsNeeded (s : State) (n : Nat) : Option Nat :=
  let rows := List.range (s.tileRows n)
  let passes (r k : Nat) : Bool := decide (0 < k) && decide (s.rowExcess n r k = 0)
  if rows.all (fun r => match s.rowPin n r with | some m => passes r (s.healthyIn m) | none => true) then
    (List.range 17).find? (fun k => rows.all (fun r => (s.rowPin n r).isSome || passes r k))
  else none

/-- The shells in the cox's order of preference, which the manual leaves to it (06 R146). -/
def shellOrder : List Nat :=
  sortBy (fun a b => decide (Config.shellRank a < Config.shellRank b) || (decide (Config.shellRank a = Config.shellRank b) && decide (a ≤ b)))
    (List.range 16)

/-- The shells that a lane may be given: a lead lane those pinned to it and those that no pin names and no lead lane has, its own first; a
chase lane all that no lead lane has (06 R146, R157). `taken` holds the lead lanes' shells, `pinned` every pin's. -/
def State.shellsFor (s : State) (n taken pinned : Nat) : List Nat :=
  let mine := s.pinMask n
  let open_ := shellOrder.filter (fun i => s.placement.shellOk.testBit i && !taken.testBit i)
  if s.leadSet n then open_.filter mine.testBit ++ open_.filter (fun i => !mine.testBit i && !pinned.testBit i)
  else open_

/-- The shell sets of the lanes' unpinned rows, lead lanes first; or the lane for which too few shells are left, with their number (06 R146,
R154, R157). -/
def State.assignShells (s : State) : Except (Nat × Nat) (Tab Nat) :=
  let lanes := (List.range 8).filter s.laneOn
  let pinned := lanes.foldl (fun m n => m ||| s.pinMask n) 0
  let give (acc : Except (Nat × Nat) (Tab Nat × Nat)) (n : Nat) : Except (Nat × Nat) (Tab Nat × Nat) :=
    match acc with
    | .error e => .error e
    | .ok (sets, taken) =>
      let can := s.shellsFor n taken pinned
      match s.shellsNeeded n with
      | none => .error (n, can.length)
      | some k =>
        if can.length < k then .error (n, can.length)
        else
          let set := (can.take k).foldl (fun m i => m ||| 2 ^ i) 0
          .ok (tabSet sets n set, if s.leadSet n then taken ||| set ||| s.pinMask n else taken)
  match (lanes.filter s.leadSet ++ lanes.filter (fun n => !s.leadSet n)).foldl give (.ok ([], 0)) with
  | .ok (sets, _) => .ok sets
  | .error e => .error e

/-- Some assignment of the healthy shells passes the row check of every lane (06 R154). -/
def State.shellsFit (s : State) : Bool := match s.assignShells with | .ok _ => true | .error _ => false

/-- The worst row's excess of a lane with `k` shells times f_n, in millions of clocks per second, rounded upward (06 R152). -/
def State.worstExcess (s : State) (n k : Nat) : Nat :=
  let count (r : Nat) : Nat := max 1 (match s.rowPin n r with | some m => s.healthyIn m | none => k)
  let worst := (List.range (s.tileRows n)).foldl (fun m r => max m (s.rowExcess n r (count r))) (0 : Rat)
  (worst * s.fps n / 1000000).ceil.toNat

/-! ### Admission (06 R152, R153) -/

/-- placement.last_refusal's fields but the crew (06 R152): resource, lane, excess. -/
abbrev Refused := Nat × Nat × Nat

/-- The resource whose demand grows beyond 70 % of its rated capacity, if there is one. -/
def State.overCharge (new old : State) : Option Refused :=
  let cn := new.charges
  let co := old.charges
  (List.range 11).findSome? (fun r =>
    let d := (demandTotal cn r : Rat)
    let ceiling := new.rated r * 7 / 10
    if demandTotal co r < demandTotal cn r ∧ ceiling < d then
      some (r, 0xFF, ((d - ceiling) / 1000000).ceil.toNat)
    else none)

/-- The space checks (06 R153), in KiB of excess. -/
def State.overSpace (new : State) : Option Refused :=
  if 512 * mib < new.mandatory then some (0xFF, 0xFF, ceilDiv (new.mandatory - 512 * mib) 1024)
  else if new.backingCapacity < new.backedCount * (2 * mib) then
    some (0xFF, 0xFF, ceilDiv (new.backedCount * (2 * mib) - new.backingCapacity) 1024)
  else none

/-- The admission of a configuration over the one before it: none where it is admitted. -/
def State.planAdmission (new old : State) : Option Refused :=
  match new.overSpace with
  | some r => some r
  | none =>
    match new.overCharge old with
    | some r => some r
    | none => match new.assignShells with
              | .ok _ => none
              | .error (n, k) => some (0xFE, n, new.worstExcess n k)

/-! ### Plan outputs (06 R141, R142) -/

/-- The outputs that a placement generation stands for: residences, shell sets and pins, rings with their sizes, allotments. -/
def State.planOutputs (s : State) : List Nat :=
  let inb := s.inBoathouse
  s.surfaceUsers.flatMap (fun l => [l, s.residenceIn inb l]) ++
  (match s.assignShells with | .ok sets => sets.flatMap (fun p => [p.1, p.2]) | .error _ => []) ++
  ((List.range 8).filter s.laneOn).flatMap (fun n => n :: s.allotment n :: (s.lane n).regionPins.flatMap (fun p => [p.1, p.2.1, p.2.2])) ++
  s.enabledSlots.flatMap (fun k => [k, b2n (s.lineRing k), s.frameRing k, s.streamH k, s.ringLine k])

/-- The plan's shell sets take effect; where no assignment passes the row check those in effect stay (06 R142, R146, R168). -/
def State.takeShells (s : State) : State :=
  match s.assignShells with
  | .ok sets => s.modPlacement (fun p => { p with shellSets := sets })
  | .error _ => s

/-- How many flat tiles a lane's allotment holds (06 R147). -/
def State.flatRoom (s : State) (n : Nat) : Nat := tabGet 0 s.placement.allotments n / 24576

/-- The plan takes effect: its shell sets, and its allotments, which bound the flat tiles stored (06 R142, R146, R147). -/
def State.takePlan (s : State) : State :=
  let t := s.takeShells.modPlacement (fun p =>
    { p with allotments := ((List.range 8).filter s.laneOn).map (fun n => (n, s.allotment n)) })
  { t with lanes := t.lanes.map (fun p => (p.1, { p.2 with flat := p.2.flat.take (t.flatRoom p.1) })) }

/-- A configuration without its pins, for the last case of 06 R157. -/
def State.unpinned (s : State) : State :=
  { s with layers := s.layers.map (fun p => (p.1, { p.2 with surfacePin := none })),
           lanes := s.lanes.map (fun p => (p.1, { p.2 with regionPins := [] })) }

/-- The pins of a configuration that 06 R157 refuses by themselves. -/
def State.pinInfeasible (s : State) : Bool :=
  s.layers.any (fun p =>
    match p.2.surfacePin with
    | none => false
    | some m =>
      let host := decide (s.lyr p.1 8 = 1)
      decide (s.lyr p.1 6 = 2) || decide (s.lyr p.1 6 = 3) || (decide (m = 1) && host) || (decide (m = 2) && !host) ||
      (decide (m = 1) && s.safety p.1)) ||
  (List.range 8).any (fun n => s.laneOn n && (s.lane n).regionPins.any (fun p =>
    decide (s.tileRows n ≤ p.2.1) ||
    (List.range 8).any (fun k => k != n && s.laneOn k && s.leadSet k &&
      decide (p.2.2 &&& (s.pinMask k ||| tabGet 0 s.placement.shellSets k) ≠ 0))))

end Sys2Proof.Machine
end

