-- ==== Sys2Proof/Machine/Pixels.lean ====
section
/-! DEFINITION. Pixel arithmetic: decoding, keying, RAW processing, scaling, warping, blending, programs and the output stage
(05 R107 to R135, 09 R240, 12 R340). -/

namespace Sys2Proof.Machine

open Sys2Proof

/-- A pixel inside the engine: four U1.19 components, colour premultiplied (05 R107). -/
structure Px where
  r : Nat
  g : Nat
  b : Nat
  a : Nat
  deriving DecidableEq, Repr, Inhabited

/-- 1.0 in U1.19. -/
def one19 : Nat := 0x8_0000

def clear : Px := { r := 0, g := 0, b := 0, a := 0 }

/-- A colour result leaving a stage: `n / d` rounded and clamped (05 R107). -/
def stage (n : Int) (d : Nat) : Nat := (min 0xF_FFFF (max 0 (roundI n d))).toNat

/-- An alpha result leaving a stage: never above 1.0 (05 R107). -/
def stageA (n : Int) (d : Nat) : Nat := min one19 (stage n d)

/-- A component scaled by a U1.19 factor. -/
def times (c f : Nat) : Nat := stage ((c * f : Nat) : Int) one19

/-- All four components scaled. -/
def Px.scale (p : Px) (f : Nat) : Px := { r := times p.r f, g := times p.g f, b := times p.b f, a := min one19 (times p.a f) }

/-- Straight colour multiplied by its alpha; nothing where alpha is 0 (05 R112). -/
def Px.premul (p : Px) : Px := { r := times p.r p.a, g := times p.g p.a, b := times p.b p.a, a := p.a }

/-- Colour divided by alpha; 0 where alpha is 0 (05 R112). -/
def Px.unpremul (p : Px) : Px :=
  if p.a = 0 then clear
  else { r := stage ((p.r * one19 : Nat) : Int) p.a, g := stage ((p.g * one19 : Nat) : Int) p.a,
         b := stage ((p.b * one19 : Nat) : Int) p.a, a := p.a }

/-! ### Blending (05 R116) -/

/-- One colour component of a blend operation: source and destination colour and alpha. -/
def blendColour (op s d sa da : Nat) : Nat :=
  let s' : Int := s; let d' : Int := d; let sa' : Int := sa; let da' : Int := da; let one : Int := one19
  match op with
  | 0 => stage (s' * one + d' * (one - sa')) one19
  | 1 => stage (s' + d') 1
  | 2 => stage (s' * d' + s' * (one - da') + d' * (one - sa')) one19
  | 3 => stage (s' * one + d' * one - s' * d') one19
  | 4 => min s d
  | 5 => max s d
  | _ => stage (d' * (one - sa')) one19

/-- The alpha of a blend operation. -/
def blendAlpha (op sa da : Nat) : Nat :=
  let sa' : Int := sa; let da' : Int := da; let one : Int := one19
  match op with
  | 1 => stageA (sa' + da') 1
  | 4 => min sa da
  | 5 => max sa da
  | 6 => stageA (da' * (one - sa')) one19
  | _ => stageA (sa' * one + da' * (one - sa')) one19

/-- S op D. -/
def blend (op : Nat) (s d : Px) : Px :=
  { r := blendColour op s.r d.r s.a d.a, g := blendColour op s.g d.g s.a d.a, b := blendColour op s.b d.b s.a d.a,
    a := blendAlpha op s.a d.a }

/-! ### Decoding (05 R108 to R113) -/

/-- An n-bit component as U1.19 (05 R108). -/
def comp (v n : Nat) : Nat := stage ((v * one19 : Nat) : Int) (2 ^ n - 1)

/-- A binary16 component as U1.19 (05 R108). -/
def half (v : Nat) : Nat :=
  let e := bits v 14 10
  let m := bits v 9 0
  if bitOf v 15 then 0
  else if e = 31 then (if m = 0 then 0xF_FFFF else 0)
  else if e = 0 then stage (m : Int) 32
  else if 6 ≤ e then min 0xF_FFFF ((1024 + m) * 2 ^ (e - 6))
  else stage ((1024 + m : Nat) : Int) (2 ^ (6 - e))

/-- An n-bit component replicated to 10 bits for the colour key (05 R113). -/
def tenBits (v n : Nat) : Nat :=
  if 10 ≤ n then v / 2 ^ (n - 10)
  else v * 2 ^ (10 - n) + (if 10 - n ≤ n then v / 2 ^ (2 * n - 10) else v * 2 ^ (10 - 2 * n))

/-- A sample's parts before linearisation: E′ of each colour, alpha, the three key components. -/
structure Raw where
  r : Nat
  g : Nat
  b : Nat
  a : Nat
  k1 : Nat
  k2 : Nat
  k3 : Nat

/-- A pixel of a fill value: components × 16, straight alpha (04 R78). -/
def fillPx (v : Nat) : Px :=
  { r := bits v 47 32 * 16, g := bits v 31 16 * 16, b := bits v 15 0 * 16, a := bits v 63 48 * 16 }

/-- An ARGB8888 word decoded (05 R108). -/
def argb8888 (w : Nat) : Raw :=
  { r := comp (bits w 23 16) 8, g := comp (bits w 15 8) 8, b := comp (bits w 7 0) 8, a := comp (bits w 31 24) 8,
    k1 := tenBits (bits w 23 16) 8, k2 := tenBits (bits w 15 8) 8, k3 := tenBits (bits w 7 0) 8 }

/-- The matrix coefficients a, b, c, d (05 R110). -/
def matrixOf (m : Nat) : Int × Int × Int × Int :=
  match m with
  | 0 => (91881, 22553, 46802, 116130)
  | 1 => (103206, 12276, 30679, 121609)
  | _ => (96639, 10784, 37444, 123299)

/-- E′ of R, G, B from n-bit luma and from chroma in eighths, under range and matrix (05 R109, R110). -/
def yuvToRgb (full : Bool) (mat n yv cb8 cr8 : Nat) : Nat × Nat × Nat :=
  let k : Int := 2 ^ (n - 8)
  let (yn, yd) : Int × Nat := if full then ((yv : Int), 2 ^ n - 1) else ((yv : Int) - 16 * k, 219 * 2 ^ (n - 8))
  let cd : Nat := 8 * (if full then 2 ^ n - 1 else 224 * 2 ^ (n - 8))
  let mid : Int := 8 * (if full then 2 ^ (n - 1) else 128 * k)
  let cb := (cb8 : Int) - mid
  let cr := (cr8 : Int) - mid
  let (a, b, c, d) := matrixOf mat
  let out (x : Int) : Nat :=
    min one19 (stage ((yn * 65536 * (cd : Int) + x * (yd : Int)) * 2 ^ 19) (yd * 65536 * cd))
  (out (a * cr), out (-(b * cb) - c * cr), out (d * cb))

/-- A linearised colour component (05 R111): table look-up with interpolation, except for linear. -/
def linearise (transfer : Nat) (yuv : Bool) (w e : Nat) : Nat :=
  if transfer = 3 then e
  else
    let c := min e one19
    let i := c / 512
    let f := c % 512
    let lo := linearEntry transfer yuv w i
    if i = 1024 then lo
    else (lo + roundI (((linearEntry transfer yuv w (i + 1) : Int) - lo) * f) 512).toNat

/-- The BT.2100 OOTF for a nominal peak of 1,000 cd/m² (05 R111). -/
def ootf (w : Nat) (p : Px) : Px :=
  let ys := (2627 * p.r + 6780 * p.g + 593 * p.b) * fxOne / (10000 * one19)
  let g := fxPow ys 1 5
  let out (c : Nat) : Nat := stage ((c * g * 1000 : Nat) : Int) (fxOne * w)
  { r := out p.r, g := out p.g, b := out p.b, a := p.a }

/-- A decoded sample in linear light, premultiplied (05 R111, R112). `enc` is layer.encoding, `w` the lane's white level. -/
def toLinear (enc w : Nat) (yuv hasAlpha : Bool) (q : Raw) : Px :=
  let t := bits enc 1 0
  let pre := bitOf enc 5 && hasAlpha
  let p : Px := { r := q.r, g := q.g, b := q.b, a := q.a }
  if pre && decide (t = 3) then (if q.a = 0 then clear else p)
  else
    let s := if pre then p.unpremul else p
    let l : Px := { r := linearise t yuv w s.r, g := linearise t yuv w s.g, b := linearise t yuv w s.b, a := s.a }
    let o := if t = 2 then ootf w l else l
    if q.a = 0 then clear else o.premul

/-! ### Reading surfaces -/

/-- One byte of a crew's storage: its aperture, or host memory through a translation already cached (11 R290, R292). -/
def State.crewByte (s : State) (c : Nat) (host : Bool) (a : Nat) : Byte :=
  if host then
    match tabFind (s.crew c).xltCache (a / 4096) with
    | some e => memRead s.hostMem (hostKey (c / 128) (e / 4096 * 4096 + a % 4096))
    | none => 0
  else memRead s.aperture (apertureKey c a)

/-- `n` bytes as a little-endian number. -/
def State.crewNat (s : State) (c : Nat) (host : Bool) (a : Nat) : Nat → Nat
  | 0 => 0
  | n + 1 => (s.crewByte c host a).toNat + 256 * s.crewNat c host (a + 1) n

/-- A layer's own storage; of a prefetched host surface the copy in the boathouse (06 R144). -/
def State.surf (s : State) (l a n : Nat) : Nat :=
  if s.lyr l 8 = 1 ∧ (s.layer l).residence = 3 then memNat s.prefetch (hostKey ((s.layer l).owner.getD 0) a) n
  else s.crewNat ((s.layer l).owner.getD 0) (decide (s.lyr l 8 = 1)) a n

/-- Chroma samples of a YUV layer: component 0 Cb, 1 Cr, at chroma column and line. -/
def State.chroma (s : State) (l f comp x y : Nat) : Nat :=
  let a := s.lyr l 9
  let st := s.lyr l 0xD
  match f with
  | 0x10 => s.surf l (a + s.lyr l 0xA + y * st + 2 * x + comp) 1
  | 0x11 => s.surf l (a + s.lyr l 0xA + y * st + 2 * x + comp) 1
  | 0x12 => s.surf l (a + s.lyr l 0xA + y * st + 4 * x + 2 * comp) 2 / 64
  | 0x13 => s.surf l (a + s.lyr l 0xA + y * st + 4 * x + 2 * comp) 2 / 64
  | 0x14 => s.surf l (a + (if comp = 0 then s.lyr l 0xA else s.lyr l 0xB) + y * st + x) 1
  | _ => s.surf l (a + y * s.lyr l 0xC + 4 * x + 1 + 2 * comp) 1

/-- Chroma at a luma position in eighths, by the siting of 04 R75 and the weights of 05 R109, inside the crop. -/
def State.chroma8 (s : State) (l f comp x y : Nat) : Nat :=
  let (cx, cy, cw, ch) := s.crop l
  let cl (v lo n : Nat) : Nat := max lo (min v (lo + n - 1))
  let col (line : Nat) : Nat :=
    if x % 2 = 0 then 2 * s.chroma l f comp (cl (x / 2) (cx / 2) (cw / 2)) line
    else s.chroma l f comp (cl (x / 2) (cx / 2) (cw / 2)) line + s.chroma l f comp (cl (x / 2 + 1) (cx / 2) (cw / 2)) line
  if f = 0x10 ∨ f = 0x12 ∨ f = 0x14 then
    let j := y / 2
    let at_ (v : Nat) : Nat := col (cl v (cy / 2) (ch / 2))
    if y % 2 = 0 then 3 * at_ j + (if j = 0 then at_ 0 else at_ (j - 1)) else 3 * at_ j + at_ (j + 1)
  else 4 * col y

/-- The parts of a surface sample at (x, y) (05 R108 to R110, R113). -/
def State.surfaceRaw (s : State) (l x y : Nat) : Raw :=
  let f := s.lyr l 7
  let a := s.lyr l 9
  let row := a + y * s.lyr l 0xC
  let enc := s.lyr l 0x14
  match f with
  | 0x01 => argb8888 (s.surf l (row + 4 * x) 4)
  | 0x02 => { argb8888 (s.surf l (row + 4 * x) 4) with a := one19 }
  | 0x03 =>
    let w := s.surf l (row + 4 * x) 4
    { r := comp (bits w 29 20) 10, g := comp (bits w 19 10) 10, b := comp (bits w 9 0) 10, a := comp (bits w 31 30) 2,
      k1 := bits w 29 20, k2 := bits w 19 10, k3 := bits w 9 0 }
  | 0x04 =>
    let w := s.surf l (row + 2 * x) 2
    { r := comp (bits w 15 11) 5, g := comp (bits w 10 5) 6, b := comp (bits w 4 0) 5, a := one19,
      k1 := tenBits (bits w 15 11) 5, k2 := tenBits (bits w 10 5) 6, k3 := tenBits (bits w 4 0) 5 }
  | 0x05 =>
    let w := s.surf l (row + 8 * x) 8
    { r := half (bits w 47 32), g := half (bits w 31 16), b := half (bits w 15 0), a := min one19 (half (bits w 63 48)),
      k1 := 0, k2 := 0, k3 := 0 }
  | 0x20 =>
    let v := s.surf l (row + x) 1
    let (r, g, b) := yuvToRgb (bitOf enc 4) 1 8 v (if bitOf enc 4 then 8 * 128 else 8 * 128) (8 * 128)
    { r := r, g := g, b := b, a := one19, k1 := tenBits v 8, k2 := 512, k3 := 512 }
  | 0x21 => argb8888 (s.surf l (s.lyr l 0x1A + 4 * s.surf l (row + x) 1) 4)
  | _ =>
    let wide := decide (f = 0x12 ∨ f = 0x13)
    let n := if wide then 10 else 8
    let yv := if wide then s.surf l (row + 2 * x) 2 / 64
              else if f = 0x15 then s.surf l (row + 4 * (x / 2) + 2 * (x % 2)) 1
              else s.surf l (row + x) 1
    let (r, g, b) := yuvToRgb (bitOf enc 4) (bits enc 3 2) n yv (s.chroma8 l f 0 x y) (s.chroma8 l f 1 x y)
    let cline := if f = 0x10 ∨ f = 0x12 ∨ f = 0x14 then y / 2 else y
    { r := r, g := g, b := b, a := one19, k1 := tenBits yv n, k2 := tenBits (s.chroma l f 0 (x / 2) cline) n,
      k3 := tenBits (s.chroma l f 1 (x / 2) cline) n }

/-- YUV formats and Y8, whose gamma transfer is BT.1886 (05 R111). -/
def yuvFormat (f : Nat) : Bool := decide (0x10 ≤ f ∧ f ≤ 0x20)

/-- Formats with an alpha channel (05 R108). -/
def alphaFormat (f : Nat) : Bool := decide (f = 0x01 ∨ f = 0x03 ∨ f = 0x05 ∨ f = 0x21)

/-- A sample of a surface layer: decoded, keyed, linear, premultiplied (05 R108 to R113). -/
def State.surfaceSample (s : State) (w l x y : Nat) : Px :=
  let f := s.lyr l 7
  if f = 0x22 ∨ f = 0x23 then
    let row := s.lyr l 9 + y * s.lyr l 0xC
    let mask := if f = 0x22 then comp (s.surf l (row + x) 1) 8
                else if bitOf (s.surf l (row + x / 8) 1) (x % 8) then one19 else 0
    let c := fillPx (s.lyr l 0x17)
    { c with a := min one19 (times c.a mask) }.premul
  else
    let q := s.surfaceRaw l x y
    let key := s.lyr l 0x16
    if bitOf key 63 && decide (q.k1 = bits key 29 20) && decide (q.k2 = bits key 19 10) && decide (q.k3 = bits key 9 0) &&
       f != 0x05 then clear
    else toLinear (s.lyr l 0x14) w (yuvFormat f) (alphaFormat f) q

/-! ### RAW camera samples (09 R240) -/

/-- The largest value of the RAW pipeline. -/
def rawMax : Int := 2 ^ 24 - 2

def clampRaw (v : Int) : Int := min rawMax (max 0 v)

/-- The CFA colour of a site: 0 R, 1 Gr, 2 Gb, 3 B (09 R252: RGGB, GRBG, GBRG, BGGR). -/
def cfa (bayer x y : Nat) : Nat :=
  let p := (x % 2) + 2 * (y % 2)
  match bayer with
  | 0 => p
  | 1 => [1, 0, 3, 2].getD p 0
  | 2 => [2, 3, 0, 1].getD p 0
  | _ => 3 - p

/-- Bits of a RAW sample by format code (09 R234). -/
def rawBits (f : Nat) : Nat :=
  match f with
  | 0x30 => 10 | 0x31 => 12 | 0x32 => 16 | _ => 20

/-- A processing object of a slot as held from its last frame start (09 R252, 02 R30). -/
def Slot.param (k : Slot) (sub dflt : Nat) : Nat := ((k.processing.find? (fun p => p.1 == sub)).map (fun p => valNat p.2)).getD dflt
def Slot.blob (k : Slot) (sub : Nat) (dflt : List Byte) : List Byte :=
  ((k.processing.find? (fun p => p.1 == sub)).map (fun p => valContent p.2)).getD dflt

/-- Index reflected about the edge sample. -/
def reflect (i : Int) (n : Nat) : Nat :=
  let a := if i < 0 then -i else i
  if (n : Int) ≤ a then (2 * ((n : Int) - 1) - a).toNat else a.toNat

/-- Black and gain (09 R240 step 1) of the sample at (x, y), the frame given by its lines. -/
def rawGain (k : Slot) (fmt w h : Nat) (lineAt : Nat → List Nat) (x y : Int) : Int :=
  let xi := reflect x w
  let yi := reflect y h
  let v := (lineAt yi).getD xi 0
  let gains := k.param 3 0x1000_1000_1000_1000
  let g := bits gains (16 * cfa (k.param 1 0) xi yi + 15) (16 * cfa (k.param 1 0) xi yi)
  let n := rawBits fmt
  min rawMax (roundI (((v - k.param 2 0) * g * 2 ^ (24 - n) : Nat) : Int) 4096)

/-- The Malvar, He and Cutler interpolation of one missing colour in sixteenths: the kernels (notes/assumptions/11). -/
def malvar (kind : Nat) (p : Int → Int → Int) : Int :=
  let cross := p 1 0 + p (-1) 0 + p 0 1 + p 0 (-1)
  let diag := p 1 1 + p 1 (-1) + p (-1) 1 + p (-1) (-1)
  let far := p 2 0 + p (-2) 0 + p 0 2 + p 0 (-2)
  let v := match kind with
    | 0 => 8 * p 0 0 + 4 * cross - 2 * far
    | 1 => 10 * p 0 0 + 8 * (p 1 0 + p (-1) 0) - 2 * diag - 2 * (p 2 0 + p (-2) 0) + (p 0 2 + p 0 (-2))
    | 2 => 10 * p 0 0 + 8 * (p 0 1 + p 0 (-1)) - 2 * diag - 2 * (p 0 2 + p 0 (-2)) + (p 2 0 + p (-2) 0)
    | _ => 12 * p 0 0 + 4 * diag - 3 * far
  clampRaw (roundI v 16)

/-- The tone map (09 R240 step 4). -/
def toneMap (table : List Byte) (c : Int) : Nat :=
  let y := c.toNat + 1
  let e := Nat.log2 y
  let low := y - 2 ^ e
  let field := if e ≤ 14 then low * 2 ^ (14 - e) else low / 2 ^ (e - 14)
  let i := 64 * e + field / 256
  let f := field % 256
  let entry (j : Nat) : Int := (leNat ((table.drop (3 * j)).take 3) : Nat)
  (entry i + roundI ((entry (i + 1) - entry i) * f) 256).toNat

/-- A RAW sample in linear light (09 R240). -/
def rawSample (k : Slot) (fmt w h : Nat) (lineAt : Nat → List Nat) (x y : Nat) : Px :=
  let p (dx dy : Int) : Int := rawGain k fmt w h lineAt (x + dx) (y + dy)
  let (r, g, b) : Int × Int × Int := match cfa (k.param 1 0) x y with
    | 0 => (p 0 0, malvar 0 p, malvar 3 p)
    | 1 => (malvar 1 p, p 0 0, malvar 2 p)
    | 2 => (malvar 2 p, p 0 0, malvar 1 p)
    | _ => (malvar 3 p, malvar 0 p, p 0 0)
  let m := k.blob 4 identityCcm
  let co (i : Nat) : Int := signedOf 32 (leNat ((m.drop (4 * i)).take 4))
  let row (i : Nat) : Int := clampRaw (roundI (co (3 * i) * r + co (3 * i + 1) * g + co (3 * i + 2) * b) 16384)
  let t := k.blob 5 toneTable
  { r := toneMap t (row 0), g := toneMap t (row 1), b := toneMap t (row 2), a := one19 }

/-- The key under which a line of a ring is held: frame ring by slot and line, line ring by position (09 R241, 07 R176). -/
def frameRingKey (slot line : Nat) : Nat := slot * 16384 + line
def lineRingKey (pos : Nat) : Nat := 0x1000_0000 + pos % 128

/-- The lines a lane sees of a stream: the line ring of its lock stream, else the frame bound to the heat (09 R242). -/
def State.cameraLine (s : State) (n stream k : Nat) (y : Nat) : List Nat :=
  let sl := s.slot k
  if s.lead n ∧ s.lockStream n = stream then tabGet [] sl.ringLines (lineRingKey (tabGet 0 (s.lane n).heat.cameras stream - 1 + y))
  else tabGet [] sl.ringLines (frameRingKey (tabGet 0 (s.lane n).heat.cameras stream - 1) y)

/-- A camera layer has a frame to show (09 R242). -/
def State.cameraBound (s : State) (n stream : Nat) : Bool :=
  (s.lead n && decide (s.lockStream n = stream)) || decide (tabGet 0 (s.lane n).heat.cameras stream ≠ 0)

/-- A sample of any layer at source position (x, y). -/
def State.sample (s : State) (n l x y : Nat) : Px :=
  match s.lyr l 6 with
  | 1 => s.surfaceSample (s.laneNum n 4 7) l x y
  | 2 =>
    (match s.slotOf (s.lyr l 0x18) with
     | some k =>
       if s.cameraBound n (s.lyr l 0x18) then
         rawSample (s.slot k) (s.slotNum k 3) (s.streamW k) (s.streamH k) (s.cameraLine n (s.lyr l 0x18) k) x y
       else clear
     | none => clear)
  | 3 => (fillPx (s.lyr l 0x17)).premul
  | _ => clear

/-! ### Scaling (05 R114, R115) -/

/-- Coefficients: axis (0 horizontal, 1 vertical), phase, tap, in units of 2^−14. -/
abbrev Coefs := Nat → Nat → Nat → Int

def taps (axis : Nat) : Nat := if axis = 0 then 8 else 6

/-- The tap that reads sample n. -/
def centre (axis : Nat) : Nat := if axis = 0 then 3 else 2

def nearestCoefs : Coefs := fun axis p i =>
  if i = centre axis then (if p < 32 then 16384 else 0) else if i = centre axis + 1 then (if p < 32 then 0 else 16384) else 0

def bilinearCoefs : Coefs := fun axis p i =>
  if i = centre axis then 256 * (64 - p : Int) else if i = centre axis + 1 then 256 * (p : Int) else 0

/-- A user table: 64 × 8 horizontal, then 64 × 6 vertical (05 R123). -/
def userCoefs (t : List Int) : Coefs := fun axis p i => if axis = 0 then t.getD (p * 8 + i) 0 else t.getD (512 + p * 6 + i) 0

/-- Pre-decimation: the smallest k with dst / (crop / 2^k) at least 1/2 (05 R115). -/
def decimation (dst crop : Nat) : Nat := ((List.range 16).find? (fun k => decide (crop ≤ 2 * dst * 2 ^ k))).getD 15

/-- The filter at a tap, in fixed point: the sinc of cut-off num / den under a Lanczos window of 4 lobes horizontally and 3 vertically, at the
tap's distance from the source position in 64ths (05 R115, notes/assumptions/12). -/
def lanczos (axis num den p i : Nat) : Int :=
  let far := ((((i : Int) - centre axis) * 64) - p).natAbs
  fxSinc (far * num) (64 * den) * fxSinc far (64 * (if axis = 0 then 4 else 3)) / fxOne

/-- The default set of one axis: the filter's values rounded so that each phase sums to 16,384; the cut-off is min(1, dst / crop) after
pre-decimation (05 R115). -/
def axisCoefs (axis dst crop p i : Nat) : Int :=
  let w := (crop + 2 ^ decimation dst crop - 1) / 2 ^ decimation dst crop
  let num := min dst w
  let total := ((List.range (taps axis)).map (lanczos axis num w p)).sum
  let v (t : Nat) : Int :=
    roundI (lanczos axis num w p t * 16384) total.toNat + max (-1) (min 1 (Config.scalerTrim axis dst crop p t))
  if i + 1 < taps axis then v i else 16384 - ((List.range (taps axis - 1)).map v).sum

def defaultCoefs (dw cw dh ch : Nat) : Coefs := fun axis p i =>
  if axis = 0 then axisCoefs 0 dw cw p i else axisCoefs 1 dh ch p i

/-- Source position of destination column x with 16 fraction bits (05 R114 step 1), the crop starting at 0. -/
def srcPos (x crop dst : Nat) : Int := roundI ((((2 * x + 1) * crop : Nat) : Int) - dst |> (· * 65536)) (2 * dst)

/-- n and phase of a position with 16 fraction bits (05 R114 step 2). -/
def phaseOf (pos : Int) : Int × Nat :=
  let n := pos / 65536
  let p := (((pos - n * 65536).toNat) * 64 + 32768) / 65536
  if p = 64 then (n + 1, 0) else (n, p)

/-- A box-averaged sample of the decimated crop. -/
def boxSample (src : Nat → Nat → Px) (cw ch kx ky : Nat) (i j : Nat) : Px :=
  if kx = 0 ∧ ky = 0 then src i j
  else
    let xs := (List.range (2 ^ kx)).map (fun d => min (i * 2 ^ kx + d) (cw - 1))
    let ys := (List.range (2 ^ ky)).map (fun d => min (j * 2 ^ ky + d) (ch - 1))
    let all := ys.flatMap (fun y => xs.map (fun x => src x y))
    let avg (f : Px → Nat) : Nat := stage (((all.map f).sum : Nat) : Int) all.length
    { r := avg Px.r, g := avg Px.g, b := avg Px.b, a := min one19 (avg Px.a) }

/-- The scaled value at destination column x, line y of a source of cw × ch samples (05 R114): vertical sums exact, one
rounding at the end. -/
def scaleAt (src : Nat → Nat → Px) (co : Coefs) (cw ch dw dh x y : Nat) : Px :=
  let kx := decimation dw cw
  let ky := decimation dh ch
  let w := ceilDiv cw (2 ^ kx)
  let h := ceilDiv ch (2 ^ ky)
  let (nx, px) := phaseOf (srcPos x w dw)
  let (ny, py) := phaseOf (srcPos y h dh)
  let ci (v : Int) (n : Nat) : Nat := (min (max v 0) ((n : Int) - 1)).toNat
  let sum (f : Px → Nat) : Int :=
    ((List.range 8).map (fun i =>
      co 0 px i * ((List.range 6).map (fun j =>
        co 1 py j * (f (boxSample src cw ch kx ky (ci (nx - 3 + i) w) (ci (ny - 2 + j) h)) : Int))).sum)).sum
  { r := stage (sum Px.r) (2 ^ 28), g := stage (sum Px.g) (2 ^ 28), b := stage (sum Px.b) (2 ^ 28),
    a := stageA (sum Px.a) (2 ^ 28) }

/-! ### Warping (05 R120, R121) -/

/-- Catmull-Rom weights at phase p of 64, in units of 1 / 524,288 (05 R121). -/
def catmull (p i : Nat) : Int :=
  let t : Int := p
  match i with
  | 0 => -(t * t * t) + 2 * 64 * t * t - 64 * 64 * t
  | 1 => 3 * t * t * t - 5 * 64 * t * t + 2 * 64 * 64 * 64
  | 2 => -(3 * t * t * t) + 4 * 64 * t * t + 64 * 64 * t
  | _ => t * t * t - 64 * t * t

/-- A mesh point's x (0) or y (1); points are held at mesh × 4,096 + (row × 33 + column) × 2 + axis. -/
def meshAt (m : Tab Int) (mesh i j axis : Nat) : Int := tabGet 0 m (mesh * 4096 + (j * 33 + i) * 2 + axis)

/-- The source position in 1/256 pixel of a destination pixel centre; none beside an invalid point (05 R121). -/
def warpPos (m : Tab Int) (mesh : Nat) (r : Rect) (x y : Int) : Option (Int × Int) :=
  let w := (r.x1 - r.x0).toNat
  let h := (r.y1 - r.y0).toNat
  let ux := (2 * (x - r.x0) + 1).toNat * 16
  let uy := (2 * (y - r.y0) + 1).toNat * 16
  let i := ux / w
  let j := uy / h
  let fx' : Int := (ux % w : Nat)
  let fy' : Int := (uy % h : Nat)
  let bad (a b : Nat) : Bool := decide (meshAt m mesh a b 0 = -(2 ^ 31))
  if bad i j || bad (i + 1) j || bad i (j + 1) || bad (i + 1) (j + 1) then none
  else
    let at_ (axis : Nat) : Int :=
      roundI (meshAt m mesh i j axis * ((w : Int) - fx') * ((h : Int) - fy') + meshAt m mesh (i + 1) j axis * fx' * ((h : Int) - fy') +
              meshAt m mesh i (j + 1) axis * ((w : Int) - fx') * fy' + meshAt m mesh (i + 1) (j + 1) axis * fx' * fy') (w * h)
    some (at_ 0, at_ 1)

/-- The 4 × 4 Catmull-Rom sample at a source position in 1/256 pixel (05 R121). -/
def warpAt (src : Nat → Nat → Px) (cw ch : Nat) (sx sy : Int) : Px :=
  let (nx, px) := phaseOf (sx * 256)
  let (ny, py) := phaseOf (sy * 256)
  let ci (v : Int) (n : Nat) : Nat := (min (max v 0) ((n : Int) - 1)).toNat
  let sum (f : Px → Nat) : Int :=
    ((List.range 4).map (fun i => catmull px i *
      ((List.range 4).map (fun j => catmull py j * (f (src (ci (nx - 1 + i) cw) (ci (ny - 1 + j) ch)) : Int))).sum)).sum
  { r := stage (sum Px.r) (2 ^ 38), g := stage (sum Px.g) (2 ^ 38), b := stage (sum Px.b) (2 ^ 38),
    a := stageA (sum Px.a) (2 ^ 38) }

/-- The reaches of one mesh over a region (05 R121, 07 R177): over its output lines, how far below and above the line the source lines read
lie, with the kernel's lines; source lines count from the crop origin. None where every point is invalid. -/
def meshReach (m : Tab Int) (mesh : Nat) (r : Rect) : Option (Int × Int) :=
  (List.range (r.y1 - r.y0).toNat).foldl (fun acc (dy : Nat) =>
    (List.range (r.x1 - r.x0).toNat).foldl (fun (q : Option (Int × Int)) (dx : Nat) =>
      match warpPos m mesh r (r.x0 + dx) (r.y0 + dy) with
      | none => q
      | some p =>
        let n := (phaseOf (p.2 * 256)).1
        let here : Int × Int := (n + 2 - (r.y0 + dy), r.y0 + dy - (n - 1))
        some (match q with | none => here | some b => (max b.1 here.1, max b.2 here.2))) acc) none

/-! ### Layers and programs at a lane pixel -/

/-- A layer's crop as a source of its own. -/
def State.cropSource (s : State) (n l : Nat) : Nat → Nat → Px := fun x y => s.sample n l ((s.crop l).1 + x) ((s.crop l).2.1 + y)

/-- A layer at lane pixel (x, y), without its global alpha: unscaled at its destination position, or through the scaler, which copies at
ratio 1 (05 R114, R124); transparent outside. -/
def State.layerAt (s : State) (n l : Nat) (co : Option Coefs) (x y : Int) : Px :=
  let (_, _, cw, ch) := s.crop l
  let (dw, dh) := s.dstSize l
  let lx := (x - s.dstX l).toNat
  let ly := (y - s.dstY l).toNat
  if !((if co.isSome then s.dstRect l else s.copyRect l).has x y) then clear
  else if s.lyr l 6 = 3 then s.sample n l 0 0
  else
    match co.filter (fun _ => s.scaled l) with
    | some c => scaleAt (s.cropSource n l) c cw ch dw dh lx ly
    | none => s.cropSource n l lx ly

/-- A layer as the fixed order shows it, times its global alpha (05 R117). -/
def State.fixedLayer (s : State) (n l : Nat) (x y : Int) : Px :=
  let co := if s.scaled l then
    some (defaultCoefs (s.dstSize l).1 (s.crop l).2.2.1 (s.dstSize l).2 (s.crop l).2.2.2) else none
  (s.layerAt n l co x y).scale (s.lyr l 5)

/-- One step of a program at a pixel, on its three buffers and its result (05 R124). -/
def State.runStep (s : State) (n : Nat) (pr : Program) (slots dead : List Nat) (x y : Int) (st : (Px × Px × Px) × Option Px)
    (w : Nat) : (Px × Px × Px) × Option Px :=
  let get (i : Nat) : Px := match i with | 0 => st.1.1 | 1 => st.1.2.1 | _ => st.1.2.2
  let put (p : Px) : (Px × Px × Px) × Option Px :=
    match stepDst w with
    | 0 => ((p, st.1.2.1, st.1.2.2), st.2)
    | 1 => ((st.1.1, p, st.1.2.2), st.2)
    | _ => ((st.1.1, st.1.2.1, p), st.2)
  let a := get (stepA w)
  let b := get (stepB w)
  let slot : Option Nat := (slots[stepSlot w]?).filter (fun l => !dead.contains l)
  let key10 (v : Nat) : Nat := min 1023 (v / 512)
  match stepOp w with
  | 1 => put (match slot with | some l => s.layerAt n l none x y | none => clear)
  | 2 =>
    let co (l : Nat) : Coefs := match bits w 1 0 with
      | 0 => defaultCoefs (s.dstSize l).1 (s.crop l).2.2.1 (s.dstSize l).2 (s.crop l).2.2.2
      | 1 => nearestCoefs
      | 2 => bilinearCoefs
      | _ => userCoefs pr.scaler
    put (match slot with | some l => s.layerAt n l (some (co l)) x y | none => clear)
  | 3 =>
    put (match slot with
      | some l =>
        (match warpPos pr.mesh (bits w 1 0) pr.rect x y with
         | some p => warpAt (s.cropSource n l) (s.crop l).2.2.1 (s.crop l).2.2.2 p.1 p.2
         | none => clear)
      | none => clear)
  | 4 =>
    (match bits w 1 0 with
     | 0 =>
       let m (i : Nat) : Int := pr.matrix.getD i 0
       let row (i : Nat) : Nat :=
         stage (m (4 * i) * a.r + m (4 * i + 1) * a.g + m (4 * i + 2) * a.b + m (4 * i + 3) * one19) one19
       put { r := row 0, g := row 1, b := row 2, a := a.a }
     | 1 => put a.premul
     | _ => put a.unpremul)
  | 5 =>
    let key := if bitOf w 30 then (slots[stepSlot w]?).elim 0 (fun l => s.lyr l 0x16) else w
    put (if key10 a.r = bits key 29 20 ∧ key10 a.g = bits key 19 10 ∧ key10 a.b = bits key 9 0 then clear else a)
  | 6 => put (a.scale b.a)
  | 7 => put (blend (bits w 2 0) (a.scale (bits w 22 3)) b)
  | 8 =>
    let c (v : Nat) : Nat := max (bits w 39 20) (min v (bits w 19 0))
    let al := min one19 (c a.a)
    let top (v : Nat) : Nat := if bitOf w 40 then min (c v) al else c v
    put { r := top a.r, g := top a.g, b := top a.b, a := al }
  | _ => (st.1, some a)

/-- A program's result at a pixel; `below` is the composite of the layers below it (05 R125). -/
def State.runProgram (s : State) (n h : Nat) (slots dead : List Nat) (x y : Int) (below : Px) : Px :=
  let pr := s.program h
  ((pr.steps.foldl (s.runStep n pr slots dead x y) ((below, clear, clear), none)).2).getD below

/-- Whether a slot of a program supplies the pixel (05 R119): some slot layer shows there with alpha above 0. -/
def State.slotSupplies (s : State) (n : Nat) (slots dead : List Nat) (x y : Int) : Bool :=
  slots.any (fun l => !dead.contains l && decide ((s.fixedLayer n l x y).a ≠ 0))

/-- The stack's accumulator at a pixel, with the supplied bit (05 R116, R117, R119, R125). -/
def State.accumulate (s : State) (n : Nat) (dead : List Nat) (x y : Int) (acc : Px × Bool) (e : Elem) : Px × Bool :=
  match e with
  | .layer l =>
    if dead.contains l then acc
    else
      let p := s.fixedLayer n l x y
      if (s.dstRect l).has x y then (blend (s.lyr l 0x15) p acc.1, acc.2 || decide (p.a ≠ 0)) else acc
  | .program h slots =>
    if (s.program h).rect.has x y then (s.runProgram n h slots dead x y acc.1, acc.2 || s.slotSupplies n slots dead x y) else acc

/-! ### The output stage (05 R132 to R135) -/

/-- The 3D LUT by tetrahedral interpolation (05 R132). -/
def lutApply (lut : List Nat) (p : Px) : Px :=
  let grid (v : Nat) : Nat × Nat := let u := isqrt (64 * v); (u / 256, u % 256)
  let (ri, rf) := grid p.r
  let (gi, gf) := grid p.g
  let (bi, bf) := grid p.b
  let word (r g b : Nat) : Nat := lut.getD ((b * 33 + g) * 33 + r) 0
  let w0 := word ri gi bi
  let w3 := word (ri + 1) (gi + 1) (bi + 1)
  let (f1, f2, f3, w1, w2) :=
    if gf ≤ rf ∧ bf ≤ gf then (rf, gf, bf, word (ri + 1) gi bi, word (ri + 1) (gi + 1) bi)
    else if bf ≤ rf ∧ gf ≤ bf then (rf, bf, gf, word (ri + 1) gi bi, word (ri + 1) gi (bi + 1))
    else if rf ≤ bf ∧ gf ≤ rf then (bf, rf, gf, word ri gi (bi + 1), word (ri + 1) gi (bi + 1))
    else if bf ≤ gf ∧ rf ≤ bf then (gf, bf, rf, word ri (gi + 1) bi, word ri (gi + 1) (bi + 1))
    else if rf ≤ gf ∧ bf ≤ rf then (gf, rf, bf, word ri (gi + 1) bi, word (ri + 1) (gi + 1) bi)
    else (bf, gf, rf, word ri gi (bi + 1), word ri (gi + 1) (bi + 1))
  let out (hi lo : Nat) : Nat :=
    stage ((bits w0 hi lo * (256 - f1) + bits w1 hi lo * (f1 - f2) + bits w2 hi lo * (f2 - f3) + bits w3 hi lo * f3 : Nat) : Int) 256
  { r := out 19 0, g := out 39 20, b := out 59 40, a := p.a }

/-- The encoded value of a linear component (05 R133). -/
def encodePanel (transfer gamma w v : Nat) : Nat :=
  let u := isqrt (v * 2 ^ 20)
  let i := u / 256
  let lo := panelEntry transfer gamma w i
  if 4096 ≤ i then panelEntry transfer gamma w 4096
  else (lo + roundI (((panelEntry transfer gamma w (i + 1) : Int) - lo) * (u % 256 : Nat)) 256).toNat

/-- The dither matrix (05 R134). -/
def ditherM (x y : Nat) : Nat := [0, 8, 2, 10, 12, 4, 14, 6, 3, 11, 1, 9, 15, 7, 13, 5].getD ((y % 4) * 4 + x % 4) 0

/-- The code of an encoded value (05 R134). `frame` is the lane frame counter. -/
def ditherCode (dither d frame x y e : Nat) : Nat :=
  let (tx, ty) : Nat × Nat := if bitOf dither 1 then
    (match frame % 4 with | 0 => (0, 0) | 1 => (2, 2) | 2 => (0, 2) | _ => (2, 0)) else (0, 0)
  let add := if bitOf dither 0 then (2 * ditherM (x + tx) (y + ty) + 1) * 2 ^ 14 else 2 ^ 18
  min (2 ^ d - 1) ((e * (2 ^ d - 1) + add) / 2 ^ 19)

/-- The output settings of a lane: transfer, gamma, white level, depth, dither, LUT. -/
structure OutSet where
  transfer : Nat
  gamma : Nat
  white : Nat
  depth : Nat
  dither : Nat
  lut : Option (List Nat)

def State.outSet (s : State) (n : Nat) : OutSet :=
  { transfer := s.laneNum n 4 5, gamma := s.laneNum n 4 6, white := s.laneNum n 4 7, depth := s.laneNum n 4 8,
    dither := s.laneNum n 4 9, lut := if s.laneNum n 4 3 = 1 then some (s.lane n).lut else none }

/-- The stored word of a composed pixel (05 R131 to R135). -/
def storedWord (o : OutSet) (cls frame x y : Nat) (p : Px) : Nat :=
  let q := match o.lut with | some t => lutApply t p | none => p
  let code (v : Nat) : Nat :=
    ditherCode o.dither o.depth frame x y (encodePanel o.transfer o.gamma o.white v) * 2 ^ (10 - o.depth)
  cls * 2 ^ 30 + code q.r * 2 ^ 20 + code q.g * 2 ^ 10 + code q.b

/-! ### Tiles -/

/-- A sealed indication pixel: its palette colour, opaque (13 R358). -/
def State.indPixel (s : State) (x y : Int) : Option Px :=
  let r := rectOf (s.num 0x7801 7)
  if s.smu.indPlaced && r.has x y then
    match s.smu.bound with
    | some b =>
      let w := (r.x1 - r.x0).toNat
      let v := (s.smu.rasters.getD b []).getD ((y - r.y0).toNat * w + (x - r.x0).toNat) 0
      let pal := valContent (s.obj 0x7801 0xA)
      some { fillPx (leNat ((pal.drop (12 * v)).take 8)) with a := one19 }
    | none => none
  else none

/-- The lane background, opaque (05 R117). -/
def State.background (s : State) (n : Nat) : Px := { fillPx (s.laneNum n 4 1) with a := one19 }

/-- The pixels of a rectangle in raster order. -/
def Rect.pixels (r : Rect) : List (Int × Int) :=
  (List.range (r.y1 - r.y0).toNat).flatMap (fun (dy : Nat) =>
    (List.range (r.x1 - r.x0).toNat).map (fun (dx : Nat) => (r.x0 + dx, r.y0 + dy)))

/-- A pixel finished from an accumulator: the stack above, SAFETY layers, the sealed indication, its class, its word
(01 R17, 04 R99, 05 R119). -/
def State.finishPixel (s : State) (n : Nat) (dead : List Nat) (above : List Elem) (safe : List Nat) (o : OutSet) (frame : Nat)
    (acc : Px × Bool) (xy : Int × Int) : Nat :=
  let (x, y) := xy
  let nrm := above.foldl (s.accumulate n dead x y) acc
  let sf := safe.foldl (fun (q : (Px × Bool) × Bool) l =>
    let p := if dead.contains l then clear else s.fixedLayer n l x y
    if (s.dstRect l).has x y then ((blend (s.lyr l 0x15) p q.1.1, q.1.2 || decide (p.a ≠ 0)), q.2 || decide (p.a ≠ 0)) else q) (nrm, false)
  match (if s.num 0x7801 6 = n then s.indPixel x y else none) with
  | some p => storedWord o 2 frame x.toNat y.toNat p
  | none =>
    let cls := if sf.2 then 1 else if !sf.1.2 then 3 else 0
    storedWord o cls frame x.toNat y.toNat sf.1.1

/-- Where a lane frame's pixel is held in `State.frames`. -/
def frameKey (n : Nat) (x y : Nat) : Nat := n * 2 ^ 32 + y * 2 ^ 16 + x

/-- The stored word of a pixel; a frame filled with black of class 3 lists nothing (07 R192 step 4). -/
def State.pixel (s : State) (n x y : Nat) : Nat := (tabGet (0xC000_0000 : Word) s.frames (frameKey n x y)).toNat

def State.setPixel (s : State) (n x y w : Nat) : State :=
  { s with frames := if BitVec.ofNat 32 w = (0xC000_0000 : Word) then tabErase s.frames (frameKey n x y)
                     else tabSet s.frames (frameKey n x y) (BitVec.ofNat 32 w) }

/-- Words written to the pixels of a rectangle in raster order. -/
def State.setPixels (s : State) (n : Nat) (ws : List ((Int × Int) × Nat)) : State :=
  ws.foldl (fun t p => t.setPixel n p.1.1.toNat p.1.2.toNat p.2) s

end Sys2Proof.Machine
end

