-- ==== Sys2Proof/Machine/Translate.lean ====
section
/-! DEFINITION. Address translation, translation faults, backing, and reads and writes of a crew's storage (04 R72, R73,
11 R291 to R294). -/

namespace Sys2Proof.Machine

open Sys2Proof

/-- CREW.XLT_ROOT (11 R316): enable, location (true: host bus), base. -/
def State.xltRoot (s : State) (c : Nat) : Bool × Bool × Nat :=
  let lo := s.reg ((Block.crew c).base + 0x60) 0
  let hi := s.reg ((Block.crew c).base + 0x64) 0
  (bitOf lo 0, bitOf lo 1, bits hi 19 0 * 2 ^ 32 + bits lo 31 12 * 2 ^ 12)

/-- One table entry; none where the table lies outside the aperture or behind a link that is down (11 R291). -/
def State.xltEntry (s : State) (c : Nat) (host : Bool) (a : Nat) : Option Nat :=
  if host then (if (s.port (c / 128)).linkUp then some (memNat s.hostMem (hostKey (c / 128) a) 8) else none)
  else if a + 8 ≤ 0x1000_0000 then some (memNat s.aperture (apertureKey c a) 8) else none

/-- The cause of a fault, or a page's bus base and permissions as base + write × 2 + read (11 R291, R316). -/
def State.walkFrom (s : State) (c : Nat) (host : Bool) (va : Nat) : Nat → Nat → Except Nat Nat
  | 0, _ => .error 6
  | k + 1, table =>
    match s.xltEntry c host (table + bits va (20 + 9 * k) (12 + 9 * k) * 8) with
    | none => .error 6
    | some e =>
      let leafBit := bitOf e 3
      let addr := bits e 51 12 * 4096
      if !bitOf e 0 then .error 1
      else if bits e 63 52 ≠ 0 ∨ bits e 11 4 ≠ 0 then .error 5
      else if k = 0 then (if leafBit then .error 5 else .ok (addr + bits e 2 1))
      else if leafBit then
        (if k = 1 ∧ bits e 20 12 = 0 then .ok (addr + bits va 20 12 * 4096 + bits e 2 1) else .error 5)
      else s.walkFrom c host va k addr

/-- The page of an I/O virtual address: cached, or walked and then cached (11 R291, R292, notes/assumptions/13). -/
def State.xltPage (s : State) (c va : Nat) (write : Bool) : State × Except Nat Nat :=
  let check (e : Nat) : Except Nat Nat :=
    if write then (if bitOf e 1 then .ok (e / 4096 * 4096) else .error 3)
    else (if bitOf e 0 then .ok (e / 4096 * 4096) else .error 2)
  if 2 ^ 48 ≤ va then (s, .error 4)
  else
    match tabFind (s.crew c).xltCache (va / 4096) with
    | some e => (s, check e)
    | none =>
      let (on, host, base) := s.xltRoot c
      if !on then (s, .error 7)
      else
        match s.walkFrom c host va 4 base with
        | .error x => (s, .error x)
        | .ok e => (s.modCrew c (fun k => { k with xltCache := tabSet k.xltCache (va / 4096) e }), check e)

/-- A translation fault (11 R293): recorded, raised and posted where no record is held, else only counted. -/
def State.xltFault (s : State) (c addr cause requester detail : Nat) (write : Bool) : State :=
  if (s.statusAt (crewStatus c)).has 0 then s.modCrew c (fun k => { k with xltFaultCount := (k.xltFaultCount + 1) % 2 ^ 32 })
  else
    let info := detail % 2048 * 2 ^ 16 + requester % 16 * 2 ^ 8 + b2n write * 16 + cause
    ((s.modCrew c (fun k => { k with xltFaultAddr := addr % 2 ^ 64, xltFaultInfo := info })).raiseCrew c 0).post c
      (eventWord 0x18 0xF cause requester addr)

/-- The pages of a range translated in order; the first fault stops it and is recorded (11 R293). -/
def State.xltRange (s : State) (c : Nat) (write : Bool) (requester detail : Nat) : List Nat → State × Bool
  | [] => (s, true)
  | a :: rest =>
    match s.xltPage c a write with
    | (t, .ok _) => t.xltRange c write requester detail rest
    | (t, .error x) => (t.xltFault c a x requester detail write, false)

/-- The first address of each page that a range touches. -/
def pagesOf (a n : Nat) : List Nat :=
  if n = 0 then []
  else (List.range ((a + n - 1) / 4096 - a / 4096 + 1)).map (fun i => if i = 0 then a else (a / 4096 + i) * 4096)

/-! ### Backing (04 R73) -/

/-- Backs the granules of a range; false where no device memory is left for them. -/
def State.back (s : State) (c a n : Nat) : State × Bool :=
  let need := (granulesOf a n).filter (fun g => !(s.crew c).granules.contains g)
  if need.isEmpty then (s, true)
  else
    let used := (s.crews.map (fun p => p.2.granules.length)).sum
    if (used + need.length) * (2 * mib) ≤ s.backingCapacity then
      ((s.modCrew c (fun k => { k with granules := k.granules ++ need })).lp5Up, true)
    else (s, false)

/-! ### Uncorrectable units (07 R173, 11 R309) -/

/-- The device address of an aperture byte: bits [20:0] are the offset's own (04 R73). -/
def deviceAddr (c offset : Nat) : Nat := Config.granuleBase c (offset / (2 * mib)) + offset % (2 * mib)

/-- An uncorrectable unit is held as its address × 2, plus 1 in LP5X. -/
def badUnit (lp5 : Bool) (addr : Nat) : Nat := addr * 2 + b2n lp5

/-- An uncorrectable unit raises its channel's umpire source with its address. -/
def State.unitError (s : State) (lp5 : Bool) (a : Nat) : State := s.occur ((if lp5 then 120 else 112) + channelAt a) a

/-- The first uncorrectable unit (32 bytes of the boathouse, 8 bytes of LP5X) that a device address range meets, `at_ i` its i-th byte. -/
def State.badAt (s : State) (lp5 : Bool) (at_ : Nat → Nat) (n : Nat) : Option Nat :=
  if s.placement.badUnits = [] then none
  else
    let unit := if lp5 then 8 else 32
    (s.placement.badUnits.filter (fun u => decide (u % 2 = b2n lp5))).findSome? (fun u =>
      if (List.range n).any (fun i => decide (at_ i / unit = u / 2 / unit)) then some (u / 2) else none)

/-- The first uncorrectable unit in an aperture range of a surface that lies in one memory. -/
def State.badIn (s : State) (c : Nat) (lp5 : Bool) (a n : Nat) : Option Nat := s.badAt lp5 (fun i => deviceAddr c (a + i)) n

/-- The first uncorrectable unit in an aperture range, whichever memory backs it. -/
def State.badRead (s : State) (c a n : Nat) : Option (Bool × Nat) :=
  if s.placement.badUnits = [] then none
  else
    (granulesOf a n).findSome? (fun g =>
      let lo := max a (g * (2 * mib))
      let hi := min (a + n) ((g + 1) * (2 * mib))
      let lp5 := s.granuleLp5 c g
      (s.badIn c lp5 lo (hi - lo)).map (fun u => (lp5, u)))

/-! ### Reads and writes of a crew's storage -/

/-- Translates a range of a crew's storage, or backs it in the aperture; a fault is recorded (11 R293). -/
def State.transRange (s : State) (c : Nat) (host : Bool) (a n : Nat) (write : Bool) (requester detail : Nat) : State × Bool :=
  if host then s.xltRange c write requester detail (pagesOf a n)
  else if a + n ≤ 0x1000_0000 then
    (if write then
      match s.back c a n with
      | (t, true) => (t, true)
      | (t, false) => (t.xltFault c a 8 requester detail write, false)
     else (s, true))
  else (s.xltFault c a 4 requester detail write, false)

/-- The same, and its target answers: a host range behind a link that is down does not (01 R10). -/
def State.reachRange (s : State) (c : Nat) (host : Bool) (a n : Nat) (write : Bool) (requester detail : Nat) : State × Bool :=
  match s.transRange c host a n write requester detail with
  | (t, ok) => (t, ok && (!host || (t.port (c / 128)).linkUp))

/-- A byte range read; none where it cannot be reached, or meets an uncorrectable unit, which raises its umpire source (07 R173, 11 R309). -/
def State.readCrew (s : State) (c : Nat) (host : Bool) (a n requester detail : Nat) : State × Option (List Byte) :=
  match s.reachRange c host a n false requester detail with
  | (t, true) =>
    match if host then none else t.badRead c a n with
    | some u => (t.unitError u.1 u.2, none)
    | none => (t, some ((List.range n).map (fun i => t.crewByte c host (a + i))))
  | (t, false) => (t, none)

/-- Bytes stored at reached addresses. -/
def State.storeCrew (s : State) (c : Nat) (host : Bool) (a : Nat) : List Byte → State
  | [] => s
  | b :: bs =>
    (if host then
      match tabFind (s.crew c).xltCache (a / 4096) with
      | some e => { s with hostMem := memWrite s.hostMem (hostKey (c / 128) (e / 4096 * 4096 + a % 4096)) b }
      | none => s
     else { s with aperture := memWrite s.aperture (apertureKey c a) b }).storeCrew c host (a + 1) bs

/-- A byte range written whole; false where it cannot be reached. -/
def State.writeCrew (s : State) (c : Nat) (host : Bool) (a : Nat) (bs : List Byte) (requester detail : Nat) : State × Bool :=
  match s.reachRange c host a bs.length true requester detail with
  | (t, true) => (t.storeCrew c host a bs, true)
  | (t, false) => (t, false)

/-! ### Prefetch copies (06 R144) -/

/-- The byte ranges of a surface layer's samples in columns x0 to x1 and lines y0 to y1, ends exclusive: address and length, line by line and
plane by plane, with the palette (04 R74, R75). -/
def State.rectRanges (s : State) (l x0 x1 y0 y1 : Nat) : List (Nat × Nat) :=
  let f := s.lyr l 7
  if x1 ≤ x0 ∨ y1 ≤ y0 then []
  else
    let per (v : Nat) : Nat := lineBytes0 f v
    let line (y : Nat) : Nat × Nat :=
      let b := if f = 0x23 then x0 / 8 else per x0
      (s.lyr l 9 + y * s.lyr l 0xC + b, per x1 - b)
    let chroma (base y : Nat) : Nat × Nat :=
      let b := lineBytes12 f (x0 / 2 * 2)
      (s.lyr l 9 + base + y * s.lyr l 0xD + b, lineBytes12 f ((x1 + 1) / 2 * 2) - b)
    let lines := (List.range (y1 - y0)).map (· + y0)
    let cy0 := if subY f then (y0 - 1) / 2 else y0
    let cy1 := if subY f then min ((y1 - 1 + 1) / 2 + 1) ((s.srcSize l).2 / 2) else y1
    let clines := (List.range (cy1 - cy0)).map (· + cy0)
    lines.map line ++
    (if 2 ≤ planesOf f then clines.map (chroma (s.lyr l 0xA)) else []) ++
    (if 3 ≤ planesOf f then clines.map (chroma (s.lyr l 0xB)) else []) ++
    (if f = 0x21 then [(s.lyr l 0x1A, 1024)] else [])

/-- A range of host memory copied into the boathouse; a fault is recorded, and what was copied before stays (notes/assumptions/99). -/
def State.prefetchRange (s : State) (c l : Nat) (r : Nat × Nat) : State :=
  match s.readCrew c true r.1 r.2 1 l with
  | (t, some bs) => { t with prefetch := memWrites t.prefetch (hostKey c r.1) bs }
  | (t, none) => t

/-- The copy of a layer's surface as a configuration `g` gives it: whole, or of rectangles of it. -/
def State.prefetchLayer (s g : State) (l : Nat) (whole : Bool) (rects : List (Nat × Nat × Nat × Nat)) : State :=
  let (w, h) := g.srcSize l
  let ranges := if whole then g.planes l
    else rects.flatMap (fun q => g.rectRanges l q.1 (min q.2.2.1 w) q.2.1 (min q.2.2.2 h))
  ranges.foldl (fun t r => t.prefetchRange ((g.layer l).owner.getD 0) l r) s

/-! ### Fences (04 R90, R92) -/

/-- A fence's value; none where the read fails, which records the crew's fault. -/
def State.fenceValue (s : State) (c : Nat) (host : Bool) (addr : Nat) : State × Option Nat :=
  match s.readCrew c host addr 8 4 0 with
  | (t, some bs) => (t, some (leNat bs))
  | (t, none) => (t, none)

/-- Writes a FENCE_SIGNAL's value; a fault leaves it unwritten (11 R294). -/
def State.fenceWrite (s : State) (c : Nat) (host : Bool) (addr value : Nat) : State :=
  (s.writeCrew c host addr (leBytes 8 value) 4 0).1

/-- A fence address word: location and address (04 R90). -/
def fenceHost (w : Nat) : Bool := bitOf w 0
def fenceAddr (w : Nat) : Nat := bits w 61 3 * 8

end Sys2Proof.Machine
end

