-- ==== Sys2Proof/Machine/Checks.lean ====
section
/-! DEFINITION. The consistency checks of a resulting configuration (04 R75, R79, R83, 05 R113, R118, R125, R140, 07 R177, R181,
R186 to R188, 08 R200, R205, R209, R211, R215, 12 R318, R326, 16 R418). -/

namespace Sys2Proof.Machine

open Sys2Proof

/-- Formats subsampled horizontally (04 R74). -/
def subX (f : Nat) : Bool := decide (f = 0x10 ∨ f = 0x11 ∨ f = 0x12 ∨ f = 0x13 ∨ f = 0x14 ∨ f = 0x15)

/-- The crop lies within the source (04 R75). -/
def State.cropOk (s : State) (l : Nat) : Bool :=
  let (w, h) := s.srcSize l
  let cs := s.lyr l 0x10
  let (x, y, cw, ch) := s.crop l
  if cs = 0 then decide (s.lyr l 0xF = 0)
  else decide (cw ≠ 0) && decide (ch ≠ 0) && decide (x + cw ≤ w) && decide (y + ch ≤ h)

/-- A surface description meets 04 R75, in a format that is not a camera stream's (04 R74). DEDUCED (log 43): a write of a RAW code stands
until a commit would use it. -/
def State.surfaceOk (s : State) (l : Nat) : Bool :=
  let f := s.lyr l 7
  let (w, h) := s.srcSize l
  let (x, y, cw, ch) := s.crop l
  let a := s.lyr l 9
  let p := planesOf f
  decide (f < 0x30) && within 1 8192 w && within 1 8192 h && s.cropOk l &&
  decide (a % 64 = 0) && (decide (p < 2) || decide (s.lyr l 0xA % 64 = 0)) && (decide (p < 3) || decide (s.lyr l 0xB % 64 = 0)) &&
  (f != 0x21 || decide (s.lyr l 0x1A % 64 = 0)) &&
  decide (s.lyr l 0xC % 64 = 0) && decide (lineBytes0 f w ≤ s.lyr l 0xC) &&
  (decide (p < 2) || (decide (s.lyr l 0xD % 64 = 0) && decide (lineBytes12 f w ≤ s.lyr l 0xD))) &&
  (!subX f || (decide (w % 2 = 0) && decide (x % 2 = 0) && decide (cw % 2 = 0))) &&
  (!subY f || (decide (h % 2 = 0) && decide (y % 2 = 0) && decide (ch % 2 = 0))) &&
  (s.lyr l 8 != 0 || (s.planes l).all (fun q => decide (q.1 + q.2 ≤ 0x1000_0000)))

/-- Scale limit: dst ÷ crop between 1/16 and 16 on each axis, without a program (04 R83). -/
def State.scaleOk (s : State) (l : Nat) : Bool :=
  let (_, _, cw, ch) := s.crop l
  let (dw, dh) := s.dstSize l
  (s.layerProgram l).isSome ||
  (decide (cw ≠ 0) && decide (ch ≠ 0) && decide (cw ≤ 16 * dw) && decide (dw ≤ 16 * cw) && decide (ch ≤ 16 * dh) && decide (dh ≤ 16 * ch))

/-- A layer is consistent (04 R75, R79, R83, 05 R113, R125); a fill has no surface to check, but
its rectangles meet the scale limit. -/
def State.layerOk (s : State) (l : Nat) : Bool :=
  let rating := s.lyr l 3
  let src := s.lyr l 6
  (rating != 1 || src == 2) &&
  (src != 2 || ((rating == 1 || rating == 0) && (s.slotOf (s.lyr l 0x18)).isSome && s.cropOk l)) &&
  (src != 1 || s.surfaceOk l) &&
  s.scaleOk l &&
  !(src == 1 && s.lyr l 7 == 5 && bitOf (s.lyr l 0x16) 63) &&
  (s.safety l || s.lyr l 0x1C == 0 || (s.layerProgram l).isSome)

/-- Programs in effect on a lane share no tile and are at most 16 (05 R125, R140). -/
def State.programsOk (s : State) (n : Nat) : Bool :=
  let ps := (s.programs.filter (fun p => p.2.inEffect && decide (p.2.lane = n))).map Prod.snd
  decide (ps.length ≤ 16) &&
  (s.allTiles n).all (fun t => decide ((ps.filter (fun p => ((p.rect).inter (s.tileRect n t)).nonempty)).length ≤ 1))

/-! ### Timing (07 R177, R181, R186 to R188) -/

def State.timingOk (s : State) (n : Nat) : Bool :=
  let ha := s.laneNum n 1 1; let hf := s.laneNum n 1 2; let hs := s.laneNum n 1 3; let ht := s.laneNum n 1 4
  let va := s.laneNum n 1 5; let vs := s.laneNum n 1 6; let vb := s.laneNum n 1 7; let pc := s.laneNum n 1 8
  let bmin := s.laneNum n 2 4; let bmax := s.laneNum n 2 5
  let vary := decide (s.laneNum n 2 1 = 1) || s.leadSet n || s.genlocked n
  within 64 7680 ha && decide (ha % 2 = 0) && decide (8 ≤ hf) && decide (4 ≤ hs) && decide (ht ≤ 16383) &&
  decide (ha + hf + hs + 8 ≤ ht) && decide (ha + 32 ≤ ht) && within 32 4320 va && decide (1 ≤ vs) && decide (1 ≤ vb) &&
  decide (vs + vb + 1 ≤ bmin) && (!vary || (decide (bmin ≤ bmax) && decide (va + bmax ≤ 16383))) &&
  within 20000000 1250000000 pc && decide (s.laneNum n 0 0x10 ≤ va - 1)

/-- Camera lock: the limits of M, D and U, and the stream's frame period in the lane's window (07 R177, R186). -/
def State.leadOk (s : State) (n : Nat) : Bool :=
  let m := s.laneNum n 2 6
  let (d, u) := s.reach n
  !s.leadSet n ||
  (within 34 128 m && decide (s.laneNum n 1 6 + s.laneNum n 1 7 ≤ m + d) && decide (m + d + u ≤ 129) &&
   (match s.slotOf (s.lockStream n) with
    | some k =>
      let lines (b : Nat) : Nat := (s.laneH n + b) * s.laneNum n 1 4
      decide (lines (s.laneNum n 2 4) * s.slotNum k 5 ≤ 100 * s.laneNum n 1 8) &&
      decide (100 * s.laneNum n 1 8 ≤ lines (s.laneNum n 2 5) * s.slotNum k 5)
    | none => false))

/-- The members of a lane's genlock group, enabled, in ascending number (07 R187). -/
def State.groupOf (s : State) (n : Nat) : List Nat :=
  let g := s.laneNum n 6 1
  if g = 0 then [n] else (List.range 8).filter (fun k => s.laneOn k && decide (s.laneNum k 6 1 = g))

/-- The source of a lane's group: its camera-locked member, else its lowest; none where it follows the cascade (07 R187). -/
def State.leader (s : State) (n : Nat) : Option Nat :=
  let ms := s.groupOf n
  if s.laneNum n 6 2 = 1 then none
  else match ms.find? s.leadSet with
    | some k => some k
    | none => ms.head?

/-- Frame-time window of a lane as (minimum, maximum) vertical totals times h_total, over its pixel clock. -/
def State.windowIn (s : State) (a b : Nat) : Bool :=
  let t (n blank : Nat) : Nat := (s.laneH n + s.laneNum n 2 blank) * s.laneNum n 1 4
  decide (t a 4 * s.laneNum b 1 8 ≤ t b 4 * s.laneNum a 1 8) && decide (t b 5 * s.laneNum a 1 8 ≤ t a 5 * s.laneNum b 1 8)

def State.genlockOk (s : State) (n : Nat) : Bool :=
  let ms := s.groupOf n
  decide (s.laneNum n 6 1 = 0) ||
  (ms.all (fun k => decide (s.laneNum k 6 2 = s.laneNum n 6 2)) && decide ((ms.filter s.leadSet).length ≤ 1) &&
   (match s.leader n with
    | some k => ms.all (fun m => decide (m = k) || s.windowIn m k)
    | none => true))

/-! ### Ports (08 R200, R205, R209, R211, R215) -/

/-- Link rates of eDP in Mbit/s by code (08 R200, R227). -/
def edpRate (c : Nat) : Nat := [1620, 2160, 2430, 2700, 3240, 4320, 5400, 8100].getD c 0

/-- The bandwidth B a lane needs, in bit/s × 16 × h_total (08 R205). -/
def State.needB (s : State) (n : Nat) : Nat :=
  s.laneNum n 1 8 * s.laneNum n 1 1 * (if s.laneNum n 7 7 = 1 then s.laneNum n 7 9 else 3 * s.laneNum n 4 8 * 16)

/-- The capacity C of lanes at a rate of M units per second, × 70,000: by port type (08 R205). -/
def linkC (type lanes mega : Nat) : Nat :=
  match type with
  | 0 => lanes * mega * 1000000 * 54320
  | 1 => lanes * mega * 1000000 * 63000
  | _ => lanes * mega * 1000000 * 144000

/-- A rate passes 08 R205 for a lane. -/
def State.passes (s : State) (n lanes mega : Nat) : Bool :=
  decide (s.needB n * 70000 ≤ linkC (s.laneNum n 7 1) lanes mega * 16 * s.laneNum n 1 4)

/-- The dsi_rate in use: 0 selects the lowest multiple of 10, at least 80, that passes (08 R205). -/
def State.dsiRate (s : State) (n : Nat) : Option Nat :=
  let top := if s.laneNum n 7 1 = 1 then 4500 else 6000
  let r := s.laneNum n 7 4
  if r = 0 then ((List.range 601).map (· * 10)).find? (fun m => decide (80 ≤ m) && decide (m ≤ top) && s.passes n (s.laneNum n 7 2) m)
  else if within 80 top r && s.passes n (s.laneNum n 7 2) r then some r else none

def State.portOk (s : State) (n : Nat) : Bool :=
  let type := s.laneNum n 7 1
  let lanes := s.laneNum n 7 2
  let cmd := type != 0 && bitOf (s.laneNum n 7 5) 0
  (match type with
   | 0 => (lanes == 1 || lanes == 2 || lanes == 4) && s.passes n lanes (edpRate (s.laneNum n 7 3))
   | 1 => within 1 4 lanes && (s.dsiRate n).isSome
   | _ => within 1 3 lanes && (s.dsiRate n).isSome) &&
  !(cmd && (decide (s.laneNum n 2 1 = 1) || s.leadSet n || s.genlocked n)) &&
  (s.laneNum n 7 0xC == 0 || !s.leadSet n)

def State.dscOk (s : State) (n : Nat) : Bool :=
  let sl := s.laneNum n 7 0xA
  let sh := s.laneNum n 7 0xB
  let d := s.laneNum n 4 8
  let bpc := s.laneNum n 7 8
  s.laneNum n 7 7 == 0 ||
  ((sl == 1 || sl == 2 || sl == 4 || sl == 8) && decide (s.laneW n % sl = 0) && decide (s.laneW n / sl % 2 = 0) && decide (s.laneW n / sl ≤ 2560) &&
   (sh == 0 || decide (s.laneH n % sh = 0)) && within 96 (16 * 3 * bpc) (s.laneNum n 7 9) &&
   decide (s.laneNum n 1 8 ≤ sl * 400000000) && (d == 8 || d == 10) && (bpc == d || (bpc == 12 && d == 10)))

/-! ### Check regions (12 R318, R326) -/

def State.regionOk (s : State) (n i : Nat) : Bool :=
  let x := regionIx n i
  let r := rectOf (s.num x 2)
  s.num x 1 == 0 ||
  (r.nonempty && r.inside (s.active n) && (s.num x 1 != 2 || bits (s.num x 4) 15 14 != 0))

/-! ### Spans (16 R418) -/

/-- The span headed by a lane of this device. -/
def State.spanOf (s : State) (n : Nat) : Option Nat :=
  (List.range 4).find? (fun j => decide (s.num (spanIx j) 1 = n))

def State.spanOk (s : State) (n : Nat) : Bool :=
  match s.spanOf n with
  | none => true
  | some j =>
    let x := s.num (spanIx j) 4
    let o := s.num (spanIx j) 5
    decide (s.laneW n = x + o) && decide (s.laneNum n 6 2 = 1) && !s.leadSet n &&
    (s.layersOn n).all (fun l => s.lyr l 6 != 2 && (s.layerProgram l).isNone)

def State.link (s : State) (k : Nat) : Link := s.cascade.links.getD k blankLink

/-- The nodes behind a link: its peer, and those that are not the other link's peer where that one is not up or this peer passes on
(16 R415: the nodes form a line). -/
def State.behind (s : State) (k n : Nat) : Bool :=
  let o := s.link (1 - k)
  decide (n = (s.link k).peer) ||
  (decide (o.mode ≠ .up) || (decide (n ≠ o.peer) && decide ((s.node (s.link k).peer).links = 3)))

/-- The copy traffic of a span in bytes per second, at its layers' rates (16 R419). -/
def State.spanRate (s : State) (j : Nat) : Rat :=
  (s.surfaceLayers.filter (fun l => decide (s.lyr l 2 = s.num (spanIx j) 1))).foldl
    (fun m l => m + (s.surfaceBytes l : Rat) * s.layerRate (s.lyr l 2) l) 0

/-- The copy traffic over a link. -/
def State.linkRate (s : State) (k : Nat) : Rat :=
  ((List.range 4).filter (fun j => decide (s.num (spanIx j) 1 ≠ 0xFF) && s.behind k (s.num (spanIx j) 2 % 4))).foldl
    (fun m j => m + s.spanRate j) 0

/-- What the cascade refuses a commit on span head lanes with: a partner out of reach or not yet copied to again, or copy traffic above
70 % of a link's 14.0 GB/s (16 R419, R424, R425). -/
def State.spanRefusal (s : State) (lanes : List Nat) : Option (Abort × Option Refused) :=
  let js := lanes.filterMap s.spanOf
  if js.any (fun j => !(s.node (s.num (spanIx j) 2 % 4)).reachable || s.cascade.spanHeld.testBit j) then some (.nodeUnreachable, none)
  else
    match ([0, 1].filter (fun k => decide (9_800_000_000 < s.linkRate k) && js.any (fun j => s.behind k (s.num (spanIx j) 2 % 4)))).head? with
    | some k => some (.oversubscribed, some (0xFD, 0xFF, ((s.linkRate k - 9_800_000_000) / 1000000).ceil.toNat))
    | none => none

/-! ### The whole -/

/-- Aggregate limits over every enabled lane (01 R2, 07 R181). -/
def State.aggregateOk (s : State) : Bool :=
  let lanes := (List.range 8).filter s.laneOn
  decide ((lanes.map (fun n => s.laneW n * s.laneH n)).sum ≤ 40000000) &&
  decide ((lanes.foldl (fun m n =>
    m + ((s.laneW n * s.laneH n * s.laneNum n 1 8 : Nat) : Rat) / ((s.laneNum n 1 4 * s.vTotal n : Nat) : Rat)) (0 : Rat)) ≤ 2400000000)

/-- The checks of one lane of a resulting configuration; programs and the layers of a tile on every lane (05 R118, R125, R140), timing and
port on an enabled one. -/
def State.laneCheck (s : State) (n : Nat) : Option Abort :=
  let ls := s.layersOn n
  if 128 < ls.length then some .quota
  else if !(ls.all s.layerOk) then some .valueConflict
  else if !(s.programsOk n) || !((s.allTiles n).all (fun t => decide (s.tileLayers n t ≤ 32))) then some .valueConflict
  else if !(s.laneOn n) then none
  else if s.timingOk n && s.leadOk n && s.genlockOk n && s.portOk n && s.dscOk n && s.spanOk n && (List.range 32).all (s.regionOk n)
  then none
  else some .valueConflict

/-- The consistency checks of the lanes of a commit (04 R83). -/
def State.consistent (s : State) (lanes : List Nat) : Option Abort :=
  match lanes.findSome? s.laneCheck with
  | some a => some a
  | none => if s.aggregateOk then none else some .valueConflict

end Sys2Proof.Machine
end

