-- ==== Sys2Proof/Machine/Heats.lean ====
section
/-! DEFINITION. Damage, flat tiles, the binding of a heat at a catch and the division of best-effort blade time (04 R81, 05 R104 to
R106, R127 to R130, 06 R147, R161 to R163, R166, 09 R242). A damage entry is a tile with its cause: 0 the whole lane, 1 + l
layer l, 0x1_0000 + st stream st, 0x2_0000 + l damage of layer l that was held or merged. -/

namespace Sys2Proof.Machine

open Sys2Proof

/-! ### Damage -/

/-- Self-refresh ends: sr_exit is raised, a DSI link leaves ULPS, and the lane restarts once its synthesizer is locked again (07 R196, 08
R209). -/
def State.leaveSelfRefresh (s : State) (n : Nat) : State :=
  if (s.lane n).mode = .selfRefresh then
    let t := (s.endRefresh n).modLane n (fun l => { l with quietFrames := 0, gated := false })
    if s.laneNum n 7 1 ≠ 0 ∧ (s.lane n).link = .lowPower then t.send (.ulps n false) else t
  else s

/-- The layer a damage entry comes from. -/
def causeLayer (c : Nat) : Option Nat :=
  if c = 0 then none else if c < 0x1_0000 then some (c - 1) else if c < 0x2_0000 then none else some (c - 0x2_0000)

/-- The layer that causes damage is no longer quiet (05 R127). -/
def State.stir (s : State) (cause : Nat) : State :=
  match causeLayer cause with
  | some l => s.modLayer l (fun q => { q with quiet := 0, stirred := true })
  | none => s

/-- Tiles of a lane damaged for a cause; a lane that is off has none. Damage ends self-refresh (07 R196). -/
def State.damage (s : State) (n : Nat) (tiles : List Nat) (cause : Nat) : State :=
  if (s.lane n).mode = .off ∨ (s.lane n).mode = .limp ∨ tiles = [] then s
  else
    ((s.modLane n (fun l =>
      { l with damage := l.damage ++ (tiles.map (fun t => (t, cause))).filter (fun e => !l.damage.contains e) })).stir cause).leaveSelfRefresh n

/-- Every tile of the lane damaged (04 R81, 07 R192 step 4). -/
def State.damageAll (s : State) (n : Nat) : State := s.damage n (s.allTiles n) 0

/-- The footprint of a layer damaged on its lane as a configuration `g` shows it there (04 R81). -/
def State.damageLayer (s g : State) (l : Nat) : State :=
  if g.lyr l 6 = 0 ∨ (g.layer l).owner.isNone then s
  else s.damage (g.lyr l 2) (g.tilesIn (g.lyr l 2) (g.wholeDamage (g.lyr l 2) l)) (1 + l)

/-- The layers of a lane that show a stream (04 R81). -/
def State.showing (s : State) (n stream : Nat) : List Nat :=
  (s.layersOn n).filter (fun l => decide (s.lyr l 6 = 2) && decide (s.lyr l 0x18 = stream))

/-- A published frame damages the footprint of each layer that shows its stream (04 R81, 09 R238). -/
def State.damageStream (s : State) (stream : Nat) : State :=
  (List.range 8).foldl (fun t n =>
    (s.showing n stream).foldl (fun u l => u.damage n (s.tilesIn n (s.wholeDamage n l)) (0x1_0000 + stream)) t) s

/-! ### Flat tiles (05 R127 to R130) -/

/-- A layer that may be flattened now (05 R127). -/
def State.flattens (s : State) (n l : Nat) : Bool :=
  (decide (s.lyr l 3 = 4) || decide (s.lyr l 3 = 3)) && decide (s.lyr l 6 ≠ 2) && decide (s.lyr l 0x1C = 0) &&
  !bitOf (s.lyr l 0x1B) 0 && decide (s.laneNum n 4 2 ≤ (s.layer l).quiet)

/-- The flat depth of a tile: how many layers from the background up may be flattened (05 R127). -/
def State.flatDepth (s : State) (n t : Nat) : Nat :=
  if s.laneNum n 4 2 = 0 then 0
  else ((s.stack n t).takeWhile (fun e => match e with | .layer l => s.flattens n l | .program _ _ => false)).length

/-- What decides which layers cover a tile and their order (05 R129): the covering normal layers with their order, rating,
program and source. -/
def State.flatSign (s : State) (n t : Nat) : List Nat :=
  ((s.covering n t).filter (fun l => !s.safety l)).flatMap (fun l => [l, s.lyr l 4, s.lyr l 3, s.lyr l 0x1C, s.lyr l 6])

/-- The layers of a flat tile's signature at or below its depth. -/
def FlatTile.below (f : FlatTile) : List Nat :=
  (List.range f.depth).map (fun i => f.layers.getD (5 * i) 0)

/-- Flat tiles of a lane that damage or a change of their stack invalidates are dropped (05 R129). -/
def State.dropFlat (s : State) (n : Nat) : State :=
  s.modLane n (fun k => { k with flat := k.flat.filter (fun p =>
    decide (s.flatSign n p.1 = p.2.layers) &&
    !(k.damage.any (fun d => decide (d.1 = p.1) && p.2.below.any (fun l => decide (d.2 = 1 + l ∨ d.2 = 0x2_0000 + l))))) })

/-- The position of a layer in a tile's stack, counted from the background. -/
def State.stackPlace (s : State) (n t l : Nat) : Option Nat :=
  (s.stack n t).findIdx? (fun e => match e with | .layer k => decide (k = l) | .program _ _ => false)

/-- A layer lies at or below the flat depth in every tile it covers (05 R130). -/
def State.isFlat (s : State) (n l : Nat) : Bool :=
  let ts := s.tilesIn n (s.shown n l)
  !ts.isEmpty && ts.all (fun t => match s.stackPlace n t l with | some i => decide (i < s.flatDepth n t) | none => false)

/-! ### Binding a heat (05 R104) -/

/-- Halvings of a LIVE layer in force: applied sub-steps of step 2 on a resource that it loads, as far as they leave it at layer.rate or above
(06 R166). -/
def State.halvings (s : State) (l : Nat) : Nat :=
  if s.lyr l 3 ≠ 2 ∨ !s.placement.shed.any (fun e => e.2.1 == 2) then 0
  else
    let inb := s.inBoathouse
    let applied := s.placement.shed.countP (fun e => e.2.1 == 2 && s.layerLoads inb l e.1)
    ((List.range (applied + 1)).filter (fun h =>
      decide ((s.lyr l 0x19 : Rat) / 100 * ((2 ^ h : Nat) : Rat) ≤ s.fps (s.lyr l 2)) || decide (h = 0))).length - 1

/-- A crew's PERIODIC layers are frozen (06 R166 step 5). -/
def State.frozenCrew (s : State) (c : Nat) : Bool := s.placement.shed.any (fun e => e.2.1 == 5 && e.2.2 == c)

/-- A layer is frozen. -/
def State.frozen (s : State) (l : Nat) : Bool :=
  decide (s.lyr l 3 = 3) && ((s.layer l).owner).any s.frozenCrew

/-- A LIVE layer is composed in this heat: always, or in every 2^h-th heat, counted from the latest halving (06 R166). -/
def State.liveNow (s : State) (l : Nat) : Bool := decide (((s.layer l).heats + 1) % 2 ^ s.halvings l = 0)

/-- The period of layer.rate in ns (05 R104). -/
def State.ratePeriod (s : State) (l : Nat) : Nat := 100_000_000_000 / s.lyr l 0x19

/-- layer.rate permits the layer now. -/
def State.rateDue (s : State) (l : Nat) : Bool :=
  match (s.layer l).honouredAt with
  | none => true
  | some t => decide (t + s.ratePeriod l ≤ s.now)

/-- Damage that is held back at this heat: of a PERIODIC layer before its time, or of a frozen layer (05 R104, 06 R166). -/
def State.heldBack (s : State) (n : Nat) (d : Nat × Nat) : Bool :=
  match causeLayer d.2 with
  | some l => decide (s.lyr l 3 = 3) && (s.layersOn n).contains l && (s.frozen l || !s.rateDue l)
  | none => false

/-- Tiles without repeats. -/
def dedup (ts : List Nat) : List Nat := ts.foldl (fun acc t => if acc.contains t then acc else acc ++ [t]) []

/-- The tiles the next heat composes without damage: lead lanes, LIVE layers, every_frame programs (05 R104). -/
def State.standing (s : State) (n : Nat) : List Nat :=
  if s.lead n then s.allTiles n
  else
    ((s.layersOn n).filter (fun l => decide (s.lyr l 3 = 2) && s.liveNow l && !s.umpire.latched.testBit 41)).flatMap (fun l => s.tilesIn n (s.shown n l)) ++
    (s.programs.filter (fun p => p.2.inEffect && p.2.everyFrame && decide (p.2.lane = n))).flatMap
      (fun p => s.tilesIn n ((p.2.rect).inter (s.active n)))

/-- The frame of each stream that a catch binds, as ring slot + 1, and the slots with it held (09 R242); of a lock stream the place of
its line 0 in the line ring, + 1 (07 R176). -/
def State.bindCameras (s : State) (n : Nat) : State × Tab Nat :=
  ((s.layersOn n).filter (fun l => decide (s.lyr l 6 = 2))).foldl (fun (acc : State × Tab Nat) l =>
    let stream := s.lyr l 0x18
    match s.slotOf stream with
    | none => acc
    | some k =>
      if s.lead n ∧ s.lockStream n = stream then (acc.1, tabSet acc.2 stream ((acc.1.slot k).ringBase + 1))
      else
        match (acc.1.slot k).newest with
        | none => acc
        | some i => (acc.1.modSlot k (fun q => { q with held := (n, i) :: q.held.filter (· != (n, i)) }), tabSet acc.2 stream (i + 1)))
    (s, [])

/-- A lane frame begins: a layer that caused no damage in the last one has been quiet for one more (05 R127). -/
def State.quietCounts (s : State) (n : Nat) : State :=
  (s.layersOn n).foldl (fun t l =>
    t.modLayer l (fun q => { q with quiet := if q.stirred then 0 else q.quiet + 1, stirred := false })) s

/-- One more heat for each LIVE layer of a lane (06 R166). -/
def State.liveCounts (s : State) (n : Nat) : State :=
  ((s.layersOn n).filter (fun l => decide (s.lyr l 3 = 2))).foldl (fun t l =>
    t.modLayer l (fun q => { q with heats := q.heats + 1 })) s

/-- The tiles that a heat serves while a lockstep mismatch of the cox, source 41, stands: those of lead lanes and of every-frame programs; all
other damage stays (01 R10). -/
def State.coxStands (s : State) : Bool := !s.umpire.latched.testBit 41

/-- Damage entries of tiles that go back to the lane, with the causes their heat had for them (06 R163). -/
def Heat.damageOf (h : Heat) (tiles : List Nat) : List (Nat × Nat) :=
  tiles.flatMap (fun t =>
    let mine := (h.reasons.filter (fun e => decide (e.1 = t))).map (fun e =>
      match causeLayer e.2 with | some l => (t, 0x2_0000 + l) | none => e)
    if mine = [] then [(t, 0)] else mine)

/-- The heat of frame `f` is bound: the lane's shadows are copied, its tiles chosen, its cameras held (01 R12, 05 R104). Commits
applied since the last heat are first shown by this frame (01 R16). A heat for the same frame that a catch in the porch replaces hands its
unwritten tiles on (07 R183). -/
def State.bindHeat (s : State) (n f : Nat) : State :=
  let s0 := s.dropFlat n
  let last := (s0.lane n).heat
  let again := decide (last.frame = f) && decide (f ≠ 0)
  let left := if again then last.tiles.filter (fun t => !last.written.contains t) else []
  let d := (s0.lane n).damage
  let held (e : Nat × Nat) : Bool := s0.heldBack n e || !(s0.coxStands || s0.lead n)
  let keep := d.filter held
  let go := d.filter (fun e => !held e)
  let tiles := (dedup (go.map Prod.fst ++ s0.standing n ++ left)).filter (fun t => (s0.allTiles n).contains t)
  let honoured := go.filterMap (fun e => causeLayer e.2)
  let s1 := if again then s0 else s0.liveCounts n
  let s2 := (s1.layersOn n).foldl (fun t l =>
    if (s1.lyr l 3 = 3 ∧ honoured.contains l) ∨ (s1.lyr l 3 = 2 ∧ s1.rateDue l)
    then t.modLayer l (fun q => { q with honouredAt := some s1.now }) else t) s1
  let (s3, cams) := s2.bindCameras n
  let heat : Heat :=
    { frame := f, tiles := tiles, held := [], released := [], closed := [], written := [], abandoned := [],
      reasons := go.filter (fun e => decide (e.2 ≠ 0)) ++ last.reasons.filter (fun e => left.contains e.1),
      cameras := cams, commits := [], objs := s3.objs, layers := s3.layers,
      programs := s3.programs, lut := (s3.lane n).lut, ind := s3.smu.bound, divided := false }
  let s4 := s3.modLane n (fun k =>
    { k with shown := if again then k.shown else k.heat, heat := heat,
             damage := keep.map (fun e => match causeLayer e.2 with | some l => (e.1, 0x2_0000 + l) | none => e),
             awaiting := k.awaiting.map (fun a => if a.2.2 = 0 then (a.1, a.2.1, f) else a),
             quietFrames := if tiles = [] then k.quietFrames else 0 })
  { s4 with regions := s4.regions.map (fun p =>
      if p.1 / 32 = n then
        (p.1, { p.2 with nextExpected := p.2.nextExpected.map (fun e => if e.1 = 0 then (f, e.2) else e) })
      else p) }

/-- Damage that no heat takes: it is no longer of a commit applied at the heat's catch (06 R163, 12 R326). -/
def State.mergeDamage (s : State) (n : Nat) : State :=
  s.modLane n (fun k =>
    { k with damage := k.damage.map (fun e => match causeLayer e.2 with | some l => (e.1, 0x2_0000 + l) | none => e) })

/-! ### What the lane reader has read (05 R137, 12 R320) -/

/-- A tile as the frame in progress delivered it, kept before a heat of the next frame writes over it. -/
def State.keepTile (s : State) (n t : Nat) : State :=
  if (s.lane n).kept.contains t then s
  else
    (s.setPixels (8 + n) ((s.tileRect n t).pixels.map (fun p => (p, s.pixel n p.1.toNat p.2.toNat)))).modLane n
      (fun l => { l with kept := t :: l.kept })

/-- What was kept of the frame in progress is let go of. -/
def State.dropKept (s : State) (n : Nat) : State :=
  if (s.lane n).kept = [] then s
  else { (s.modLane n (fun l => { l with kept := [] })) with
         frames := s.frames.filter (fun p => decide (p.1 / 2 ^ 32 ≠ 8 + n)) }

/-- The stored word of a pixel as the frame in progress has it. -/
def State.framePixel (s : State) (n x y : Nat) : Nat :=
  if (s.lane n).kept.contains (tileKey (x / 64) (y / 32)) then s.pixel (8 + n) x y else s.pixel n x y

/-! ### The state a heat composes from -/

/-- A state whose objects, layers, programs and lane shadows are those a heat was bound to. -/
def State.forHeat (s : State) (n : Nat) (h : Heat) : State :=
  { (s.modLane n (fun k => { k with heat := h, lut := h.lut })) with
    objs := h.objs, layers := h.layers, programs := h.programs, smu := { s.smu with bound := h.ind } }

/-! ### Best-effort division (06 R161, R162) -/

/-- A tile's composition in a heat is charged by admission, and so is no best-effort work: a SAFETY layer or the indication covers it, its lane
is camera-locked, a LIVE layer is due, or what damaged it is a camera frame or a layer that is neither STILL nor LIVE (06 R149, R161). -/
def State.tileCharged (g : State) (n : Nat) (h : Heat) (t : Nat) : Bool :=
  g.lead n || g.indCovers n t ||
  (g.covering n t).any (fun l =>
    g.safety l || (decide (g.lyr l 3 = 2) && decide ((g.layer l).honouredAt = (g.lane n).caughtAt))) ||
  h.reasons.any (fun e => decide (e.1 = t) &&
    match causeLayer e.2 with
    | some l => decide (g.lyr l 3 ≠ 4 ∧ g.lyr l 3 ≠ 2)
    | none => decide (0x1_0000 ≤ e.2))

/-- The crew whose work a best-effort tile is: the owner of its highest damaged or LIVE layer (06 R161); crew 0 where only a
lane object changed. -/
def State.tileCrew (g : State) (n : Nat) (h : Heat) (t : Nat) : Nat :=
  let ls := (g.layersOn n).filter (fun l =>
    h.reasons.any (fun e => decide (e.1 = t) && decide (causeLayer e.2 = some l)) ||
    (decide (g.lyr l 3 = 2) && (g.covering n t).contains l))
  match ls.getLast? with
  | some l => ((g.layer l).owner).getD 0
  | none => 0

/-- A shell that takes tiles: healthy and not under test (06 R164, R168). -/
def State.shellFree (s : State) (i : Nat) : Bool := s.placement.shellOk.testBit i && decide (s.placement.shellTest ≠ some i)

/-- The shells of the plan: those of every lane's set and pin. -/
def State.planShells (s : State) : Nat :=
  ((List.range 8).filter s.laneOn).foldl (fun m n => m ||| tabGet 0 s.placement.shellSets n ||| s.pinMask n) 0

/-- The shells that compose a row: those of its pin, else of its lane's set, that take tiles; where none does, the others of the plan, and at
last any (06 R146, R158, R168, 01 R10). -/
def State.servingShells (s : State) (n r : Nat) : List Nat :=
  let free := (List.range 16).filter s.shellFree
  let own := free.filter (fun i => ((s.rowPin n r).getD (tabGet 0 s.placement.shellSets n)).testBit i)
  if own ≠ [] then own
  else if (free.filter s.planShells.testBit) ≠ [] then free.filter s.planShells.testBit
  else free

/-- The rows of a lane that a shell composes. -/
def State.rowsOf (s : State) (n i : Nat) : List Nat := (List.range (s.tileRows n)).filter (fun r => (s.servingShells n r).contains i)

/-- The quarters of the shells that serve a lane, or are under test: bit i is PD[i] (06 R146, R168). -/
def State.workQuarters (s : State) : Nat :=
  ((List.range 16).filter (fun i => decide (s.placement.shellTest = some i) ||
    (List.range 8).any (fun n => s.laneOn n && decide (s.rowsOf n i ≠ [])))).foldl (fun m i => m ||| 15 * 16 ^ i) 0

/-- A shell has work: it is under test, or a row that it composes is open with tiles left (05 R102). -/
def State.shellBusy (s : State) (i : Nat) : Bool :=
  decide (s.placement.shellTest = some i) ||
  (List.range 8).any (fun n => [(s.lane n).heat, (s.lane n).shown].any (fun h =>
    (s.rowsOf n i).any (fun r => h.released.contains r && !h.closed.contains r &&
      h.tiles.any (fun t => decide (t / 256 = r) && !h.written.contains t && !h.abandoned.contains t))))

/-- The blade clock in Hz at the present throttle step (06 R164, 17 R447). -/
def State.bladeHz (s : State) : Nat := (8 - s.power.throttle) * 125_000_000

/-- Blade clocks of a tile as it is composed: from a flat tile where one is valid, with a flat tile's store where its depth has risen (05 R103,
R118, R128). Flattened layers count as one. -/
def State.heatCost (g : State) (n t : Nat) : Nat :=
  match (tabFind (g.lane n).flat t).filter (fun f => decide (f.layers = g.flatSign n t)) with
  | none => g.tileCost n t + (if 0 < g.flatDepth n t then 384 else 0)
  | some f =>
    let under := (g.stack n t).take f.depth
    let saved := (under.map (fun e => match e with | .layer l => g.layerClocks l | .program _ _ => 0)).sum
    let second (k : Nat) : Nat := if 16 < k then 1024 else 0
    g.tileCost n t + 384 - saved - second (g.tileLayers n t) + second (g.tileLayers n t + 1 - f.depth) +
      (if f.depth < g.flatDepth n t then 384 else 0)

/-- The blade clocks of the lane's shells from the release of its first row to the close of its last (06 R162,
notes/assumptions/14), less 10 %. -/
def State.bladeBudget (g : State) (n : Nat) : Nat :=
  let rows := g.tileRows n
  let lines := g.rowWindow n 0 + 32 * (rows - 1)
  let shells := (dedup ((List.range rows).flatMap (g.servingShells n))).length
  shells * 64 * (lines * g.laneNum n 1 4 * g.bladeHz / g.laneNum n 1 8) * 9 / 10

/-- A crew's ungranted work in a heat: the clocks and tiles of each grant it can be given. -/
abbrev Work := Nat × List (Nat × List Nat)

/-- The next crew with work after the one last served, in ascending number and round again. -/
def nextCrew (work : List Work) (after : Nat) : Option Nat :=
  match work.find? (fun w => decide (after < w.1)) with
  | some w => some w.1
  | none => work.head?.map Prod.fst

/-- Deficit round robin (06 R162): the deficits, the crew last served and the granted tiles. -/
def deficitLoop (weight : Nat → Nat) : Nat → List Work → Nat → Tab Nat → Nat → List Nat → Tab Nat × Nat × List Nat
  | 0, _, _, deficit, last, granted => (deficit, last, granted)
  | k + 1, work, budget, deficit, last, granted =>
    if work.all (fun w => match w.2 with | (cost, _) :: _ => decide (budget < cost) | [] => true) then (deficit, last, granted)
    else
      match nextCrew work last with
      | none => (deficit, last, granted)
      | some c =>
        let d := tabGet 0 deficit c + weight c * 1024
        match (work.find? (fun w => decide (w.1 = c))).map Prod.snd with
        | some ((cost, tiles) :: more) =>
          if cost ≤ d ∧ cost ≤ budget then
            let rest := if more = [] then work.filter (fun w => decide (w.1 ≠ c))
                        else work.map (fun w => if w.1 = c then (c, more) else w)
            deficitLoop weight k rest (budget - cost) (tabSet deficit c 0) c (granted ++ tiles)
          else deficitLoop weight k work budget (tabSet deficit c d) c granted
        | _ => (deficit, last, granted)

/-- A crew's blit that is under way. -/
def State.blitOf (s : State) (c : Nat) : Option BlitRun :=
  match (s.crew c).holding with
  | .blit r => some r
  | _ => none

def State.modBlit (s : State) (c : Nat) (f : BlitRun → BlitRun) : State :=
  s.modCrew c (fun k => { k with holding := match k.holding with | .blit r => .blit (f r) | h => h })

/-- A lane whose heats take blade time: one that scans out, out of self-refresh. -/
def State.heatsRun (s : State) : Bool := (List.range 8).any (fun n => (s.lane n).scans && decide ((s.lane n).mode ≠ .selfRefresh))

/-- The ungranted blocks of the crews' blits, with their clocks (10 R263); a blit above the whole budget is granted block by block. -/
def State.blitWork (s : State) (budget : Nat) : List Work :=
  (s.crews.map Prod.fst).filterMap (fun c => (s.blitOf c).bind (fun r =>
    let n := r.left.length - r.granted
    if n = 0 then none
    else if n * r.clocks ≤ budget then some (c, [(n * r.clocks, List.replicate n c)])
    else some (c, List.replicate n (r.clocks, [c]))))

/-- Clocks taken from the lanes' blade time in order. -/
def spendTime : Tab Nat → Nat → Tab Nat
  | [], _ => []
  | (n, t) :: rest, used => (n, t - used) :: spendTime rest (used - t)

/-- Blits are divided by deficit round robin over the blade time that the lanes' latest heats leave; with no heat running, all of it is
theirs (06 R162, 10 R263, notes/assumptions/69). -/
def State.shareBlits (s : State) : State :=
  let all := !s.heatsRun
  let time := (s.placement.blitTime.map Prod.snd).sum
  let crews := (s.crews.map Prod.fst).filter (fun c => (s.blitOf c).isSome)
  if all then crews.foldl (fun t c => t.modBlit c (fun r => { r with granted := r.left.length })) s
  else
    let (deficit, last, granted) :=
      deficitLoop (fun c => s.num (crewIx c 1) 1) (2 ^ 40) (s.blitWork time) time s.placement.blitDeficit s.placement.blitLast []
    let used := (granted.map (fun c => ((s.blitOf c).map BlitRun.clocks).getD 0)).sum
    (crews.foldl (fun t c => t.modBlit c (fun r => { r with granted := r.granted + granted.count c })) s).modPlacement (fun p =>
      { p with blitTime := spendTime p.blitTime used, blitDeficit := deficit, blitLast := last })

/-- The division of a heat's best-effort tiles: ungranted tiles stay damaged and are composed later (06 R162, R163). A crew whose work exceeds the
whole budget is granted it row by row. The blade time left is the blits'. -/
def State.divideHeat (s : State) (n : Nat) : State :=
  let h := (s.lane n).heat
  let g := s.forHeat n h
  let be := h.tiles.filter (fun t => !g.tileCharged n h t)
  let charged := ((h.tiles.filter (fun t => g.tileCharged n h t)).map (g.heatCost n)).sum
  let budget := g.bladeBudget n - charged
  let crews := sortBy (fun a b => decide (a ≤ b)) (dedup (be.map (g.tileCrew n h)))
  let work : List Work := crews.map (fun c =>
    let mine := be.filter (fun t => decide (g.tileCrew n h t = c))
    let cost := (mine.map (g.heatCost n)).sum
    if cost ≤ budget then (c, [(cost, mine)])
    else
      (c, ((List.range (g.tileRows n)).map (fun r => mine.filter (fun t => decide (t / 256 = r)))).filterMap (fun ts =>
        if ts = [] then none else some ((ts.map (g.heatCost n)).sum, ts))))
  let (deficit, last, granted) :=
    deficitLoop (fun c => s.num (crewIx c 1) 1) (2 ^ 40) work budget (s.lane n).deficit (s.lane n).lastServed []
  let held := be.filter (fun t => !granted.contains t)
  (s.modPlacement (fun p => { p with blitTime := tabSet p.blitTime n (budget - (granted.map (g.heatCost n)).sum) })).modLane n (fun k =>
    { k with deficit := deficit, lastServed := last,
             heat := { h with divided := true, held := held, tiles := h.tiles.filter (fun t => !held.contains t),
                              reasons := h.reasons.filter (fun e => !held.contains e.1) },
             damage := k.damage ++ h.damageOf held })

/-- The division before the first row of a heat is released: its tiles, then the blits (06 R162). -/
def State.divide (s : State) (n : Nat) : State :=
  if (s.lane n).heat.divided then s else (s.divideHeat n).shareBlits

end Sys2Proof.Machine
end

