-- ==== Sys2Proof/Machine/Commits.lean ====
section
/-! DEFINITION. Staging and the acceptance of commits (02 R30, R35, 04 R80, R83, R84, R87 to R94, R97, 06 R142, R152 to R157). -/

namespace Sys2Proof.Machine

open Sys2Proof

/-! ### Staging (02 R30, 04 R80, R81) -/

/-- layer.damage, whose every staged write adds a rectangle (04 R81). -/
def isDamageKey (key : Nat) : Bool := within 0x6000 0x67FF (key / 256) && decide (key % 256 = 0x1D)

/-- The fence objects, consumed by the commit that names their lane (04 R93). -/
def isFenceKey (key : Nat) : Bool :=
  within 0x3000 0x37FF (key / 256) && decide (key / 256 % 256 = 0) && decide (key % 256 = 0x12 ∨ key % 256 = 0x13)

/-- A staged write replaces the crew's earlier one to the same object; a damage rectangle is added (02 R30). -/
def State.stage (s : State) (c key : Nat) (v : Val) : State :=
  s.modCrew c (fun k =>
    { k with staged := (if isDamageKey key then k.staged else k.staged.filter (fun e =>
        match e with | .obj key' _ => decide (key' ≠ key) | _ => true)) ++ [.obj key v] })

/-- The value a staging set holds for an object. -/
def stagedVal (st : List Staged) (key : Nat) : Option Nat :=
  st.findSome? (fun e => match e with | .obj k v => if k = key then some (valNat v) else none | _ => none)

/-- The lane a layer's staged writes belong to: the staged layer.lane, else the one in effect (04 R80). -/
def State.laneFor (s : State) (st : List Staged) (l : Nat) : Nat := (stagedVal st (objKey (layerIx l) 2)).getD (s.lyr l 2)

/-- The head lane that a span's staged writes belong to (16 R426): the staged one, or the one in effect where that turns it off. -/
def State.headFor (s : State) (st : List Staged) (i : Nat) : Nat :=
  match stagedVal st (objKey i 1) with
  | some v => if v = 0xFF then s.num i 1 else v
  | none => s.num i 1

/-- The lane of an entry of a staging set. -/
def State.stagedLane (s : State) (st : List Staged) : Staged → Nat
  | .obj key _ =>
    let i := key / 256
    if within 0x6000 0x67FF i then s.laneFor st (i - 0x6000)
    else if within 0x3000 0x37FF i then (i - 0x3000) / 256
    else if within 0x7100 0x71FF i then (i - 0x7100) / 32
    else s.headFor st i
  | .surfacePin l _ => s.laneFor st l
  | .regionPin n _ _ _ => n
  | .program _ n => n

/-- The entries of a crew that a commit over `mask` takes (04 R83). -/
def State.takenBy (s : State) (c mask : Nat) : List Staged :=
  (s.crew c).staged.filter (fun e => mask.testBit (s.stagedLane (s.crew c).staged e))

/-- The rectangles of layer.damage a commit carries for a layer (04 R81). -/
def damageOf (ws : List Staged) (l : Nat) : List (Nat × Nat × Nat × Nat) :=
  ws.foldl (fun rs e => match e with
    | .obj key v => if key = objKey (layerIx l) 0x1D then addDamage rs (damageRect (valNat v)) else rs
    | _ => rs) []

/-- The layers for which a commit carries layer.damage. -/
def damagedLayers (ws : List Staged) : List Nat :=
  dedup (ws.filterMap (fun e => match e with
    | .obj key _ => if isDamageKey key then some (key / 256 - 0x6000) else none
    | _ => none))

/-! ### Configurations (04 R83) -/

/-- A replacement definition of a handle waits under this key while it is staged (05 R122). -/
def pendingProgram (h : Nat) : Nat := h + 0x1_0000

/-- Once its commit on lane `n` is accepted it waits under this one, where no later installation reaches it. -/
def acceptedProgram (h n : Nat) : Nat := h % 0x1_0000 + (2 + n) * 0x1_0000

/-- A definition takes effect under its handle (05 R122). -/
def State.activate (s : State) (x : Nat) : State :=
  match tabFind s.programs x with
  | some p => { s with programs := tabSet (tabErase s.programs x) (x % 0x1_0000) { p with inEffect := true } }
  | none => s

/-- A staged entry as a commit carries it. -/
def Staged.accepted : Staged → Staged
  | .program x n => if x < 0x1_0000 then .program x n else .program (acceptedProgram x n) n
  | e => e

/-- A staged replacement is put where only its commit finds it. -/
def State.acceptProgram (s : State) : Staged → State
  | .program x n =>
    if x < 0x1_0000 then s
    else
      match tabFind s.programs x with
      | some p => { s with programs := tabSet (tabErase s.programs x) (acceptedProgram x n) p }
      | none => s
  | _ => s

/-- One staged write put into effect. -/
def State.withWrite (s : State) : Staged → State
  | .obj key v => if isDamageKey key || isFenceKey key then s else s.setKey key v
  | .surfacePin l m => s.modLayer l (fun k => { k with surfacePin := if m = 0xF then none else some m })
  | .regionPin n a b mask => s.modLane n (fun k =>
      { k with regionPins := k.regionPins.filter (fun p => !(decide (p.1 = a) && decide (p.2.1 = b))) ++
                             (if mask = 0 then [] else [(a, b, mask)]) })
  | .program h _ => s.activate h

def State.withWrites (s : State) (ws : List Staged) : State := ws.foldl State.withWrite s

/-- The configuration in effect with every pending commit applied, but those of `leave` (04 R83 steps 1 and 2). -/
def State.withPending (s : State) (leave : List Nat) : State :=
  s.commits.foldl (fun t k => if leave.contains k.seq then t else t.withWrites k.writes) s

/-! ### RETIME changes (07 R190) -/

/-- The objects whose change is a RETIME: block and subindex (07 R190, 08 R225); 7:FE is block prediction, which only a register
field names (08 R227). -/
def retimeObjs : List (Nat × Nat) :=
  [(1, 1), (1, 5), (0, 5), (2, 2), (1, 9), (4, 8)] ++
  [1, 2, 3, 4, 6, 7, 8, 9, 0xA, 0xB, 0xC, 0xFE].map (fun b => (7, b))

/-- A lane's change from one configuration to another is a RETIME (07 R190). -/
def State.isRetime (old new : State) (n : Nat) : Bool :=
  retimeObjs.any (fun k => decide (old.laneNum n k.1 k.2 ≠ new.laneNum n k.1 k.2)) ||
  decide (old.laneNum n 7 5 % 8 ≠ new.laneNum n 7 5 % 8) ||
  (let a := old.laneNum n 1 8
   let b := new.laneNum n 1 8
   decide (a * 500 < (max a b - min a b) * 1_000_000))

/-- A RETIME of a lane is in progress: from the catch that applies it until the frame start of F0 (07 R193). -/
def State.retiming (s : State) (n : Nat) : Bool := ((s.lane n).retime).any (fun r => !r.f0)

/-! ### Rights (04 R93) -/

/-- The lanes of a mask. -/
def lanesIn (mask : Nat) : List Nat := (List.range 8).filter mask.testBit

/-- A crew may commit on a lane: it owns a layer there in effect or as it has staged, or it is a port manager (04 R93). -/
def State.mayCommit (s : State) (c n : Nat) : Bool :=
  decide (c % 128 = 0) ||
  (s.layersOf c).any (fun l => decide (s.lyr l 2 = n) || decide (stagedVal (s.crew c).staged (objKey (layerIx l) 2) = some n))

/-! ### Acceptance (04 R84 to R89, R94) -/

/-- Fences that a crew has staged for the lanes of a mask; address 0 is no fence (04 R93). -/
def State.stagedFences (s : State) (c mask : Nat) : List Fence :=
  (lanesIn mask).filterMap (fun n =>
    let st := (s.crew c).staged
    let a := (stagedVal st (objKey (laneIx n 0) 0x12)).getD 0
    if a = 0 then none
    else some { host := fenceHost a, addr := fenceAddr a, target := (stagedVal st (objKey (laneIx n 0) 0x13)).getD 0, namedAt := s.now,
                met := false })

/-- The older pending commits that a new one replaces (04 R88, R89). -/
def State.replaces (s : State) (c mask : Nat) (linked : Bool) : List Commit :=
  s.commits.filter (fun k => decide (k.crew = c) &&
    (if k.linked then linked && decide (k.lanes = mask) else decide (k.lanes &&& mask ≠ 0)))

/-- Whether every lane of a mask is enabled by the new configuration where it is off in effect (07 R194). -/
def State.enabling (s g : State) (mask : Nat) : Bool := (lanesIn mask).any (fun n => !s.laneOn n && g.laneOn n)

/-- Lanes of one genlock group (04 R89). -/
def State.oneGroup (g : State) (mask : Nat) : Bool :=
  match lanesIn mask with
  | n :: rest => decide (rest = []) || (decide (g.laneNum n 6 1 ≠ 0) && rest.all (fun k => decide (g.laneNum k 6 1 = g.laneNum n 6 1)))
  | [] => false

/-- At most 4 region pins a lane, with disjoint rows (06 R156). -/
def State.pinsOk (g : State) (n : Nat) : Bool :=
  let ps := (g.lane n).regionPins
  decide (ps.length ≤ 4) &&
  ps.all (fun p => decide ((ps.filter (fun q => decide (p.1 ≤ q.2.1) && decide (q.1 ≤ p.2.1))).length ≤ 1))

/-- A commit's writes set an object to a value. -/
def setsTo (ws : List Staged) (key v : Nat) : Bool := ws.any (fun e => match e with | .obj k x => decide (k = key ∧ valNat x = v) | _ => false)

/-- The crew that a lane's writeback belongs to once every pending commit but those of `leave` is applied (05 R136). -/
def State.wbOwnerIn (s : State) (leave : List Nat) (n : Nat) : Option Nat :=
  s.commits.foldl (fun o k => if !leave.contains k.seq && setsTo k.writes (objKey (laneIx n 5) 1) 1 then some k.crew else o) (s.lane n).wbOwner

/-- Another crew's writeback runs on a lane where this commit asks for one, in the configuration that it changes (04 R83, 05 R136, R140). -/
def State.writebackBusy (s : State) (leave : List Nat) (c mask : Nat) (ws : List Staged) : Bool :=
  (lanesIn mask).any (fun n =>
    decide ((s.withPending leave).laneNum n 5 1 = 1) && (s.wbOwnerIn leave n).any (fun o => decide (o ≠ c)) &&
    setsTo ws (objKey (laneIx n 5) 1) 1)

/-- What a refused commit is refused with, or the configuration and the fences of the accepted one. The refused plan's record
goes with OVERSUBSCRIBED and PIN_INFEASIBLE (04 R83, 06 R152, R157). -/
def State.judge (s : State) (c : Nat) (r : CommitReq) : Except (Abort × Option Refused) (State × List Fence) :=
  let lanes := lanesIn r.mask
  let ws := s.takenBy c r.mask
  let old := s.replaces c r.mask r.linked
  let before := s.withPending []
  let g := (s.withPending (old.map Commit.seq)).withWrites (old.flatMap Commit.writes ++ ws)
  let fences := old.flatMap Commit.fences ++ r.fences ++ s.stagedFences c r.mask
  if r.mask = 0 ∨ 0x100 ≤ r.mask then .error (.valueRange, none)
  else if !lanes.all (s.mayCommit c) then .error (.noRight, none)
  else if r.linked && !g.oneGroup r.mask then .error (.valueConflict, none)
  else if lanes.any s.retiming then .error (.busy, none)
  else if s.commits.any (fun k => k.linked && decide (k.crew = c) && decide (k.lanes &&& r.mask ≠ 0) &&
                                  !(r.linked && decide (k.lanes = r.mask))) then .error (.busy, none)
  else if s.writebackBusy (old.map Commit.seq) c r.mask ws then .error (.busy, none)
  else if lanes.any (fun n => !s.laneOn n && !g.laneOn n) then .error (.wrongMode, none)
  else if 4 < fences.length then .error (.valueConflict, none)
  else if !lanes.all g.pinsOk then .error (.valueConflict, none)
  else
    match g.consistent lanes with
    | some a => .error (a, none)
    | none =>
      if let some e := g.spanRefusal lanes then .error e
      else if g.pinInfeasible then .error (.pinInfeasible, none)
      else
        match g.planAdmission before with
        | none => .ok (g, fences)
        | some q =>
          if (g.unpinned.planAdmission before).isNone then .error (.pinInfeasible, none) else .error (.oversubscribed, some q)

/-- The next commit sequence number: from 0xFFFF_FFFF it wraps to 1 (04 R84). -/
def nextSeqOf (n : Nat) : Nat := if n = 0xFFFF_FFFF then 1 else n + 1

/-- The crew's latest completed commit (04 R97). -/
def State.completed (s : State) (c seq : Nat) : State := s.modCrew c (fun k => { k with lastCommit := seq })

/-- A plan that admission refuses is recorded (06 R152). -/
def State.recordRefusal (s : State) (c : Nat) (q : Option Refused) : State :=
  match q with
  | none => s
  | some (res, lane, excess) =>
    (s.modPlacement (fun p => { p with lastRefusal := res % 256 + lane % 256 * 2 ^ 8 + c * 2 ^ 16 + min excess (2 ^ 32 - 1) * 2 ^ 32 })).raise
      coxStatus [1]

/-- A refusal: counted, and with a refused plan recorded (04 R83, 06 R152). -/
def State.refuseCommit (s : State) (c : Nat) (q : Option Refused) : State := (s.count (crewCount c 0x18) 1).recordRefusal c q

/-- A commit refused for want of device memory gives the crew a translation fault (04 R73). -/
def State.noMemory (s : State) (c : Nat) (q : Option Refused) (g : State) : State :=
  match q with
  | some (0xFF, _, _) =>
    if g.mandatory ≤ 512 * mib then
      match (g.readGranules.filter (fun p => decide (p.1 = c) && !(s.crew c).granules.contains p.2)).head? with
      | some p => s.xltFault c (p.2 * (2 * mib)) 8 1 0 false
      | none => s
    else s
  | _ => s

/-- Granules that the accepted configuration makes layers read from are backed (04 R73); LP5X is on while it holds a backing or a
frame ring (15 R403). -/
def State.backRead (s g : State) : State :=
  let u := g.readGranules.foldl (fun t p =>
    if (t.crew p.1).granules.contains p.2 then t
    else t.modCrew p.1 (fun k => { k with granules := k.granules ++ [p.2] })) s
  (u.lp5Wake u).lp5Wake g

/-- A plan adjustment that changes an output: both generations advance, plan_changed is raised (02 R50, 06 R142, R171). -/
def State.planChanged (s : State) : State :=
  ((s.modPlacement (fun p => { p with generation := p.generation + 1 })).modModes
    (fun m => { m with generation := m.generation + 1 })).raise coxStatus [0]

/-- A plan adjustment that takes effect at once: no commit brings it (06 R142). -/
def State.replan (s : State) : State := s.planChanged.takePlan

/-- A superseded commit: counted and posted for each of its lanes; its signals follow its successor (04 R88, R95). -/
def State.supersede (s : State) (k : Commit) (seq : Nat) : State :=
  let t := (lanesIn k.lanes).foldl (fun u n =>
    ((u.count (laneCount n 0x20) 1).raise (laneStatus n) [1]).post k.crew (eventWord 5 n 0 k.cookie k.seq))
    { s with commits := s.commits.filter (fun x => decide (x.seq ≠ k.seq)) }
  (t.completed k.crew k.seq).modCrew k.crew (fun c =>
    { c with signals := c.signals.map (fun g => if g.seq = k.seq then { g with seq := seq } else g),
             latest := if c.latest = some k.seq then some seq else c.latest })

/-- Late by 04 R87 on a lane: eligible within the late window after the catch it missed. `at` is that catch. -/
def State.lateOn (s : State) (n : Nat) (at_ : Option Nat) : Bool :=
  match at_ with
  | none => false
  | some t => !(s.lane n).gated && decide (t < s.now) && decide (0 < s.laneNum n 0 0x15) &&
              decide ((s.now - t) * s.frameNum n 1 8 ≤ s.laneNum n 0 0x15 * s.frameNum n 1 4 * 1_000_000_000)

/-- A commit without fences that becomes eligible is LATE where it missed a catch narrowly: flagged, counted, posted (04 R87), a
linked one once for each lane that it missed: DESIGN CHOICE, notes/assumptions/104. -/
def State.flagLate (s : State) (k : Commit) : State :=
  let late := (lanesIn k.lanes).filter (fun n => s.lateOn n (if k.linked then (s.lane n).groupAt else (s.lane n).caughtAt))
  if late = [] ∨ k.fences ≠ [] ∨ k.deferred then s
  else
    late.foldl (fun u n => ((u.count (laneCount n 0x08) 1).raise (laneStatus n) [0]).post k.crew (eventWord 4 n 0 k.cookie k.seq))
      { s with commits := s.commits.map (fun x => if x.seq = k.seq then { x with late := true } else x) }

/-- The commit of an accepted request with its number (04 R84, R88): the older commits' writes below its own, every fence. -/
def State.newCommit (s : State) (c : Nat) (r : CommitReq) (fences : List Fence) : Commit :=
  { seq := s.nextSeq, crew := c, lanes := r.mask, linked := r.linked,
    writes := (s.replaces c r.mask r.linked).flatMap Commit.writes ++ (s.takenBy c r.mask).map Staged.accepted, fences := fences,
    acceptedAt := s.now, eligible := decide (fences = []), deferred := false, late := false, cookie := r.cookie }

/-- The lane field of a commit's events: its lane, or none for a linked commit (04 R96). -/
def laneField (mask : Nat) : Nat := match lanesIn mask with | [n] => n | _ => 0xF

/-- A layer shows another surface storage in one configuration than in another: none before, another crew's, or at another place. -/
def State.showsAnew (s g : State) (l : Nat) : Bool :=
  decide (s.lyr l 6 ≠ 1) || decide ((s.layer l).owner ≠ (g.layer l).owner) || decide (s.lyr l 8 ≠ g.lyr l 8) || decide (s.lyr l 9 ≠ g.lyr l 9)

/-- The copies that are part of a commit's acceptance: of each prefetched surface the damaged rectangles, or the whole where the commit changes
its address (06 R144). `before` is the configuration that the commit changes to `g`. -/
def State.fetchCopies (s before g : State) (ws : List Staged) : State :=
  let inb := g.inBoathouse
  (g.surfaceUsers.filter (fun l => decide (g.residenceIn inb l = 3))).foldl (fun t l =>
    t.prefetchLayer g l (before.showsAnew g l) (damageOf ws l)) s

/-- Acceptance of a judged request: staged entries leave the staging set, the number is assigned and, for an item, posted, older
commits are superseded,
the plan is adjusted, self-refresh ends (04 R83, R84, R88, 06 R142, 07 R196). -/
def State.admitCommit (s : State) (c : Nat) (r : CommitReq) (g : State) (fences : List Fence) (item : Bool) : State × Commit :=
  let k := s.newCommit c r fences
  let taken := s.takenBy c r.mask
  let moved := decide ((s.withPending []).planOutputs ≠ g.planOutputs)
  let s0 := taken.foldl State.acceptProgram (s.modCrew c (fun x => { x with staged := x.staged.filter (fun e => !taken.contains e) }))
  let s1 := (s0.backRead g).fetchCopies (s.withPending []) g taken
  let s1' := if item then s1.post c (eventWord 1 (laneField r.mask) 0 r.cookie k.seq) else s1
  let s2 := (s.replaces c r.mask r.linked).foldl (fun t o => t.supersede o k.seq) { s1' with nextSeq := nextSeqOf s.nextSeq }
  let s3 := { s2 with commits := s2.commits ++ [k] }
  let s4 := if moved then s3.planChanged else s3
  let s5 := (lanesIn r.mask).foldl State.leaveSelfRefresh s4
  (if k.eligible then s5.flagLate k else s5, k)

end Sys2Proof.Machine
end

