-- ==== Sys2Proof/Machine/Catch.lean ====
section
/-! DEFINITION. The catch and what follows it: the application of commits, RETIME, the indication's binding, presentation
(01 R12, R16, 04 R85, R86, R89, R91, R94, R95, R97, 05 R131, R132, 07 R182, R183, R190 to R194, 12 R322, R323, 13 R359). -/

namespace Sys2Proof.Machine

open Sys2Proof

/-! ### Layers given back (04 R76, R77) -/

/-- A staged entry that concerns a layer. -/
def ofLayer (l : Nat) : Staged → Bool
  | .obj key _ => decide (key / 256 = layerIx l)
  | .surfacePin k _ => decide (k = l)
  | _ => false

/-- A layer becomes free: its objects are at their defaults, its pin ends, and nothing staged or pending concerns it any more
(04 R76, 06 R156, notes/assumptions/17). -/
def State.freeLayer (s : State) (l : Nat) : State :=
  let t := s.dropObjs (layerIx l) (layerIx l + 1)
  { t with layers := tabErase t.layers l,
           crews := t.crews.map (fun p => (p.1, { p.2 with staged := p.2.staged.filter (fun e => !ofLayer l e) })),
           commits := t.commits.map (fun k => { k with writes := k.writes.filter (fun e => !ofLayer l e) }) }

/-! ### Regions (12 R322, R323) -/

/-- A region is armed: its history, references, window and run are gone; frames from `frame` on may serve as references. -/
def State.armRegion (s : State) (k frame : Nat) : State :=
  s.modRegion k (fun r => { r with armedAt := frame, history := 0, run := 0, window := none })

/-- What a commit's change of a region object brings about: arming, or an expected value for the first frame that shows it. -/
def State.regionChange (s old : State) (key : Nat) : State :=
  let i := key / 256
  if !within 0x7100 0x71FF i then s
  else
    let k := i - 0x7100
    if key % 256 = 3 then s.modRegion k (fun r => { r with nextExpected := some (0, s.num i 3) })
    else if (key % 256 = 1 ∨ key % 256 = 2 ∨ key % 256 = 4 ∨ key % 256 = 5) ∧ old.num i (key % 256) ≠ s.num i (key % 256) then
      s.armRegion k (s.frame (k / 32) + 1)
    else s

/-! ### Fence signals (04 R95) -/

/-- The signals that wait for a commit's application or presentation are written. -/
def State.runSignals (s : State) (c seq : Nat) (presented : Bool) : State :=
  let due := (s.crew c).signals.filter (fun g => decide (g.seq = seq) && decide (g.onPresented = presented))
  due.foldl (fun t g => t.fenceWrite c g.host g.addr g.value)
    (s.modCrew c (fun k => { k with signals := k.signals.filter (fun g => !due.contains g) }))

/-- The signals of a commit that is dropped or refused are never written. -/
def State.dropSignals (s : State) (c seq : Nat) : State :=
  s.modCrew c (fun k => { k with signals := k.signals.filter (fun g => decide (g.seq ≠ seq)),
                                 latest := if k.latest = some seq then none else k.latest })

/-! ### RETIME (07 R190 to R194) -/

/-- Step 4 of a RETIME: the frame is re-placed in black, no flat tile is valid, every tile is damaged (07 R192). -/
def State.replaceFrame (s : State) (n : Nat) : State :=
  let t := s.modLane n (fun l => { l with flat := [], damage := [], heat := blankHeat, shown := blankHeat, stalls := [], lost := [], kept := [],
                                          lastPixel := 0xC000_0000 })
  ({ t with
     slots := t.slots.map (fun (p : Nat × Slot) => (p.1, { p.2 with held := p.2.held.filter (fun h => decide (h.1 ≠ n)) })),
     frames := t.frames.filter (fun p => decide (p.1 / 2 ^ 32 ≠ n ∧ p.1 / 2 ^ 32 ≠ 8 + n)) }).damageAll n

/-- A RETIME begins on a lane (07 R192 step 1, R194): its domain is on. Of enabling a lane steps 1 to 3 are empty: it is not shown as
retiming, its port sends nothing, and step 4 follows at once. -/
def State.startRetime (s : State) (n : Nat) (wasOn : Bool) : State :=
  let r : Retime := { enabling := !wasOn, disabling := !s.laneOn n, idle := !wasOn, portUp := false, f0 := false, commits := [] }
  let t := (s.setDomain (64 + n) true).modLane n (fun l =>
    { l with mode := .retiming, retime := some r, lockOff := false, evaluated := false, wbActive := false, genlockAligned := false,
             gated := if wasOn then l.gated else true, locked := if wasOn then l.locked else false })
  if wasOn then (t.raise (laneStatus n) [8]).raise (photoStatus n) [1] else t.replaceFrame n

/-! ### Application (04 R85) -/

/-- The layers whose objects a commit writes, but for layer.damage and layer.rate (04 R81). -/
def touchedLayers (ws : List Staged) : List Nat :=
  dedup (ws.filterMap (fun e => match e with
    | .obj key _ => if within 0x6000 0x67FF (key / 256) && decide (key % 256 ≠ 0x1D) && decide (key % 256 ≠ 0x19)
                    then some (key / 256 - 0x6000) else none
    | _ => none))

/-- A layer's objects differ between two configurations (04 R81). -/
def State.layerDiffers (s t : State) (l : Nat) : Bool :=
  (List.range 0x1D).any (fun sub => decide (sub ≠ 0x19) && decide (s.lyr l sub ≠ t.lyr l sub))

/-- The damage of a commit: `old` is the configuration before it, `s` already holds its writes (04 R81, 05 R105, R131). -/
def State.commitDamage (s old : State) (ws : List Staged) : State :=
  let moved := (touchedLayers ws).filter (old.layerDiffers s)
  let s1 := moved.foldl (fun t l => (t.damageLayer old l).damageLayer s l) s
  let s2 := (damagedLayers ws).foldl (fun t l =>
    if s.lyr l 6 = 0 then t
    else (damageOf ws l).foldl (fun u q => u.damage (s.lyr l 2) (s.tilesIn (s.lyr l 2) (s.mapDamage (s.lyr l 2) l q)) (1 + l)) t) s1
  let s3 := ws.foldl (fun t e => match e with
    | .program x n => let h := x % 0x1_0000; (t.damage n (s.tilesIn n (s.program h).rect) 0).damage n
        (if (old.program h).inEffect then old.tilesIn n (old.program h).rect else []) 0
    | _ => t) s2
  (List.range 8).foldl (fun t n =>
    if (List.range 10).any (fun sub => decide (sub ≠ 0) && decide (sub ≠ 2) && decide (old.laneNum n 4 sub ≠ s.laneNum n 4 sub)) then
      (if old.laneNum n 4 1 ≠ s.laneNum n 4 1 ∨ old.laneNum n 4 7 ≠ s.laneNum n 4 7
       then t.modLane n (fun l => { l with flat := [] }) else t).damageAll n
    else t) s3

/-- A commit writes an object. -/
def writesKey (ws : List Staged) (key : Nat) : Bool := ws.any (fun e => match e with | .obj k _ => decide (k = key) | _ => false)

/-- The 3D LUT is read once, at a commit that applies its address or turns it on or off (05 R132). -/
def State.readLut (s : State) (ws : List Staged) (c n : Nat) : State :=
  if !writesKey ws (objKey (laneIx n 4) 3) && !writesKey ws (objKey (laneIx n 4) 4) then s
  else
    match s.readCrew c false (s.laneNum n 4 4) (35937 * 8) 1 n with
    | (t, some bs) => t.modLane n (fun l =>
        { l with lut := (List.range 35937).map (fun i => leNat ((bs.drop (8 * i)).take 8)) })
    | (t, none) => t

/-- Writeback belongs to the crew whose commit last applied wb.enable = 1 (05 R136). -/
def State.takeWriteback (s : State) (k : Commit) : State :=
  k.writes.foldl (fun t e => match e with
    | .obj key v =>
      let i := key / 256
      if within 0x3000 0x37FF i && decide (i % 256 = 5) && decide (key % 256 = 1) && decide (valNat v = 1)
      then t.modLane ((i - 0x3000) / 256) (fun l => { l with wbOwner := some k.crew, wbCount := 0 }) else t
    | _ => t) s

/-- Residences move at the catch that applies the plan: a surface shown for the first time is where the plan puts it, and a
moved one is copied first (06 R142). -/
def State.moveSurfaces (s old : State) : State :=
  let inb := s.inBoathouse
  s.surfaceUsers.foldl (fun t l =>
    let dest := s.residenceIn inb l
    if old.showsAnew s l then t.modLayer l (fun k => { k with residence := dest, copying := none })
    else if (s.layer l).residence = dest then t.modLayer l (fun k => { k with copying := none })
    else if dest = 2 then t.modLayer l (fun k => { k with residence := 2, copying := none })
    else t.modLayer l (fun k => { k with copying := some dest })) s

/-- D and U of the programs in effect (05 R121, 07 R177). -/
def State.setReach (s : State) (n : Nat) : State :=
  s.modLane n (fun l => { l with reachDown := (s.reach n).1, reachUp := (s.reach n).2 })

/-- One commit applied to its lanes (04 R85): its writes take effect together, the generation counter advances, APPLIED is posted
for each lane, its signals are written; a RETIME begins where it is one. -/
def State.applyCommit (s : State) (k : Commit) : State :=
  let old := { s with commits := s.commits.filter (fun x => decide (x.seq ≠ k.seq)) }
  let lanes := lanesIn k.lanes
  let s1 := old.withWrites k.writes
  let s2 := (s1.commitDamage old k.writes).takeWriteback k
  let s3 := lanes.foldl (fun t n => t.readLut k.writes k.crew n) s2
  let s4 := k.writes.foldl (fun t e => match e with | .obj key _ => t.regionChange old key | _ => t) s3
  let s5 := lanes.foldl State.setReach (s4.moveSurfaces old).takePlan
  let s6 := (s5.modModes (fun m => { m with generation := m.generation + 1 })).runSignals k.crew k.seq false
  let s7 := lanes.foldl (fun t n =>
    ((t.modLane n (fun l => { l with appliedSeq := k.seq, quietFrames := 0,
                                     awaiting := l.awaiting ++ [(k.seq, k.crew * 65536 + k.cookie, 0)] })).count 0x58 1).post k.crew
      (eventWord 2 n 0 k.cookie k.seq)) s6
  lanes.foldl (fun t n => if s1.isRetime old n then t.startRetime n (old.laneOn n) else t) s7

/-! ### Removal of a disabled crew's layers (02 R23) -/

/-- The layers that wait for this lane's catch are removed, as a commit of their port manager. -/
def State.removeLayers (s : State) (n : Nat) : State :=
  let gone := (s.layers.filter (fun p => p.2.removing && decide (s.lyr p.1 2 = n))).map (fun p => (p.1, p.2.owner.getD 0))
  let managers := dedup (gone.map (fun p => managerOf p.2))
  let s1 := gone.foldl (fun t p => (t.damageLayer s p.1).freeLayer p.1) s
  managers.foldl (fun t m =>
    (((({ t with nextSeq := nextSeqOf t.nextSeq }).modLane n (fun l =>
        { l with appliedSeq := t.nextSeq, awaiting := l.awaiting ++ [(t.nextSeq, m * 65536, 0)] })).modModes
          (fun d => { d with generation := d.generation + 1 })).count 0x58 1).post m (eventWord 2 n 0 0 t.nextSeq)) s1

/-! ### The catch (01 R12, 04 R86, R89, R91) -/

/-- This catch of the lane is its group's: no other running member has caught since this lane's last catch, nor the master of a
cascade group (04 R89, 16 R417). -/
def State.groupCatch (s : State) (n : Nat) : Bool :=
  ((s.groupOf n).filter (fun k => k != n && decide ((s.lane k).mode = .running) && !(s.lane k).gated)).all (fun k =>
    match (s.lane k).caughtAt, (s.lane n).caughtAt with
    | none, _ => true
    | some _, none => false
    | some a, some b => decide (a ≤ b)) &&
  (decide (s.laneNum n 6 2 ≠ 1) ||
   match s.cascade.catchAt, (s.lane n).caughtAt with
   | none, _ => true
   | some _, none => false
   | some a, some b => decide (a ≤ b))

/-- A pending commit that this catch concerns: one on the lane, or a linked one at the catch of its lanes' group, whichever lane of the group it
is (04 R85, R89). -/
def State.atCatch (s : State) (n : Nat) (k : Commit) : Bool :=
  if k.linked then s.groupCatch n && (lanesIn k.lanes).any (s.groupOf n).contains else k.lanes.testBit n

/-- The lane whose fence timeout a commit is held to, and that its FENCE_EXPIRED names: its own; of a linked commit the catching lane where that is
one of its lanes, else the lowest of them (04 R91, notes/assumptions/100). -/
def fenceLane (k : Commit) (n : Nat) : Nat := if k.lanes.testBit n then n else (lanesIn k.lanes).headD n

/-- A fence of the commit is unmet and its time has passed (04 R91). -/
def State.fenceExpired (s : State) (n : Nat) (k : Commit) : Bool :=
  k.fences.any (fun f => !f.met && decide (f.namedAt + s.laneNum (fenceLane k n) 0 0x14 * 1_000_000 ≤ s.now))

/-- A definition that a commit carries is gone with it. -/
def State.dropProgram (s : State) : Staged → State
  | .program x _ => if x < 0x1_0000 then s else { s with programs := tabErase s.programs x }
  | _ => s

/-- A dropped commit (04 R91): posted, counted, complete; its writes are gone and its signals are never written. -/
def State.expire (s : State) (n : Nat) (k : Commit) : State :=
  let t := k.writes.foldl State.dropProgram { s with commits := s.commits.filter (fun x => decide (x.seq ≠ k.seq)) }
  (((t.count (crewCount k.crew 0x10) 1).completed k.crew k.seq).dropSignals k.crew k.seq).post k.crew
    (eventWord 6 (fenceLane k n) 0 k.cookie k.seq)

/-- The indication that the SMU has posted is bound to the heat and its tiles are damaged (13 R359). -/
def State.bindIndication (s : State) (n : Nat) : State :=
  match s.smu.posted with
  | none => s
  | some b =>
    if s.num 0x7801 6 = n ∧ s.smu.indPlaced then
      let first := s.smu.carriedFrom.getD (s.frame n + 1)
      let t := s.modSmu (fun u => { u with posted := none, bound := some b, carriedFrom := some first })
      (t.damage n (t.tilesIn n (rectOf (t.num 0x7801 7))) 0).modRegion (n * 32 + 31)
        (fun r => { r with nextExpected := some (0, t.smu.crcs.getD b 0) })
    else s

/-- Commits take effect only in normal operation, not while a sleep request is carried out (12 R339, 15 R396, R399), and not while
a lockstep mismatch of the cox, source 41, stands (01 R10). -/
def State.applies (s : State) : Bool := s.running && !s.quiet && !s.umpire.latched.testBit 41

/-- The commits of this catch: expired ones dropped, unmet ones deferred, eligible ones applied in order of acceptance (04 R85,
R91); then a disabled crew's layers leave (02 R23). -/
def State.catchCommits (s : State) (n : Nat) : State :=
  if !s.applies then s
  else
    let here := s.commits.filter (s.atCatch n)
    let s1 := (here.filter (fun k => !k.eligible && s.fenceExpired n k)).foldl (fun t k => t.expire n k) s
    let s2 := { s1 with commits := s1.commits.map (fun k =>
      if here.any (fun x => decide (x.seq = k.seq)) && !k.eligible then { k with deferred := true } else k) }
    ((here.filter (fun k => k.eligible)).foldl State.applyCommit s2).removeLayers n

/-- The instant of the catch is recorded for the lane, and for its group where it is the group's (04 R87, R89). -/
def State.markCatch (s : State) (n : Nat) : State :=
  let group := s.groupCatch n
  let t := if group then (s.groupOf n).foldl (fun u k => u.modLane k (fun l => { l with groupAt := some s.now })) s else s
  t.modLane n (fun l => { l with caughtAt := some s.now })

/-- The catch of a lane. `binds`: a heat follows it, but on a lane whose RETIME this catch began (07 R192 step 1). -/
def State.catchLane (s : State) (n : Nat) (binds : Bool) : State :=
  let t := (s.catchCommits n).markCatch n
  if !binds || t.retiming n then t.mergeDamage n else (t.bindIndication n).bindHeat n (t.frame n + 1)

/-- Every row of the newest heat is released at once (07 R183). -/
def State.releaseAll (s : State) (n : Nat) : State :=
  (s.divide n).modLane n
    (fun l => { l with heat := { l.heat with released := List.range (s.tileRows n) } })

/-- A catch in an extended front porch: at the first eligible commit or published frame (07 R183). -/
def State.porchCatch (s : State) (n : Nat) : State :=
  let l := s.lane n
  if l.scans ∧ s.frameNum n 2 1 = 1 ∧ s.lead n = false ∧ l.porchExtended ∧ l.porchMaxed = false ∧ l.porchCaught = false ∧
     l.gated = false ∧ s.applies
  then ((s.catchLane n true).releaseAll n).modLane n (fun k => { k with porchCaught := true })
  else s

/-! ### Presentation (01 R16, 04 R97, 07 R192 step 8, 12 R322, R323) -/

/-- PRESENTED for one commit of a lane (01 R16). A linked commit is complete, and its signals on PRESENTED are made, at the PRESENTED of its first lane:
DESIGN CHOICE, notes/assumptions/104. -/
def State.presentOne (s : State) (n : Nat) (a : Nat × Nat × Nat) : State :=
  let c := a.2.1 / 65536
  let t := ((s.count (laneCount n 0x28) 1).completed c a.1).modLane n (fun l => { l with presentedSeq := a.1 })
  (t.runSignals c a.1 true).post c (eventWord 3 n 0 (a.2.1 % 65536) a.1)

/-- RETIMING ends at the first content frame: regions are armed and evaluated again, retime_done is raised (07 R192 step 8). -/
def State.endRetime (s : State) (n : Nat) : State :=
  let t := ((s.modLane n (fun l => { l with mode := .running, retime := none, evaluated := true })).raise
    (laneStatus n) [9]).raise (photoStatus n) [2]
  (List.range 32).foldl (fun u i => u.armRegion (n * 32 + i) (s.frame n)) t

/-- Active line 0 of the frame in progress: commits first shown by it are presented, expected CRCs first shown by it take
effect (01 R16, 12 R323, 13 R359). -/
def State.presentLane (s : State) (n : Nat) : State :=
  let f := s.frame n
  let due := (s.lane n).awaiting.filter (fun a => decide (a.2.2 ≠ 0) && decide (a.2.2 ≤ f))
  let s1 := due.foldl (fun t a => t.presentOne n a)
    (s.modLane n (fun l => { l with awaiting := l.awaiting.filter (fun a => !due.contains a) }))
  let s2 := { s1 with regions := s1.regions.map (fun p =>
    match p.2.nextExpected with
    | some (g, v) => if p.1 / 32 = n ∧ g ≠ 0 ∧ g ≤ f then (p.1, { p.2 with expected := v, nextExpected := none }) else p
    | none => p) }
  if ((s.lane n).retime).any (fun r => r.f0) && decide (due ≠ []) then s2.endRetime n else s2

/-! ### Acceptance carried through (04 R84, R96, 07 R183, R194) -/

/-- What an accepted commit brings about at once: a lane that it enables starts its RETIME (07 R194); an extended porch is caught
(07 R183). -/
def State.afterAcceptance (s before : State) (k : Commit) : State :=
  if before.enabling (before.withPending [] |>.withWrites k.writes) k.lanes && s.applies && k.eligible then s.applyCommit k
  else if k.eligible then (lanesIn k.lanes).foldl State.porchCatch s
  else s

/-- A commit request judged and carried out: its sequence number, or its abort (04 R83, R84). `item`: it came as a COMMIT item, which
is answered with ACCEPTED or REFUSED (R96). -/
def State.acceptCommit (s : State) (c : Nat) (r : CommitReq) (item : Bool) : State × Except Abort Nat :=
  match s.judge c r with
  | .error (a, q) =>
    let g := (s.withPending []).withWrites (s.takenBy c r.mask)
    let t := (s.refuseCommit c q).noMemory c q g
    (if item then t.post c (eventWord 7 (laneField r.mask) a.reason r.cookie 0) else t, .error a)
  | .ok (g, fences) =>
    let (t, k) := s.admitCommit c r g fences item
    (t.afterAcceptance s k, .ok k.seq)

end Sys2Proof.Machine
end

