-- ==== Sys2Proof/Machine/Tiles.lean ====
section
/-! DEFINITION. Rows and tiles: release, composition, whole-tile writes, discards, port stalls (01 R10, R13, R14, R17, R19, R102, R104 to
R106, R119, R128, R130, 06 R158, R162, 07 R173, R178, R179, 09 R238, 11 R293, R294, R309). -/

namespace Sys2Proof.Machine

open Sys2Proof

/-! ### What a tile reads -/

/-- The first and past-the-last sample of a crop axis that a span of destination positions reads (05 R114, R115). -/
def readSpan (axis crop dst a b : Nat) : Nat × Nat :=
  if crop = dst then (a, b)
  else
    let k := decimation dst crop
    let n := ceilDiv crop (2 ^ k)
    let ci (v : Int) : Nat := (min (max v 0) ((n : Int) - 1)).toNat
    let lo := ci ((phaseOf (srcPos a n dst)).1 - (centre axis : Int))
    let hi := ci ((phaseOf (srcPos (b - 1) n dst)).1 + (taps axis : Int) - 1 - (centre axis : Int))
    (min (lo * 2 ^ k) (crop - 1), min ((hi + 1) * 2 ^ k) crop)

/-- The surface columns and lines a tile reads of a layer: x0, x1, y0, y1; a program may read its whole crop. -/
def State.tileSource (s : State) (n t l : Nat) : Nat × Nat × Nat × Nat :=
  let (cx, cy, cw, ch) := s.crop l
  let r := (s.dstRect l).inter (s.tileRect n t)
  if (s.layerProgram l).isSome then (cx, cx + cw, cy, cy + ch)
  else if !r.nonempty then (cx, cx, cy, cy)
  else
    let (dw, dh) := s.dstSize l
    let (x0, x1) := readSpan 0 cw dw (r.x0 - s.dstX l).toNat (r.x1 - s.dstX l).toNat
    let (y0, y1) := readSpan 1 ch dh (r.y0 - s.dstY l).toNat (r.y1 - s.dstY l).toNat
    (cx + x0, cx + x1, cy + y0, cy + y1)

/-- The byte ranges of a surface layer that a tile reads. -/
def State.tileRanges (s : State) (n t l : Nat) : List (Nat × Nat) :=
  let (x0, x1, y0, y1) := s.tileSource n t l
  if s.lyr l 6 ≠ 1 then [] else s.rectRanges l x0 x1 y0 y1

/-- What reading a layer's input for a tile comes to: readable, a translation fault, or an error at the target. -/
inductive Input where
  | ok | faulted | failed (lp5 : Bool) (addr : Nat) | linkDown
  deriving DecidableEq, Repr, Inhabited

/-- The first uncorrectable unit that a tile meets in the ring of a camera layer: of its lock stream in the boathouse's line ring, of another in
LP5X's frame ring (06 R145, 07 R173). -/
def State.badRing (s : State) (n t l : Nat) : Option (Bool × Nat) :=
  match s.slotOf (s.lyr l 0x18) with
  | none => none
  | some k =>
    let (x0, x1, y0, y1) := s.tileSource n t l
    let lock := s.lead n && decide (s.lockStream n = s.lyr l 0x18)
    let place := tabGet 0 (s.lane n).heat.cameras (s.lyr l 0x18) - 1
    let line (y : Nat) : Nat := if lock then (place + y) % 128 else place * s.streamH k + y
    let at_ (y i : Nat) : Nat := Config.ringBase k s.placement.generation + line y * s.ringLine k + x0 * s.ringBytes k + i
    ((List.range (y1 - y0)).findSome? (fun j => s.badAt (!lock) (at_ (y0 + j)) ((x1 - x0) * s.ringBytes k))).map (fun u => (!lock, u))

/-- A layer's input read for a tile (11 R293, R294, 07 R173, 01 R10). -/
def State.readInput (s : State) (n t l : Nat) : State × Input :=
  let ranges := s.tileRanges n t l
  let c := ((s.layer l).owner).getD 0
  if s.lyr l 6 = 2 then (s, match s.badRing n t l with | some u => .failed u.1 u.2 | none => .ok)
  else if s.lyr l 6 ≠ 1 then (s, .ok)
  else if s.lyr l 8 = 1 ∧ (s.layer l).residence ≠ 3 then
    match s.xltRange c false 1 l (dedup (ranges.flatMap (fun r => pagesOf r.1 r.2))) with
    | (t', false) => (t', .faulted)
    | (t', true) => (t', if (t'.port (c / 128)).linkUp then .ok else .linkDown)
  else if s.lyr l 8 = 1 then (s, .ok)
  else
    let lp5 := decide ((s.layer l).residence = 1)
    match ranges.findSome? (fun r => s.badIn c lp5 r.1 r.2) with
    | some u => (s, .failed lp5 u)
    | none => (s, .ok)

/-- Every input of a tile read in order: the layers that supply nothing, and the first error at a target (04 R99). -/
def State.readInputs (s : State) (g : State) (n t : Nat) : List Nat → State × List Nat × Option Input
  | [] => (s, [], none)
  | l :: rest =>
    let here := { s with objs := g.objs, layers := g.layers, programs := g.programs, lanes := g.lanes }
    let (u, i) := here.readInput n t l
    let back := { u with objs := s.objs, layers := s.layers, programs := s.programs, lanes := s.lanes }
    match i with
    | .ok => back.readInputs g n t rest
    | .faulted => let (v, dead, e) := back.readInputs g n t rest; (v, l :: dead, e)
    | e => (back, [], some e)

/-! ### Composition (01 R17, 05 R116 to R119, R128) -/

/-- The accumulators of a tile at depth `d` of its stack: from the flat tile it fetched, or from the background (05 R128). -/
def State.flatPixels (g : State) (n t d : Nat) (dead : List Nat) (flat : Option FlatTile) : List (Nat × Nat × Nat × Nat × Bool) :=
  let r := g.tileRect n t
  let from_ (p : Int × Int) (start : Px × Bool) (es : List Elem) : Nat × Nat × Nat × Nat × Bool :=
    let q := es.foldl (g.accumulate n dead p.1 p.2) start
    (q.1.r, q.1.g, q.1.b, q.1.a, q.2)
  match flat with
  | some f =>
    (List.zip r.pixels f.pixels).map (fun p =>
      let (c, m, b, a, sup) := p.2
      from_ p.1 ({ r := c, g := m, b := b, a := a }, sup) (((g.stack n t).take d).drop f.depth))
  | none => r.pixels.map (fun p => from_ p (g.background n, false) ((g.stack n t).take d))

/-- A tile composed in the state of its heat: the stored words, from a flat tile where one is valid. -/
def State.composeTile (g : State) (n t frame : Nat) (dead : List Nat) (flat : Option FlatTile) : List ((Int × Int) × Nat) :=
  let r := g.tileRect n t
  let o := g.outSet n
  let stack := g.stack n t
  let safe := g.safetyOf n t
  match flat with
  | some f =>
    (List.zip r.pixels f.pixels).map (fun p =>
      let (c, m, b, a, sup) := p.2
      (p.1, g.finishPixel n dead (stack.drop f.depth) safe o frame ({ r := c, g := m, b := b, a := a }, sup) p.1))
  | none => r.pixels.map (fun p => (p, g.finishPixel n dead stack safe o frame (g.background n, false) p))

/-- The heat whose row is open for composition: the newest in which the row is released and not closed. -/
def State.openHeat (s : State) (n r : Nat) : Option (Bool × Heat) :=
  let l := s.lane n
  if l.heat.released.contains r ∧ !l.heat.closed.contains r then some (true, l.heat)
  else if l.shown.released.contains r ∧ !l.shown.closed.contains r then some (false, l.shown)
  else none

/-- One of a lane's two heats changed. -/
def State.modHeat (s : State) (n : Nat) (newest : Bool) (f : Heat → Heat) : State :=
  s.modLane n (fun l => if newest then { l with heat := f l.heat } else { l with shown := f l.shown })

/-- Flat-cache refresh is shed (05 R130, 06 R166 step 3). -/
def State.flatShed (s : State) : Bool := s.placement.shed.any (fun e => e.2.1 == 3)

/-- A tile that is written stores a flat tile where its depth has risen, refresh is not shed and the allotment has room
(05 R128, R130, 06 R147). -/
def State.storeFlat (s g : State) (n t : Nat) (dead : List Nat) (flat : Option FlatTile) : State :=
  let d := g.flatDepth n t
  let have_ := (flat.map FlatTile.depth).getD 0
  if have_ < d ∧ s.flatShed = false ∧ dead = [] ∧ ((tabFind (s.lane n).flat t).isSome ∨ (s.lane n).flat.length < s.flatRoom n) then
    let f : FlatTile :=
      { depth := d, layers := g.flatSign n t, pixels := g.flatPixels n t d dead flat }
    s.modLane n (fun l => { l with flat := tabSet l.flat t f })
  else s

/-- An uncorrectable input: its umpire source with the address; every tile that meets it is abandoned (07 R173, 11 R309). -/
def State.inputError (s : State) : Input → State
  | .failed lp5 a => s.unitError lp5 a
  | _ => s

/-- The layer that an element of a stack shows. -/
def Elem.layerOf : Elem → Option Nat
  | .layer l => some l
  | .program _ _ => none

/-- A blade finishes a tile: its inputs are read, and it is written whole, or abandoned (01 R17, 07 R173). -/
def State.writeTile (s : State) (n t : Nat) : State :=
  match s.openHeat n (t / 256) with
  | none => s
  | some (newest, h) =>
    let g := s.forHeat n h
    let flat := (tabFind (s.lane n).flat t).bind (fun f => if f.layers = g.flatSign n t then some f else none)
    let skip := ((g.stack n t).take ((flat.map FlatTile.depth).getD 0)).filterMap Elem.layerOf
    let inputs := (g.covering n t).filter (fun l => !skip.contains l)
    match s.readInputs g n t inputs with
    | (u, _, some e) => (u.modHeat n newest (fun k => { k with abandoned := k.abandoned ++ [t] })).inputError e
    | (u, dead, none) =>
      let words := (u.forHeat n h).composeTile n t h.frame dead flat
      let v := if newest && decide (h.frame = s.frame n + 1) then u.keepTile n t else u
      ((v.setPixels n words).storeFlat (u.forHeat n h) n t dead flat).modHeat n newest
        (fun k => { k with written := k.written ++ [t] })

/-- A blade may have a tile in hand: a quarter of a shell that serves its row is on, and every charged tile of the row is written, abandoned or
in another blade's hands before a best-effort one is handed out (05 R102, 06 R161). -/
def State.handedOut (s : State) (n : Nat) (h : Heat) (t : Nat) : Bool :=
  let shells := s.servingShells n (t / 256)
  let g := s.forHeat n h
  let open_ := h.tiles.filter (fun x => decide (x / 256 = t / 256) && !h.written.contains x && !h.abandoned.contains x && g.tileCharged n h x)
  shells.any (fun i => (List.range 4).any (fun q => s.domainOn (4 * i + q))) &&
  (g.tileCharged n h t || decide (open_.length < 64 * shells.length))

/-- A tile may be written: it belongs to the heat whose row is open, nothing was done for it yet, and a blade has it. -/
def State.tileReady (s : State) (n t : Nat) : Bool :=
  match s.openHeat n (t / 256) with
  | none => false
  | some (_, h) => h.tiles.contains t && !h.written.contains t && !h.abandoned.contains t && s.handedOut n h t

/-! ### Rows (01 R13, R14, R19, 05 R106, 07 R178) -/

/-- A row of the newest heat may be released: the heat is of the next frame, or of this one on a lead lane. -/
def State.rowReady (s : State) (n r : Nat) : Bool :=
  let l := s.lane n
  decide (l.mode = .running ∨ l.mode = .retiming) && !l.gated && decide (r < s.tileRows n) &&
  (decide (l.heat.frame = s.frame n + 1) || (s.lead n && decide (l.heat.frame = s.frame n))) && decide (l.heat.frame ≠ 0) &&
  !l.heat.released.contains r && !l.heat.closed.contains r

/-- No shell of a row's pin is available (06 R158). -/
def State.pinOut (s : State) (n r : Nat) : Bool :=
  match s.rowPin n r with
  | none => false
  | some m => (List.range 16).all (fun i => !(m.testBit i && s.shellFree i))

/-- The row release finds the pin over a row suspended, or resumed: it is suspended, and raised once, from the release at which no shell of its
mask is available to the first at which one is again (06 R158). -/
def State.followPin (s : State) (n r : Nat) : State :=
  match (s.lane n).regionPins.find? (fun p => decide (p.1 ≤ r) && decide (r ≤ p.2.1)) with
  | none => s
  | some p =>
    if s.pinOut n r then
      (if (s.lane n).suspended.contains p.1 then s
       else (s.modLane n (fun l => { l with suspended := p.1 :: l.suspended })).raise coxStatus [4])
    else s.modLane n (fun l => { l with suspended := l.suspended.filter (fun x => decide (x ≠ p.1)) })

/-- A row is released to the shells; before the first the best-effort time is divided (01 R13, 06 R158, R162). -/
def State.releaseRow (s : State) (n r : Nat) : State :=
  ((s.divide n).modLane n (fun l => { l with heat := { l.heat with released := l.heat.released ++ [r] } })).followPin n r

/-- The heat whose row closes: that of the frame in progress (01 R13, 07 R175). -/
def State.closingHeat (s : State) (n r : Nat) : Option (Bool × Heat) :=
  let l := s.lane n
  if l.shown.frame = s.frame n ∧ l.shown.frame ≠ 0 ∧ !l.shown.closed.contains r then some (false, l.shown)
  else if l.heat.frame = s.frame n ∧ l.heat.frame ≠ 0 ∧ !l.heat.closed.contains r then some (true, l.heat)
  else none

/-- Tiles of heat `h` that were not composed go to the next heat with the damage they carried: into the one already bound where its row is not
yet released, else they stay damaged (05 R106, 06 R163). -/
def State.keepTiles (s : State) (n r : Nat) (ofNewest : Bool) (h : Heat) (tiles : List Nat) : State :=
  let l := s.lane n
  let back := h.damageOf tiles
  if !ofNewest && !l.heat.released.contains r && !l.heat.closed.contains r then
    s.modLane n (fun k => { k with heat :=
      { k.heat with tiles := k.heat.tiles ++ tiles.filter (fun t => !k.heat.tiles.contains t),
                    reasons := k.heat.reasons ++ back.filter (fun e => decide (e.2 ≠ 0) && !k.heat.reasons.contains e) } })
  else s.modLane n (fun k => { k with damage := k.damage ++ back.filter (fun e => !k.damage.contains e) })

/-- A heat whose rows have all closed lets go of its camera slots and indication buffer (09 R242, 13 R359). -/
def State.releaseHeat (s : State) (n : Nat) (h : Heat) : State :=
  if (List.range (s.tileRows n)).all h.closed.contains then
    h.cameras.foldl (fun (u : State) p =>
      match s.slotOf p.1 with
      | some k => u.modSlot k (fun q => { q with held := q.held.filter (fun x => decide (x ≠ (n, p.2 - 1)) ||
          decide (tabGet 0 (s.lane n).heat.cameras p.1 = p.2 ∧ (s.lane n).heat.frame ≠ h.frame)) })
      | none => u) s
  else s

/-- A row closes: its unwritten tiles are discarded and recompose in the next heat, and its lines count as underrun (01 R14, 07 R178); the rows that
a SHORT frame leaves uncomposed have no tiles any more (09 R238). `counts` is false at a pixel clock gate (08 R218). -/
def State.closeRow (s : State) (n r : Nat) (counts : Bool) : State :=
  match s.closingHeat n r with
  | none => s
  | some (newest, h) =>
    let lost := h.tiles.filter (fun t => decide (t / 256 = r) && !h.written.contains t)
    let h' := { h with closed := h.closed ++ [r] }
    let s1 := s.modHeat n newest (fun _ => h')
    let s2 := if lost = [] then s1 else s1.keepTiles n r newest h lost
    let s3 :=
      if lost = [] ∨ !counts then s2
      else
        (((s2.count (laneCount n 0x10) (s2.rowLines n r)).raise (laneStatus n) [2]).modLane n
          (fun l => { l with underrunInfo := s.frame n % 2 ^ 16 * 2 ^ 16 + (32 * r) % 2 ^ 13 })).occur n n
    s3.releaseHeat n h'

/-- Every open row of the heats in progress closes at once (08 R218). -/
def State.closeAll (s : State) (n : Nat) : State :=
  let close (t : State) (newest : Bool) : State :=
    let h := if newest then (t.lane n).heat else (t.lane n).shown
    if h.frame = 0 then t
    else
      (List.range (t.tileRows n)).foldl (fun u r =>
        let k := if newest then (u.lane n).heat else (u.lane n).shown
        if k.closed.contains r then u
        else
          let lost := k.tiles.filter (fun x => decide (x / 256 = r) && !k.written.contains x)
          let v := u.modHeat n newest (fun q => { q with closed := q.closed ++ [r] })
          v.modLane n (fun l => { l with damage := l.damage ++ (k.damageOf lost).filter (fun e => !l.damage.contains e) })) t
  let t := close (close s false) true
  (t.releaseHeat n (t.lane n).shown).releaseHeat n (t.lane n).heat

/-! ### Port stalls (07 R173, R179) -/

/-- The word the port sent at a pixel of the frame in progress: the stored one, or the one repeated in its place (07 R179). -/
def State.sentPixel (s : State) (n x y : Nat) : Nat :=
  match (s.lane n).stalls.find? (fun p => decide (p.1 = y * 65536 + x)) with
  | some p => p.2
  | none => s.framePixel n x y

/-- The active pixel the port sent before a position; `lastPixel` before the first of the frame (07 R179). -/
def State.pixelBefore (s : State) (n line x : Nat) : Nat :=
  if x ≠ 0 then s.sentPixel n (x - 1) line
  else if line ≠ 0 then s.sentPixel n (s.laneW n - 1) (line - 1)
  else (s.lane n).lastPixel

/-- The `k` pixels sent from a position on, in raster order, as line × 65,536 + column; the frame's last pixel ends them. -/
def State.runFrom (s : State) (n line x k : Nat) : List Nat :=
  let w := s.laneW n
  ((List.range k).map (fun i => line * w + x + i)).filterMap (fun p =>
    if p < w * s.laneH n then some (p / w * 65536 + p % w) else none)

/-- A run of pixels that the port repeated: the last pixel it sent in their place (07 R179). Pixels lost to an uncorrectable unit raise the
umpire's source of its channel with the unit's offset, and damage their tiles (07 R173, R174). -/
def State.stallPort (s : State) (n line x k : Nat) (uncorrectable : Bool) : State :=
  let word := s.pixelBefore n line x
  let run := s.runFrom n line x k
  let s1 := ((s.count (laneCount n 0x18) 1).raise (laneStatus n) [3]).modLane n (fun l =>
    { l with stallInfo := min k 0xFFFF * 2 ^ 16 + line % 2 ^ 13, stalls := run.map (fun p => (p, word)) ++ l.stalls })
  if uncorrectable then
    ((s1.modLane n (fun l => { l with lost := run ++ l.lost })).unitError false (s.pixelOffset n x line / 32 * 32)).damage n
      (dedup (run.map (fun p => tileKey (p % 65536 / 64) (p / 65536 / 32)))) 0
  else s1

end Sys2Proof.Machine
end

