-- ==== Sys2Proof/Machine/Frames.lean ====
section
/-! DEFINITION. Frame starts, front porches, self-refresh, RETIME's progress, the pixel clock and its references (01 R18, 07 R180, R182 to
R189, R192, R195 to R197, 08 R209, R213, R214, R216 to R224, 16 R417, R420). -/

namespace Sys2Proof.Machine

open Sys2Proof

/-! ### Time and genlock -/

/-- A lane's mean pixel clock in units of 1/64,000,000,000 Hz: that of the frame in progress, with the synthesizer's offset where it follows a
camera (01 R18, 07 R186, R191), lower by half its spread (08 R215). -/
def State.clock16 (s : State) (n : Nat) : Nat :=
  s.frameNum n 1 8 * ((s.lane n).trackOffset + 16_000_000).toNat * (4000 - s.frameNum n 1 9)

/-- One line of a lane in ns, times `clock16`. -/
def State.line16 (s : State) (n : Nat) : Nat := s.frameNum n 1 4 * 16_000_000_000_000_000 * 4000

/-- `k` line times of a lane in ns, rounded down. -/
def State.linesNs (s : State) (n k : Nat) : Nat := k * s.line16 n / s.clock16 n

/-- Whole lines since the lane's frame start (07 R199, LANE.STATE.line). -/
def State.lineNow (s : State) (n : Nat) : Nat := (s.now - (s.lane n).frameAt) * s.clock16 n / s.line16 n

/-- The end of the last active line of the frame in progress, in lines from its frame start (07 R180). -/
def State.activeEnd (s : State) (n : Nat) : Nat := s.frameNum n 1 6 + s.frameNum n 1 7 + s.frameNum n 1 5

/-- The lane has variable blanking: it is enabled and camera lock is clear (07 R182). -/
def State.varies (s : State) (n : Nat) : Bool := decide (s.frameNum n 2 1 = 1) && !s.lead n

/-- A lane's source is lost: off, retiming, in LIMP or gated (07 R189). -/
def State.sourceLost (s : State) (k : Nat) : Bool :=
  !decide ((s.lane k).mode = .running ∨ (s.lane k).mode = .selfRefresh) || (s.lane k).gated

/-- The source a member of a group follows, another lane of this device (07 R187); a membership counts from the frame start after its
commit (R189, R191). -/
def State.follows (s : State) (n : Nat) : Option Nat :=
  if s.frameNum n 6 1 = 0 then none else (s.leader n).bind (fun k => if k = n then none else some k)

/-- A member that loses its source raises genlock_lost once (07 R189). -/
def State.genlockLoss (s : State) (n : Nat) : State :=
  if (s.lane n).genlockLost then s
  else (s.modLane n (fun l => { l with genlockLost := true, genlockAligned := false })).raise (laneStatus n) [6]

/-- Every running member that follows a lane loses its source. -/
def State.loseGroup (s : State) (k : Nat) : State :=
  (List.range 8).foldl (fun t n =>
    if t.follows n = some k ∧ (t.lane n).mode = .running then t.genlockLoss n else t) s

/-- The marker path of a subordinate: a link towards the master that is up, and the master not lost (16 R417, R424). -/
def State.markerPath (s : State) : Bool := !s.cascade.masterLost && s.cascade.links.any (fun l => decide (l.mode = .up) && l.towards)

/-- The frame start that a cascade member follows: the last marker, on the master the frame start of casc.genlock_lane; none where
it is lost (16 R417). -/
def State.markerSource (s : State) : Option Nat :=
  if s.cascMaster then (if s.sourceLost (s.num 0x7C00 4) then none else some (s.lane (s.num 0x7C00 4)).frameAt)
  else if s.markerPath then s.cascade.markerAt else none

/-- The frame start that a member's next frame follows: none where the lane follows no source, `some none` while its source is lost (07 R187,
R189, 16 R417). -/
def State.sourceStart (s : State) (n : Nat) : Option (Option Nat) :=
  if s.frameNum n 6 2 = 1 then (if s.cascMaster ∧ s.num 0x7C00 4 = n then none else some s.markerSource)
  else (s.follows n).map (fun k => if s.sourceLost k then none else some (s.lane k).frameAt)

/-- A source's frame start at `t` lies in the window of the member's frame in progress (07 R189). -/
def State.inWindow (s : State) (n t : Nat) : Bool :=
  let since := (t - (s.lane n).frameAt) * s.clock16 n
  decide ((s.frameNum n 1 5 + s.frameNum n 2 4) * s.line16 n ≤ since) && decide (since ≤ (s.frameNum n 1 5 + s.frameNum n 2 5) * s.line16 n)

/-- The front porch that a member repeats without its source: its last aligned frame's, at least its minimum (07 R189). -/
def State.repeatedPorch (s : State) (n : Nat) : Nat :=
  max (s.lane n).lastPorch (s.frameNum n 2 4 - (s.frameNum n 1 6 + s.frameNum n 1 7))

/-- Genlock permits the lane's next frame start: an aligned member's after its source's; one that is not aligned starts at a source's frame
start in its window, or repeats its last aligned front porch (07 R188, R189). -/
def State.genlockDue (s : State) (n : Nat) : Bool :=
  let l := s.lane n
  let repeats := decide (s.activeEnd n + s.repeatedPorch n ≤ s.lineNow n)
  match s.sourceStart n with
  | none => true
  | some none => repeats
  | some (some t) => if l.genlockAligned then decide (l.frameAt < t) else repeats || (decide (l.frameAt < t) && s.inWindow n t)

/-- The genlock side of a frame start: it is aligned where the source's lies at most one of the lane's own pixels before it, and, for a lane not
aligned yet, in its window (07 R188, R189, 16 R417); a lane with no source to follow is not aligned (R199). -/
def State.genlockFrame (s : State) (n : Nat) : State :=
  let l := s.lane n
  match s.sourceStart n with
  | none => s.modLane n (fun k => { k with genlockAligned := false, genlockLost := false })
  | some none => s.genlockLoss n
  | some (some t) =>
    if decide ((s.now - t) * s.laneNum n 1 8 ≤ 1_000_000_000 + s.laneNum n 1 8) && (l.genlockAligned || s.inWindow n t) then
      (if l.genlockAligned then s else s.raise (laneStatus n) [7]).modLane n
        (fun k => { k with genlockAligned := true, genlockLost := false, lastPorch := s.lineNow n - s.activeEnd n })
    else s.modLane n (fun k => { k with genlockAligned := false })

/-- The master of a cascade sends a marker on every link that is up (16 R417). -/
def State.sendMarkers (s : State) (n : Nat) : State :=
  if s.cascMaster ∧ s.num 0x7C00 4 = n then
    (List.range 2).foldl (fun t k => if (s.cascade.links.getD k blankLink).mode = .up then t.send (.slkMarker k) else t) s
  else s

/-! ### The synthesizer (08 R214, R222) -/

/-- f_ref: the active reference's nominal 25 MHz, or the watch oscillator as measured (08 R214). -/
def State.fRef (s : State) (ref : Nat) : Nat := if ref = 2 then s.clocks.watchHz else 25_000_000

/-- P, N and F of a pixel clock (08 R214): the largest P with the oscillator from 3.240 to 6.390 GHz, F rounded to nearest. -/
def synthOf (fref pclk : Nat) : Nat × Nat × Nat :=
  let p := ((List.range 318).map (fun i => 320 - i)).find? (fun p => decide (3_240_000_000 ≤ pclk * p) && decide (pclk * p ≤ 6_390_000_000))
  match p with
  | none => (0, 0, 0)
  | some p =>
    let m := (2 * (pclk * p * 2 ^ 24) + fref) / (2 * fref)
    (p, m / 2 ^ 24, m % 2 ^ 24)

/-- The lane's synthesizer is set for its pixel clock on the active reference. -/
def State.tuneLane (s : State) (n ref : Nat) : State :=
  let (p, i, f) := synthOf (s.fRef ref) (s.laneNum n 1 8)
  s.modLane n (fun l => { l with synthRef := ref, synthP := p, synthN := i, synthF := f })

/-! ### What the port sends in a frame (07 R197, 08 R203, R204, R209, R212) -/

/-- DSI command mode (08 R209). -/
def State.commandMode (s : State) (n : Nat) : Bool := s.laneNum n 7 1 != 0 && bitOf (s.laneNum n 7 5) 0

/-- The tile rows sent in the frame that begins: with selective update those composed in it, else all (07 R197). -/
def State.sentRows (s : State) (n : Nat) : List Nat :=
  let l := s.lane n
  if s.laneNum n 6 5 = 1 ∧ l.selective ∧ l.mode ≠ .limp then
    (if l.heat.frame = s.frame n + 1 then dedup (l.heat.tiles.map (fun t => t / 256)) else [])
  else List.range (s.tileRows n)

/-- A panel command with parameters as a DSI packet: data type, flags, payload (08 R210; the codes of notes/assumptions/95). -/
def dcsWrite (command : Nat) (args : List Nat) : List Byte := (0x39 :: 0 :: command :: args).map (BitVec.ofNat 8)

/-- The column and page addresses of a tile row, sent before it in command mode with selective update (08 R209). -/
def State.rowAddress (s : State) (n r : Nat) : List (List Byte) :=
  let span (a b : Nat) : List Nat := [a / 256, a % 256, b / 256, b % 256]
  [dcsWrite 0x2A (span 0 (s.laneW n - 1)), dcsWrite 0x2B (span (32 * r) (32 * r + s.rowLines n r - 1))]

/-- The Picture Parameter Set of a lane's DSC settings, from the recommended values that the cox knows (08 R212). -/
def State.pps (s : State) (n : Nat) : List Byte :=
  Config.pictureParameterSet [s.laneNum n 7 8, s.laneNum n 7 9, s.laneNum n 7 0xA,
    if s.laneNum n 7 0xB = 0 then s.laneH n else s.laneNum n 7 0xB, s.laneNum n 7 0xFE, s.laneW n, s.laneH n]

/-- The Picture Parameter Set is sent: on eDP as its secondary data packet, on DSI as a long packet (08 R212). -/
def State.sendPps (s : State) (n : Nat) : State :=
  if s.laneNum n 7 7 ≠ 1 then s
  else if s.laneNum n 7 1 = 0 then s.send (.pps n (s.pps n)) else s.send (.dsiPacket n (0x0A :: 0 :: s.pps n))

/-- A D-PHY port above 1,500 Mbit/s, which sends deskew sequences (08 R203). -/
def State.deskews (s : State) (n : Nat) : Bool := decide (s.laneNum n 7 1 = 1) && (s.dsiRate n).any (fun r => decide (1500 < r))

/-- The periodic deskew sequence, once a second, in vertical blanking (08 R203, R204). -/
def State.sendDeskew (s : State) (n : Nat) : State :=
  if s.deskews n && decide ((s.lane n).deskewAt + 1_000_000_000 ≤ s.now) then
    (s.send (.deskew n false)).modLane n (fun l => { l with deskewAt := s.now })
  else s

/-- The zero bits with which DSC extends each component's code: two where 12 bits a component are coded from a depth of 10 (08 R211). -/
def State.codePadding (s : State) (n : Nat) : Nat := if s.laneNum n 7 7 = 1 then s.laneNum n 7 8 - s.laneNum n 4 8 else 0

/-- What the port sends for the frame that begins, where its link is up: the rows of active lines, each code with its padding. -/
def State.sendFrame (s : State) (n : Nat) : State :=
  if (s.lane n).link ≠ .up then s
  else
    let rows := s.sentRows n
    let t := (s.sendPps n).sendDeskew n
    let u := if s.commandMode n && decide (s.laneNum n 6 5 = 1) && (s.lane n).selective then
        (rows.flatMap (s.rowAddress n)).foldl (fun v p => v.send (.dsiPacket n p)) t else t
    u.send (.portVideo n rows (s.codePadding n))

/-- The high time of a lane's backlight in a period, in ns: duty / 4,096 of it, quantised to 5 ns (08 R213; to nearest, notes/assumptions/96). -/
def Lane.pwmHigh (l : Lane) : Nat := roundDiv (l.blPeriod * 1000 * l.blDuty) (4096 * 5) * 5

/-- A PWM period starts with the settings in effect: period, high time, inversion (08 R213). -/
def State.pwmPeriod (s : State) (n : Nat) : State :=
  let t := s.modLane n (fun l =>
    { l with blPeriod := s.laneNum n 7 0xD, blDuty := s.laneNum n 7 0xE, blInvert := bitOf (s.laneNum n 7 0xF) 1 })
  if (s.lane n).blLow then t else t.send (.pwm n ((t.lane n).blPeriod * 1000) (t.lane n).pwmHigh (t.lane n).blInvert)

/-! ### Frame starts (07 R180) -/

/-- The lane's timing, genlock and blanking objects, which hold for the whole frame that begins (07 R191). -/
def State.frameTiming (s : State) (n : Nat) : Tab Val :=
  s.objs.filter (fun p => [0, 1, 2, 6].any (fun b => decide (p.1 / 256 = laneIx n b)))

/-- A seamless step of the pixel clock is followed without loss of lock from this frame start on (07 R191, 08 R216). -/
def State.followStep (s : State) (n : Nat) : State :=
  if s.frameNum n 1 8 = s.laneNum n 1 8 then s else s.tuneLane n (s.lane n).synthRef

/-- A lane frame begins: the frame counter advances, seamless timing changes take effect (07 R191); a BLPWM with frame_sync restarts its
period (08 R213). -/
def State.beginFrame (s : State) (n : Nat) (restart : Bool) : State :=
  let last := if restart then 0xC000_0000 else s.sentPixel n (s.laneW n - 1) (s.laneH n - 1)
  let s0 := (((s.dropKept n).genlockFrame n).followStep n).sendFrame n
  let s1 := (s0.count (laneCount n 0) 1).quietCounts n
  let s2 := s1.modLane n (fun l =>
    { l with frameAt := s.now, porchSince := none, porch := false, porchExtended := false, porchMaxed := false, porchCaught := false, frameDue := false,
             teSeen := false, cameraLock := s.lead n && l.sStart.isSome, sStart := none, stalls := [], lost := [], lastPixel := last,
             timing := some (s.frameTiming n),
             evaluated := decide (l.mode = .running), quietFrames := l.quietFrames + 1,
             wbActive := decide (s.laneNum n 5 1 = 1) && decide (l.mode = .running) &&
                         decide (l.wbCount % (max 1 (s.laneNum n 5 0xB)) = 0),
             wbCount := l.wbCount + 1 })
  let s3 := if bitOf (s.laneNum n 7 0xF) 0 then s2.pwmPeriod n else s2
  s3.sendMarkers n

/-- The lane may start its next frame: it runs, the device is not going to sleep (15 R399), its clock is locked and not gated, and what its front porch waits for has come: the decision of
its minimum with variable blanking, its source, a TE edge, its camera (07 R180, R182, R183, R185, R188, 08 R209). -/
def State.frameReady (s : State) (n : Nat) : Bool :=
  let l := s.lane n
  s.laneOn n && l.scans && !l.gated && l.locked && s.modes.sleeping.isNone &&
  (l.frameDue ||
   ((!s.lead n || l.sStart.any (fun t => decide (t ≤ s.now))) && (!s.varies n || l.porch) && !l.porchExtended && s.genlockDue n &&
    (!s.commandMode n || l.teSeen)))

/-- A lane is its indication's, or carries what keeps it out of self-refresh (07 R195). -/
def State.refreshBarred (s : State) (n : Nat) : Bool :=
  s.lead n || s.genlocked n || decide (s.laneNum n 5 1 = 1) ||
  (s.smu.indPlaced && decide (s.num 0x7801 6 = n)) ||
  (s.layersOn n).any (fun l => decide (s.lyr l 3 = 2) || s.safety l) ||
  s.programs.any (fun p => p.2.inEffect && p.2.everyFrame && decide (p.2.lane = n))

/-- The conditions of 07 R195, with R197's single frame where selective update is on. -/
def State.refreshReady (s : State) (n : Nat) : Bool :=
  let l := s.lane n
  let selective := decide (s.laneNum n 6 5 = 1) && l.selective
  decide (l.mode = .running) && !l.gated && decide (s.laneNum n 6 3 = 1) && l.psr && !s.refreshBarred n &&
  decide ((if selective ∧ 0 < s.counter (laneCount n 0x38) then 1 else s.laneNum n 6 4) ≤ l.quietFrames)

/-- Entry to self-refresh: the timing generator, the port and the synthesizer stop (07 R195); a DSI link goes to ULPS (08 R209). -/
def State.enterRefresh (s : State) (n : Nat) : State :=
  let t := if s.laneNum n 7 1 ≠ 0 ∧ (s.lane n).link = .up then s.send (.ulps n true) else s
  ((t.modLane n (fun l => { l with mode := .selfRefresh, wbActive := false, locked := false, tracking := false, heldLine := s.lineNow n,
                                   link := if l.link = .up then .lowPower else l.link })).raise (laneStatus n) [10]).count
    (laneCount n 0x38) 1

/-! ### Front porches (07 R182 to R185) -/

/-- Content is ready at the minimum front porch (07 R182). -/
def State.contentReady (s : State) (n : Nat) : Bool :=
  let l := s.lane n
  l.awaiting.any (fun a => decide (a.2.2 = s.frame n + 1)) ||
  (decide (l.heat.frame = s.frame n + 1) && decide (l.heat.tiles ≠ [])) ||
  (s.layersOn n).any (fun k => decide (s.lyr k 3 = 2)) ||
  s.programs.any (fun p => p.2.inEffect && p.2.everyFrame && decide (p.2.lane = n))

/-- A frame starts at the maximum front porch without content: vrr_max (07 R184). -/
def State.repeatFrame (s : State) (n : Nat) : State :=
  ((s.raise (laneStatus n) [4]).count (vrrCount n 0) 1).modLane n (fun l => { l with frameDue := true })

/-- The maximum front porch: in lead discipline the catch of the commits of 04 R86 without a heat; a command-mode lane misses its
TE edge; a chase lane repeats its frame unless its porch was caught (07 R183 to R185, 08 R209). -/
def State.porchMax (s : State) (n : Nat) : State :=
  if s.lead n then (s.repeatFrame n).catchLane n false
  else if s.commandMode n then (s.raise (portStatus n) [5]).modLane n (fun l => { l with frameDue := true })
  else if (s.lane n).porchCaught then s.modLane n (fun l => { l with porchMaxed := true, frameDue := true })
  else (s.repeatFrame n).modLane n (fun l => { l with porchMaxed := true })

/-- A lane whose front porch can reach its maximum now. -/
def State.porchOpen (s : State) (n : Nat) : Bool :=
  let l := s.lane n
  l.scans && !l.gated && !l.frameDue &&
  (if s.lead n then l.sStart.isNone else if s.commandMode n then !l.teSeen else s.varies n && l.porchExtended)

/-! ### Writeback (05 R136 to R139) -/

/-- The 10-bit components of a stored word. -/
def word10 (w : Nat) : Nat × Nat × Nat := (bits w 29 20, bits w 19 10, bits w 9 0)

/-- Y of BT.709 at limited range, 10 bits (05 R137). -/
def lumaOf (w : Nat) : Nat :=
  let (r, g, b) := word10 w
  64 + ((876 * (2126 * r + 7152 * g + 722 * b) * 2 + 10_230_000) / 20_460_000)

/-- A chroma sample over the words of a 2 × 2 block: Cb (true) or Cr, 10 bits (05 R137). -/
def chromaOf (blue : Bool) (ws : List Nat) : Nat :=
  let d (w : Nat) : Int :=
    let (r, g, b) := word10 w
    (10000 * (if blue then b else r) : Int) - (2126 * r + 7152 * g + 722 * b : Nat)
  let sum : Int := (ws.map d).sum
  let k : Nat := if blue then 18556 else 15748
  (min 1023 (max 0 (512 + roundI (896 * sum) (1023 * k * max 1 ws.length)))).toNat

/-- A 10-bit value as NV12 and P010 hold it. -/
def yuvBytes (nv12 : Bool) (v : Nat) : List Byte := if nv12 then leBytes 1 (min 255 ((v + 2) / 4)) else leBytes 2 (v * 64)

/-- The region of a lane's writeback (05 R136). -/
def State.wbRegion (s : State) (n : Nat) : Rect :=
  if s.laneNum n 5 3 = 0 then s.active n else (rectOf (s.laneNum n 5 3)).inter (s.active n)

/-- The byte runs of a finished writeback: address and bytes (05 R136, R137, 04 R75); a pixel lost to an uncorrectable unit is written as the
port repeated it (07 R179). -/
def State.wbRuns (s : State) (n : Nat) : List (Nat × List Byte) :=
  let r := s.wbRegion n
  let f := s.laneNum n 5 2
  let base := s.laneNum n 5 5 + (s.lane n).wbFrames % (max 1 (s.laneNum n 5 0xA)) * s.laneNum n 5 6
  let w := (r.x1 - r.x0).toNat
  let h := (r.y1 - r.y0).toNat
  let px (x y : Nat) : Nat :=
    let (lx, ly) := (r.x0.toNat + x, r.y0.toNat + y)
    if (s.lane n).lost.contains (ly * 65536 + lx) then s.sentPixel n lx ly else s.framePixel n lx ly
  let nv12 := decide (f = 0x10)
  let line (y : Nat) : List Byte := (List.range w).flatMap (fun x =>
    match f with
    | 3 => leBytes 4 (px x y)
    | 2 =>
      let (rr, g, b) := word10 (px x y)
      let e (v : Nat) : Nat := min 255 ((v + 2) / 4)
      leBytes 4 (0xFF00_0000 + e rr * 2 ^ 16 + e g * 2 ^ 8 + e b)
    | _ => yuvBytes nv12 (lumaOf (px x y)))
  let chroma (j : Nat) : List Byte := (List.range ((w + 1) / 2)).flatMap (fun i =>
    let ws := ([(0, 0), (1, 0), (0, 1), (1, 1)].filter (fun p => decide (2 * i + p.1 < w) && decide (2 * j + p.2 < h))).map
      (fun p => px (2 * i + p.1) (2 * j + p.2))
    yuvBytes nv12 (chromaOf true ws) ++ yuvBytes nv12 (chromaOf false ws))
  (List.range h).map (fun y => (base + y * s.laneNum n 5 7, line y)) ++
  (if f = 0x10 ∨ f = 0x12 then
    (List.range ((h + 1) / 2)).map (fun j => (base + s.laneNum n 5 9 + j * s.laneNum n 5 8, chroma j))
   else [])

/-- Runs written in order; a fault leaves the rest unwritten (11 R294). -/
def State.writeRuns (s : State) (c : Nat) (host : Bool) (requester detail : Nat) : List (Nat × List Byte) → State × Bool
  | [] => (s, true)
  | (a, bs) :: rest =>
    match s.writeCrew c host a bs requester detail with
    | (t, true) => t.writeRuns c host requester detail rest
    | (t, false) => (t, false)

/-- A writeback of a frame ends without it: counted and posted; the next frame due goes into the same buffer (05 R139). -/
def State.dropWriteback (s : State) (n : Nat) : State :=
  let t := s.modLane n (fun l => { l with wbActive := false, wbAbandoned := l.wbAbandoned + 1 })
  match (s.lane n).wbOwner with
  | some c => t.post c (eventWord 0xD n 0 0 0)
  | none => t

/-- A running writeback is abandoned: its buffer holds partial data, as many lines as had reached memory, a number that the manual leaves open
(05 R139, 08 R218). -/
def State.abandonWriteback (s : State) (n : Nat) : State :=
  if !(s.lane n).wbActive then s
  else
    let runs := s.wbRuns n
    let part := runs.take (s.free % (runs.length + 1))
    match (s.lane n).wbOwner with
    | some c => (s.used.writeRuns c (decide (s.laneNum n 5 4 = 1)) 5 n part).1.dropWriteback n
    | none => s.dropWriteback n

/-! ### Gates and locks (08 R216 to R218) -/

/-- A gate of a lane's output: the timing generator stops, open rows close, its writeback is abandoned, the frame is not evaluated (08 R218). -/
def State.gateLane (s : State) (n : Nat) : State :=
  ((((s.modLane n (fun l => { l with gated := true, locked := false, tracking := false, evaluated := false, sStart := none, dueGate := false,
                                     genlockAligned := false, heldLine := s.lineNow n,
                                     porchExtended := false, frameDue := false })).send (.portIdle n)).closeAll n).abandonWriteback n).loseGroup n

/-- Loss of lock or of the reference gates a lane: pclk_unlock and its umpire source (08 R217). -/
def State.unlockLane (s : State) (n : Nat) : State := ((s.gateLane n).raise (portStatus n) [6]).occur (8 + n) n

/-- A lane whose synthesizer runs. -/
def State.clockRuns (s : State) (n : Nat) : Bool :=
  (s.lane n).locked && !(s.lane n).gated && !decide ((s.lane n).mode = .off ∨ (s.lane n).mode = .selfRefresh)

/-- A disabling RETIME has ended: the lane is off, its frame storage released and its domain off, but where it is held on; nothing of its commit awaits presentation
(07 R194). -/
def State.disableDone (s : State) (n : Nat) : State :=
  let t := (s.gateLane n).modLane n (fun l => { l.unplanned with mode := .off, link := .off, gated := true, locked := false, blLow := true })
  ({ t.send (.portOff n) with frames := t.frames.filter (fun p => decide (p.1 / 2 ^ 32 ≠ n)) }).letGo (64 + n)

/-- Steps 3 and 4 of a RETIME at the end of frame N's last active line: the port sends its idle pattern, the panel is powered off, the frame is
re-placed in black (07 R192). A disabling RETIME ends here (R194). -/
def State.retimeDark (s : State) (n : Nat) : State :=
  let t := s.send (.portIdle n)
  let u := if s.laneNum n 1 0xA = 0 then t else t.send (.panelOff n (s.laneNum n 1 0xA))
  if ((s.lane n).retime).any (fun r => r.disabling) then u.disableDone n
  else
    (u.modLane n (fun l => { l with link := .off, locked := false, tracking := false, heldLine := s.lineNow n, dueGate := false,
                                    retime := l.retime.map (fun r => { r with idle := true }) })).replaceFrame n

/-- What the end of the last active line brings about on a lane: the dark interval of its RETIME (07 R192, R193), or the gate for a reference
that is restored (08 R223). It is carried out with the first command of the lane that comes at that instant or after it
(notes/assumptions/97). -/
def State.follow (s : State) (n : Nat) : State :=
  let l := s.lane n
  let ended := l.gated || decide (s.activeEnd n ≤ s.lineNow n)
  if l.retime.any (fun r => !r.idle && !r.f0) && ended then s.retimeDark n
  else if l.dueGate && ended && s.clockRuns n then s.gateLane n
  else s

/-- The state in which a command of lane `n` finds the device: `dt` ns later, with what the end of the last active line has brought about. -/
def State.meet (s : State) (dt n : Nat) : State := (s.tick dt).follow n

/-- A command of a lane whose instant has come. -/
def happenOn (dt n : Nat) (ready : State → Bool) (eff : State → State) (s : State) : Host.Outcome State Fault Refusal :=
  happen dt (fun t => decide (n < 8) && ready (t.follow n)) (fun t => eff (t.follow n)) s

/-- Lock is declared (08 R216): a gated lane restarts (R218); a RETIME's synthesizer is ready (07 R192 step 5). -/
def State.lockLane (s : State) (n : Nat) : State :=
  let l := s.lane n
  let ref := if l.mode = .limp ∧ s.modes.mode = .limp then 2 else s.clocks.active
  let s2 := (s.tuneLane n ref).modLane n (fun k => { k with locked := true, gated := false, porchSince := some s.now, tracking := false,
                                                            trackOffset := 0, trackBeyond := false, lastPixel := 0xC000_0000, stalls := [], lost := [] })
  if l.gated && !((l.retime).any (fun r => r.enabling)) then s2.raise (portStatus n) [7] else s2

/-- Lock can be declared: the synthesizer is not locked, it runs, a reference exists, and a RETIME has reached its step 5 (07 R192, 08 R216,
R222). -/
def State.lockReady (s : State) (n : Nat) : Bool :=
  let l := s.lane n
  !l.locked && !s.clocks.noRef && !decide (l.mode = .off ∨ l.mode = .selfRefresh) &&
  !(l.retime).any (fun r => r.disabling || (!r.idle && !r.f0))

/-- F0 may start: steps 1 to 5 are done (07 R192); in lead discipline at the usable camera frame start that schedules it. -/
def State.f0Ready (s : State) (n : Nat) : Bool :=
  let l := s.lane n
  (l.retime).any (fun r => r.idle && r.portUp && !r.f0 && !r.disabling) && l.locked && !l.gated &&
  (!s.lead n || l.sStart.any (fun t => decide (t ≤ s.now)) || l.frameDue)

/-- F0's frame start: the RETIME is no longer in progress (07 R193). -/
def State.startF0 (s : State) (n : Nat) : State :=
  (s.modLane n (fun l => { l with retime := l.retime.map (fun r => { r with f0 := true }) })).beginFrame n true

/-! ### References (08 R219 to R223) -/

/-- The next reference after the active one fails: the secondary, then the watch oscillator, by CLK.REF_CFG as the last entry to LAUNCH read it
(08 R219). -/
def State.nextRef (s : State) : Nat :=
  let second := if bitOf s.clocks.refCfg 1 then 1 else 2
  match s.clocks.active with
  | 3 => 0
  | 0 => second
  | _ => 2

/-- The limp composer's lane runs from the watch oscillator, and no judgement of a reference reaches it (08 R224). -/
def State.limpLocked (s : State) (n : Nat) : Bool := decide (s.modes.mode = .limp ∧ (s.lane n).mode = .limp)

/-- Every running synthesizer is gated for the loss of its reference (08 R217, R220). -/
def State.unlockAll (s : State) : State :=
  (List.range 8).foldl (fun t n => if t.clockRuns n && !t.limpLocked n then t.unlockLane n else t) s

/-- The device moves to its next reference: failover, its umpire source, gated lanes (08 R220, R221). -/
def State.failover (s : State) : State :=
  let t := (s.raise refStatus [1]).occur 37 s.clocks.active
  (t.modClocks (fun c => { c with active := s.nextRef })).unlockAll

/-- No reference remains (08 R222). -/
def State.loseReference (s : State) : State :=
  ((s.modClocks (fun c => { c with watchDead := true, noRef := true })).unlockAll.raise refStatus [5]).lineOn 40 0

/-- N and F moved towards a target by at most 500 ppm of what they are (08 R222). -/
def stepTo (now target : Nat) : Nat :=
  let most := now * 500 / 1_000_000
  max (now - most) (min (now + most) target)

/-- A synthesizer on the watch oscillator follows a new measurement by one step, without loss of lock (08 R222, notes/assumptions/98). -/
def State.stepLane (s : State) (n : Nat) : State :=
  let l := s.lane n
  let (_, i, f) := synthOf (s.fRef 2) (s.laneNum n 1 8)
  let m := stepTo (l.synthN * 2 ^ 24 + l.synthF) (i * 2 ^ 24 + f)
  s.modLane n (fun k => { k with synthN := m / 2 ^ 24, synthF := m % 2 ^ 24 })

/-- The monitor's judgement of the watch oscillator (08 R222): ±3 % about 50 MHz; a dead one while it is the reference. -/
def State.judgeWatch (s : State) (hz : Nat) : State :=
  let bad := decide (hz < 48_500_000) || decide (51_500_000 < hz)
  let t := s.modClocks (fun c => { c with watchHz := hz, watchBad := bad })
  let u := if bad then (t.raise refStatus [3]).lineOn 38 0 else t.lineOff 38
  if s.clocks.active = 2 ∧ hz = 0 then u.loseReference
  else if s.clocks.active = 2 ∧ s.modes.mode ≠ .limp then
    (List.range 8).foldl (fun v n => if v.clockRuns n ∧ (v.lane n).synthRef = 2 then v.stepLane n else v) u
  else u

/-- The end of a window: `primary` cycles of the primary reference were counted, and `active` of the active one where that is another 25 MHz
input or the cascade's (08 R220). REF_DRIFT takes the primary's count while another reference is active, so always (R223). -/
def State.monitorWindow (s : State) (primary active hz : Nat) : State :=
  let off (cnt : Nat) : Int := (cnt : Int) - 25_000_000
  let s1 := s.modClocks (fun c => { c with drift := off primary, primaryGood := decide ((off primary).natAbs ≤ 5_000) && !c.grossBad, grossBad := false })
  let drift := off (if s.clocks.active = 0 then primary else active)
  let s2 :=
    if s.clocks.active = 2 then s1
    else
      let w := if drift.natAbs ≤ 5_000 then s1.lineOff 36 else (s1.raise refStatus [0]).lineOn 36 0
      if 12_500 < drift.natAbs then w.failover else w
  s2.judgeWatch hz

/-- A gross failure of the active reference (08 R221). -/
def State.grossFailure (s : State) : State :=
  let t := s.raise refStatus [2]
  (if s.clocks.active = 0 then t.modClocks (fun c => { c with grossBad := true, primaryGood := false }) else t).failover

/-- A reference becomes the active one: every running lane is gated at the end of its last active line and relocked on it. A lane in
self-refresh, or in a RETIME before its frame start, switches at its restart (08 R223, 16 R416). -/
def State.switchRef (s : State) (ref : Nat) : State :=
  let t := s.modClocks (fun c => { c with active := ref, noRef := false })
  (List.range 8).foldl (fun u n =>
    if !u.clockRuns n || u.limpLocked n || decide ((u.lane n).synthRef = ref) then u
    else if (u.lane n).retime.any (fun r => !r.f0) then u.modLane n (fun l => { l with locked := !l.retime.any (fun r => r.idle && !r.f0) })
    else u.modLane n (fun l => { l with dueGate := true })) t

/-- A request to return to the primary (08 R223): refused, or carried out. -/
def State.restoreRef (s : State) : State :=
  if !s.clocks.primaryGood then s.raise refStatus [6] else s.switchRef 0

/-- The 32.768 kHz crystal fails over to the RC oscillator (08 R220, 15 R404). -/
def State.xtal32Fail (s : State) : State :=
  if s.modes.rcWindow then s
  else ((s.modClocks (fun c => { c with xtal32Failed := true })).raise refStatus [4]).lineOn 39 0

end Sys2Proof.Machine
end

