-- ==== Sys2Proof/Machine/Ports.lean ====
section
/-! DEFINITION. Output ports: eDP and DSI bring-up, HPD, command mode, the backlight (08 R200 to R213, R227, R229). -/

namespace Sys2Proof.Machine

open Sys2Proof

/-- The port is an eDP port of a lane that is on. -/
def State.isEdp (s : State) (n : Nat) : Bool := decide (s.laneNum n 7 1 = 0) && !decide ((s.lane n).mode = .off)

/-- A bring-up fails: the reason is held, link_failed raised, the port's umpire source active (08 R206, R229). A RETIME goes on. -/
def State.failLink (s : State) (n reason : Nat) : State :=
  ((s.modLane n (fun l => { l with link := .failed, failReason := reason, trainedRate := 0, trainedLanes := 0, candidates := [],
                                   retime := l.retime.map (fun r => { r with portUp := true }) })).raise (portStatus n) [1]).lineOn (16 + n) n

/-- The link is up (08 R206 step 6, R208 step 5). -/
def State.raiseLink (s : State) (n rate lanes : Nat) : State :=
  ((s.modLane n (fun l => { l with link := .up, failReason := 0, trainedRate := rate, trainedLanes := lanes, candidates := [],
                                   retime := l.retime.map (fun r => { r with portUp := true }) })).raise (portStatus n) [0]).lineOff (16 + n)

/-- The candidate pairs of link rate and lane count in order: descending C, ties to more lanes (08 R206 step 3). -/
def State.candidatesFor (s : State) (n : Nat) (k : SinkCaps) : List (Nat × Nat) :=
  let all := (List.range 8).flatMap (fun r => [1, 2, 4].map (fun w => (r, w)))
  let ok := all.filter (fun p => decide (p.1 ≤ s.laneNum n 7 3) && decide (p.1 ≤ k.maxRate) && decide (p.2 ≤ s.laneNum n 7 2) &&
                                 decide (p.2 ≤ k.maxLanes) && s.passes n p.2 (edpRate p.1))
  sortBy (fun a b =>
    let ca := a.2 * edpRate a.1
    let cb := b.2 * edpRate b.1
    decide (cb < ca) || (decide (ca = cb) && decide (b.2 ≤ a.2))) ok

/-- A capability in use that the sink lacks raises cap_mismatch (08 R206). -/
def State.capMismatch (s : State) (n : Nat) (k : SinkCaps) : Bool :=
  ((s.laneNum n 2 1 == 1 || s.leadSet n || s.genlocked n) && !k.adaptiveSync) || (s.laneNum n 6 3 == 1 && !k.psr)

/-- Steps 3 to 5 of 08 R206 up to the first training attempt. -/
def State.startTraining (s : State) (n : Nat) (k : SinkCaps) : State :=
  let cs := s.candidatesFor n k
  let t := s.modLane n (fun l => { l with sink := some k, psr := k.psr, selective := k.selective })
  if cs = [] then t.failLink n 4
  else if s.laneNum n 7 7 = 1 ∧ k.dsc = false then t.failLink n 5
  else
    let u := t.modLane n (fun l => { l with link := .training, candidates := cs })
    if s.capMismatch n k then u.raise (portStatus n) [8] else u

/-- An eDP bring-up can take place: the link is not up, and a RETIME has reached its port step (08 R206, 07 R192). -/
def State.edpReady (s : State) (n : Nat) : Bool :=
  s.isEdp n && !decide ((s.lane n).link = .up) && !((s.lane n).retime).any (fun r => !r.idle || r.disabling) && s.coxUp

/-- A bring-up's first step in a RETIME: the panel is powered on, lane.panel_on_ms before what follows (07 R192, 08 R206, R208). -/
def State.powerPanel (s : State) (n : Nat) : State :=
  if (s.lane n).retime.isSome && !decide ((s.lane n).link = .waitingHpd) && decide (s.laneNum n 1 0xB ≠ 0) then
    s.send (.panelOn n (s.laneNum n 1 0xB))
  else s

/-- eDP bring-up: the panel, HPD, the sink's capabilities, candidates (08 R206 steps 1 to 3). `sink` is what it answers over AUX. -/
def State.edpBringup (s : State) (n : Nat) (sink : Option SinkCaps) : State :=
  let t := s.powerPanel n
  if !(s.lane n).hpd then t.modLane n (fun l => { l with link := .waitingHpd })
  else match sink with
    | none => t.failLink n 2
    | some k => t.startTraining n k

/-- One training attempt at the first candidate (08 R206 step 4). -/
def State.trainOnce (s : State) (n : Nat) (trained : Bool) : State :=
  match (s.lane n).candidates with
  | [] => s
  | (rate, lanes) :: rest =>
    if trained then s.raiseLink n rate lanes
    else if rest = [] then s.failLink n 3
    else s.modLane n (fun l => { l with candidates := rest })

/-- HPD low for more than 2 ms: hpd_unplug and link_lost, the port stops (08 R207). -/
def State.unplug (s : State) (n : Nat) : State :=
  ((((s.modLane n (fun l => { l with hpd := false, link := .off, trainedRate := 0, trainedLanes := 0, candidates := [] })).raise
    (portStatus n) [3]).raise (portStatus n) [2]).lineOn (16 + n) n).send (.portOff n)

/-- A short HPD pulse: hpd_irq in every state of the link; of one that is trained the link status is read, and a lost link retrains from step 3
(08 R207). -/
def State.hpdPulse (s : State) (n : Nat) (lost : Bool) : State :=
  let t := s.raise (portStatus n) [4]
  if !lost || !decide ((s.lane n).link = .up ∨ (s.lane n).link = .lowPower) then t
  else
    let u := (t.raise (portStatus n) [2]).lineOn (16 + n) n
    match (s.lane n).sink with
    | some k => u.startTraining n k
    | none => u.failLink n 2

/-- Step 4 of a DSI bring-up, with DSC on: Compression Mode and the Picture Parameter Set (08 R208; the packet's code of
notes/assumptions/95). -/
def State.compressionMode (s : State) (n : Nat) : State :=
  if s.laneNum n 7 7 ≠ 1 then s else (s.send (.dsiPacket n ([0x07, 0, 1, 0].map (BitVec.ofNat 8)))).sendPps n

/-- The initial deskew sequence of a D-PHY port above 1,500 Mbit/s (08 R203). -/
def State.initialDeskew (s : State) (n : Nat) : State :=
  if s.deskews n then (s.send (.deskew n true)).modLane n (fun l => { l with deskewAt := s.now }) else s

/-- DSI bring-up: the panel, the stop state, its initialisation commands, compression, high-speed mode (08 R208); command mode supports
self-refresh (R209). -/
def State.dsiBringup (s : State) (n : Nat) (errorReport : Bool) : State :=
  let cmds := ((s.panelInit.filter (fun p => decide (p.1 = n))).take 64).map Prod.snd
  let t := cmds.foldl (fun u p => u.send (.dsiPacket n p)) ((s.powerPanel n).send (.portIdle n))
  let u := if errorReport then t.raise (portStatus n) [9] else t
  (((u.compressionMode n).initialDeskew n).modLane n (fun l => { l with psr := s.commandMode n, selective := s.commandMode n })).raiseLink n 0
    (s.laneNum n 7 2)

def State.dsiReady (s : State) (n : Nat) : Bool :=
  decide (s.laneNum n 7 1 ≠ 0) && !decide ((s.lane n).mode = .off) && !decide ((s.lane n).link = .up) &&
  !((s.lane n).retime).any (fun r => !r.idle || r.disabling) && s.coxUp

/-- A TE edge that starts the frame: the right edge, after the minimum front porch (08 R209). -/
def State.teReady (s : State) (n : Nat) (rising : Bool) : Bool :=
  s.commandMode n && (s.lane n).scans && !(s.lane n).gated &&
  decide (rising = !bitOf (s.laneNum n 7 5) 3) && decide (s.frameNum n 1 5 + s.frameNum n 2 4 ≤ s.lineNow n)

/-- The queued packet is sent; a turnaround's answer replaces port.dsi_rsp (08 R210); an acknowledge-and-error report, data type
0x02, raises dsi_error (notes/assumptions/20). -/
def State.sendDsi (s : State) (n : Nat) (answer : Option (List Byte)) : State :=
  match (s.lane n).dsiCmd with
  | none => s
  | some p =>
    let t := (s.modLane n (fun l => { l with dsiCmd := none })).send (.dsiPacket n p)
    if bitOf ((p.getD 1 0).toNat) 0 then
      match answer with
      | some a =>
        let u := t.modLane n (fun l => { l with dsiRsp := a })
        if a.head? = some 2 then u.raise (portStatus n) [9] else u
      | none => t
    else t

end Sys2Proof.Machine
end

