-- ==== Sys2Proof/Machine/Mover.lean ====
section
/-! DEFINITION. The mover and the utility DMA (10 R265 to R282): transfers, bursts, pacing, descriptor chains, bus errors and the
all-channel stop. Channel k below 64 is a mover channel, 64 + k a utility DMA channel. -/

namespace Sys2Proof.Machine

open Sys2Proof

/-! ### Channel registers -/

def channelBase (k : Nat) : Nat := if k < 64 then Block.move.base + k * 0x100 else Block.udma.base + (k - 64) * 0x100

/-- A configuration register of a channel, with its reset value (10 R284, R285). -/
def State.chReg (s : State) (k off : Nat) : Nat :=
  s.reg (channelBase k + off) (if off = 0x10 then 1 else if off = 0x14 then 0x0001_0001 else if off = 0x3C then 1024 else 0)

/-- A 64-bit address register: the space in [63:62], the address in [47:0]; its PV bits are no part of it (10 R266, R284). -/
def State.chAddr (s : State) (k off : Nat) : Nat :=
  bits (s.chReg k (off + 4)) 31 30 * 2 ^ 62 + bits (s.chReg k (off + 4)) 15 0 * 2 ^ 32 + s.chReg k off

def State.chPaced (s : State) (k : Nat) : Bool := decide (k < 64) && bitOf (s.chReg k 0x40) 9
def State.chLine (s : State) (k : Nat) : Nat := bits (s.chReg k 0x40) 15 10

/-- The crew that owns a channel: fwd.crew of a managed one, else mover.owner (10 R265); the manager crew 0 for the utility DMA's
channels 6 and 7 (10 R279). -/
def State.chOwner (s : State) (k : Nat) : Option Nat :=
  match (s.channel k).managed with
  | some sl => some (s.num (camIx (sl / 4) (0x30 + sl % 4)) 3)
  | none =>
    if 64 ≤ k then some 0
    else if s.num (0x2200 + k) 1 = 0xFFFF then none else some (s.num (0x2200 + k) 1)

/-- Element widths (10 R284): 0 for a code that is none. -/
def widthOf (code : Nat) : Nat := if code ≤ 4 then 2 ^ code else 0

/-- One pass through the loops: addresses and counts (10 R267, R273). -/
structure Xfer where
  src : Nat
  dst : Nat
  inner : Nat
  middle : Nat
  outer : Nat

/-- A count of 0 means 65,536. -/
def fullCount (n : Nat) : Nat := if n = 0 then 65536 else n

/-- The transfer a channel is in: its registers', or its descriptor's. A utility DMA channel has two loops: its outer count is held
as the middle one, since STEP1 steps it (10 R279, R285). -/
def State.xfer (s : State) (k : Nat) : Xfer :=
  let c := s.channel k
  if c.descWords = [] then
    { src := s.chAddr k 0, dst := s.chAddr k 8, inner := bits (s.chReg k 0x10) 12 0,
      middle := fullCount (bits (s.chReg k 0x14) 15 0),
      outer := if k < 64 then fullCount (bits (s.chReg k 0x14) 31 16) else 1 }
  else
    let w := c.descWords.getD 2 0
    { src := c.descWords.getD 0 0, dst := c.descWords.getD 1 0, inner := bits w 15 0,
      middle := fullCount (bits w 31 16), outer := fullCount (bits w 47 32) }

def State.ws (s : State) (k : Nat) : Nat := widthOf (bits (s.chReg k 0x30) 2 0)
def State.wd (s : State) (k : Nat) : Nat := widthOf (bits (s.chReg k 0x30) 6 4)

/-- A signed step register. -/
def State.chStep (s : State) (k off : Nat) : Int := if 64 ≤ k ∧ (off = 0x20 ∨ off = 0x2C) then 0 else signedOf 32 (s.chReg k off)

/-- An element's address, in 64-bit two's complement (10 R267). -/
def stepAddr (base : Nat) (a b c : Int) (i m o : Nat) : Nat := unsignedOf 64 ((base : Int) + i * a + m * b + o * c)

/-- An address space of 10 R266. Address bits above the space's own are a translation fault when they are used (11 R293). -/
def spaceOk (a : Nat) : Bool := decide (bits a 63 62 ≤ 1)

/-- What is wrong with a transfer by 10 R266 and R267: 4 CONFIG, 2 ALIGN, or nothing (notes/assumptions/21). -/
def State.xferError (s : State) (k : Nat) (x : Xfer) : Nat :=
  let ws := s.ws k
  let wd := s.wd k
  let b := x.inner * ws
  let aligned (base w : Nat) (s0 s1 s2 : Int) (n : Nat) : Bool :=
    decide (base % w = 0) && (decide (n ≤ 1) || decide (s0 % w = 0)) && (decide (x.middle ≤ 1) || decide (s1 % w = 0)) &&
    (decide (x.outer ≤ 1) || decide (s2 % w = 0))
  if ws = 0 ∨ wd = 0 ∨ x.inner = 0 ∨ 4096 < x.inner ∨ 4096 < b ∨ b % (max 1 wd) ≠ 0 ∨ !spaceOk x.src ∨ !spaceOk x.dst then 4
  else if aligned x.src ws (s.chStep k 0x18) (s.chStep k 0x1C) (s.chStep k 0x20) x.inner &&
          aligned x.dst wd (s.chStep k 0x24) (s.chStep k 0x28) (s.chStep k 0x2C) (b / wd) then 0
  else 2

/-- The registers' own rules at START: 10 R267, a hop limit of 0, a descriptor address that is no multiple of 32 (10 R284). -/
def State.startError (s : State) (k : Nat) : Nat :=
  let e := s.xferError k (s.xfer k)
  if e ≠ 0 then e
  else if k < 64 ∧ (s.chReg k 0x3C = 0 ∨ bits (s.chReg k 0x34) 4 0 ≠ 0 ∨ !spaceOk (s.chAddr k 0x34)) then 4 else 0

/-! ### Events (10 R281) -/

/-- A mover event to a channel's owner. The utility DMA posts none (notes/assumptions/21). -/
def State.movePost (s : State) (k code low : Nat) : State :=
  if 64 ≤ k then s
  else match s.chOwner k with
    | some c => s.post c (eventWord code 0xF 0 k low)
    | none => s

/-- A channel's own event bit, and UDMA.STATUS for a utility DMA channel (10 R285). -/
def State.chRaise (s : State) (k bit : Nat) : State :=
  let t := s.raise (channelStatus k) [bit]
  if k < 64 then t
  else if bit = 0 then t.raise (Block.udma.base + 0x800) [0]
  else if bit = 2 then t.raise (Block.udma.base + 0x800) [1] else t

/-- Pending requests are discarded at the end of a transfer (10 R272). -/
def State.dropRequests (s : State) (k : Nat) : State :=
  let n := (s.channel k).pending
  if 64 ≤ k then s
  else
    let t := s.modChannel k (fun c => { c with pending := 0, leftover := n })
    if n = 0 then t else t.raise (channelStatus k) [5]

/-- A channel stops with an error (10 R281). -/
def State.chError (s : State) (k code : Nat) : State :=
  ((s.modChannel k (fun c => { c with mode := .error, err := code })).chRaise k 2).movePost k 0x17 code

/-! ### Controls (10 R282) -/

/-- A control or configuration write that is not accepted (10 R282). -/
def State.chRefuse (s : State) (k : Nat) : State := s.raise (channelStatus k) [4]

/-- A channel that runs or waits, by whether it has what it needs for a burst. -/
def Channel.settled (c : Channel) (paced : Bool) : Channel :=
  { c with mode := if paced && decide (c.pending = 0) && c.inFlight.isEmpty then .waiting else .running }

def State.moverStart (s : State) (k : Nat) : State :=
  let c := s.channel k
  if c.managed.isSome ∨ !(decide (c.mode = .idle) || decide (c.mode = .error)) ∨ (k < 64 ∧ s.mover.stoppedAll) then s.chRefuse k
  else
    let t := s.modChannel k (fun c =>
      ({ c with err := 0, pending := 0, outer := 0, middle := 0, desc := 0, descWords := [], hops := 0, transfers := 0,
                inFlight := [], abandoned := 0 }).settled (s.chPaced k))
    let e := t.startError k
    if e = 0 then t else t.chError k e

/-- A channel continues from its saved position. -/
def State.chResume (s : State) (k : Nat) : State :=
  s.modChannel k (fun c => { (c.settled (s.chPaced k || c.managed.isSome)) with err := 0 })

def State.moverResume (s : State) (k : Nat) : State :=
  let c := s.channel k
  if c.managed.isNone ∧ ((c.mode = .stopped ∧ !(decide (k < 64) && s.mover.stoppedAll)) ∨ (c.mode = .error ∧ c.err = 1))
  then s.chResume k else s.chRefuse k

/-- Abort (10 R282): no burst in flight has begun its writes (notes/assumptions/21), so all are abandoned. -/
def State.chAbort (s : State) (k : Nat) : State :=
  let was := (s.channel k).mode
  let t := ((s.dropRequests k).modChannel k (fun c => { c with mode := .idle, err := 6, inFlight := [], abandoned := 0 }))
  if was = .idle then t else (t.chRaise k 2).movePost k 0x17 6

def State.moverAbort (s : State) (k : Nat) : State :=
  if (s.channel k).managed.isSome then s.chRefuse k else s.chAbort k

/-! ### Requests (10 R271, R272) -/

/-- One request to a channel: counted while it is not idle or in error, lost at 15. -/
def State.request (s : State) (k : Nat) : State :=
  let c := s.channel k
  if c.mode = .idle ∨ c.mode = .error then s
  else if 15 ≤ c.pending then s.raise (channelStatus k) [1]
  else s.modChannel k (fun c =>
    let d := { c with pending := c.pending + 1 }
    if d.mode = .stopped then d else d.settled true)

/-- A rising edge on a request line reaches its paced raw channels. A managed channel is driven by its camera (09 R244, R245). -/
def State.pulse (s : State) (line : Nat) : State :=
  (List.range 64).foldl (fun t k =>
    if t.chPaced k ∧ t.chLine k = line ∧ (t.channel k).managed.isNone then t.request k else t) s

/-- A line that GPIO maps is enabled (10 R284). -/
def State.lineMapped (s : State) (line : Nat) : Bool :=
  !within 24 31 line || bitOf (s.reg (Block.move.base + (if line < 28 then 0xD8 else 0xDC)) 0) ((line % 4) * 8 + 7)

/-! ### Bursts (10 R267, R268, R270) -/

/-- A raw or utility DMA channel k moves bytes over a resource: the memories of the device, or its crew's host port (06 R166). -/
def State.moves (s : State) (k r : Nat) : Bool :=
  let x := s.xfer k
  let port := ((s.chOwner k).getD 0) / 128
  (decide (r ≤ 1) && (!bitOf x.src 62 || !bitOf x.dst 62)) || (bitOf x.src 62 && decide (r = 3 + port)) || (bitOf x.dst 62 && decide (r = 7 + port))

/-- Shedding step 1 on a resource that a channel loads holds it between bursts (06 R166, 10 R268). -/
def State.bulkHeld (s : State) (k : Nat) : Bool := s.placement.shed.any (fun e => e.2.1 == 1 && s.moves k e.1)

/-- The loop place that follows n bursts from the first one not completed. -/
def placeAfter (x : Xfer) (c : Channel) (n : Nat) : Nat × Nat :=
  let i := c.outer * x.middle + c.middle + n
  (i / x.middle, i % x.middle)

/-- The elements of a burst: space and address of each source and destination element, and its width. -/
def State.elements (s : State) (k : Nat) (x : Xfer) (o m : Nat) : List (Bool × Nat) × List (Bool × Nat) :=
  let el (a : Nat) : Bool × Nat := (bitOf a 62, a % 2 ^ 62 + (if bitOf a 63 then 2 ^ 62 else 0))
  ((List.range x.inner).map (fun i =>
     el (stepAddr x.src (s.chStep k 0x18) (s.chStep k 0x1C) (s.chStep k 0x20) i m o)),
   (List.range (x.inner * s.ws k / s.wd k)).map (fun j =>
     el (stepAddr x.dst (s.chStep k 0x24) (s.chStep k 0x28) (s.chStep k 0x2C) j m o)))

/-- Every element of a side is translated before the first read (10 R270). -/
def State.reachAll (s : State) (c w : Nat) (write : Bool) (detail : Nat) : List (Bool × Nat) → State × Bool
  | [] => (s, true)
  | (host, a) :: rest =>
    match s.transRange c host a w write 3 detail with
    | (t, true) => t.reachAll c w write detail rest
    | (t, false) => (t, false)

/-- The place of a reached byte: its key in host memory or in the aperture. -/
def State.placeOf (s : State) (c : Nat) (host : Bool) (a : Nat) : Nat :=
  if host then hostKey (c / 128) (tabGet 0 (s.crew c).xltCache (a / 4096) / 4096 * 4096 + a % 4096) else apertureKey c a

/-- The bytes of a reached element. -/
def State.elementBytes (s : State) (c w : Nat) (e : Bool × Nat) : List Byte :=
  (List.range w).map (fun i => s.crewByte c e.1 (e.2 + i))

/-- The burst that moves a transfer's pass. -/
def State.makeBurst (s : State) (c k o m : Nat) (src dst : List (Bool × Nat)) : Burst :=
  let stream := src.flatMap (s.elementBytes c (s.ws k))
  let places := dst.flatMap (fun e => (List.range (s.wd k)).map (fun i => s.placeOf c e.1 (e.2 + i)))
  { outer := o, middle := m, host := (dst.head?.map Prod.fst).getD false, bytes := places.zip stream }

/-- A burst committed whole (10 R276). -/
def State.commitBurst (s : State) (b : Burst) : State :=
  if b.host then { s with hostMem := b.bytes.foldl (fun m p => memWrite m p.1 p.2) s.hostMem }
  else { s with aperture := b.bytes.foldl (fun m p => memWrite m p.1 p.2) s.aperture }

/-- Bytes of the mover's buffer that bursts in flight hold, and its size (10 R268). -/
def State.moverHeld (s : State) : Nat := (s.channels.map (fun p => (p.2.inFlight.map (fun b => b.bytes.length)).sum)).sum
def moverBuffer : Nat := 256 * 1024

/-- A raw channel can start its next burst. -/
def State.burstReady (s : State) (k : Nat) : Bool :=
  let c := s.channel k
  let x := s.xfer k
  decide (s.moverHeld + x.inner * s.ws k ≤ moverBuffer) && c.managed.isNone && decide (c.mode = .running ∨ c.mode = .waiting) && !s.mover.stoppedAll && s.mover.stopping.isNone && !s.bulkHeld k &&
  decide (c.inFlight.length < 4) && decide ((placeAfter x c c.inFlight.length).1 < x.outer) && (!s.chPaced k || decide (0 < c.pending))

/-- The error that a side of a translated burst meets at its target: a host port whose link is down, or for a read an uncorrectable unit, with the
umpire source that this one raises as memory and address (10 R275, R284, 11 R309). -/
def State.targetError (s : State) (c w k : Nat) (write : Bool) (els : List (Bool × Nat)) : Option (BusError × Option (Bool × Nat)) :=
  els.findSome? (fun e =>
    if e.1 then
      (if (s.port (c / 128)).linkUp then none
       else some ({ write := write, channel := k, kind := 2, index := c / 128, cause := 2, address := s.placeOf c true e.2 % 2 ^ 64 }, none))
    else if write then none
    else (s.badRead c e.2 w).map (fun u =>
      ({ write := false, channel := k, kind := b2n u.1, index := channelAt u.2, cause := 1, address := u.2 }, some u)))

/-- The first error response (10 R275): bursts whose reads are complete stay, the others are abandoned. `complete` pairs a channel
with how many of its bursts in flight had all their reads. -/
def State.busError (s : State) (e : BusError) (complete : List (Nat × Nat)) : State :=
  let t := (List.range 64).foldl (fun u k =>
    let c := u.channel k
    if c.inFlight.isEmpty then u
    else
      let n := ((complete.find? (fun p => decide (p.1 = k))).map Prod.snd).getD 0
      u.modChannel k (fun c => { c with inFlight := c.inFlight.take n, abandoned := c.inFlight.length - (c.inFlight.take n).length })) s
  t.modMover (fun m => { m with stopping := some e })

/-- A mover access whose target fails as it is made: every burst in flight has its reads (notes/assumptions/21), that of channel `k` is
abandoned (10 R275). -/
def State.failAccess (s : State) (k : Nat) (e : BusError) (unit : Option (Bool × Nat)) : State :=
  let t := match unit with | some u => s.unitError u.1 u.2 | none => s
  (t.busError e ((List.range 64).map (fun j => (j, (t.channel j).inFlight.length)))).modChannel k (fun c => { c with abandoned := c.abandoned + 1 })

/-- A raw channel starts a burst: a request is taken, the addresses are translated, the reads are made (10 R270, R272). -/
def State.burstStart (s : State) (k : Nat) : State :=
  let c := s.channel k
  let x := s.xfer k
  let (o, m) := placeAfter x c c.inFlight.length
  let (src, dst) := s.elements k x o m
  let s1 := if s.chPaced k then s.modChannel k (fun c => { c with pending := c.pending - 1 }) else s
  match s.chOwner k with
  | none => s1.chError k 1
  | some w =>
    match s1.reachAll w (s.ws k) false k src with
    | (t, false) => t.chError k 1
    | (t, true) =>
      match t.reachAll w (s.wd k) true k dst with
      | (u, false) => u.chError k 1
      | (u, true) =>
        match u.targetError w (s.ws k) k false src with
        | some (e, unit) => u.failAccess k e unit
        | none =>
          (u.modMover (fun v => { v with served := k })).modChannel k (fun c =>
            ({ c with inFlight := c.inFlight ++ [u.makeBurst w k o m src dst] }).settled (s.chPaced k))

/-- The end of a channel's chain: idle and MOVE_DONE (10 R281). -/
def State.endChain (s : State) (k : Nat) : State :=
  (s.modChannel k (fun c => { c with mode := .idle })).movePost k 0x15 (s.channel k).transfers

/-- A transfer is complete: done, its leftover requests discarded, and the chain goes on or ends (10 R272, R273, R281). A utility DMA channel has no
chain. -/
def State.endTransfer (s : State) (k : Nat) : State :=
  let c := s.channel k
  let w := c.descWords.getD 2 0
  let t := ((s.modChannel k (fun c => { c with transfers := c.transfers + 1 })).chRaise k 0).dropRequests k
  if c.descWords = [] then
    (if k < 64 ∧ s.chAddr k 0x34 ≠ 0 then t else t.endChain k)
  else if bitOf w 48 then t.endChain k
  else if bitOf w 49 then t.movePost k 0x15 (c.transfers + 1) else t

/-- The write burst at the head of a channel's bursts fails at a host port whose link is down: it is discarded whole (10 R275, R276). While another
error stops the mover, this one is not recorded. -/
def State.writeFails (s : State) (k : Nat) (b : Burst) : Bool := b.host && !(s.port (((s.chOwner k).getD 0) / 128)).linkUp

def State.failWrite (s : State) (k : Nat) (b : Burst) : State :=
  let port := ((s.chOwner k).getD 0) / 128
  let n := (s.channel k).inFlight.length
  if s.mover.stopping.isSome then s.modChannel k (fun c => { c with inFlight := [], abandoned := c.abandoned + n })
  else
    (s.busError { write := true, channel := k, kind := 2, index := port, cause := 2, address := ((b.bytes.head?.map Prod.fst).getD 0) % 2 ^ 64 }
      ((List.range 64).map (fun j => (j, if j = k then 0 else (s.channel j).inFlight.length))))

/-- The channel's first burst in flight is committed and the channel advances (10 R268, R276). -/
def State.burstDone (s : State) (k : Nat) : State :=
  match (s.channel k).inFlight with
  | [] => s
  | b :: rest =>
    if s.writeFails k b then s.failWrite k b else
    let x := s.xfer k
    let (o, m) := placeAfter x (s.channel k) 1
    let t := ((s.commitBurst b).count (chanCount k) 1).modChannel k (fun c =>
      let d := { c with inFlight := rest, outer := o, middle := m }
      if d.mode = .running ∨ d.mode = .waiting then d.settled (s.chPaced k) else d)
    if x.outer ≤ o then t.endTransfer k else t

/-! ### Descriptor chains (10 R273, R274) -/

/-- A chain goes on: the transfer in progress is complete and another descriptor follows. -/
def State.fetchReady (s : State) (k : Nat) : Bool :=
  let c := s.channel k
  decide (k < 64) && c.managed.isNone && decide (c.mode = .running ∨ c.mode = .waiting) && !s.mover.stoppedAll &&
  s.mover.stopping.isNone && decide ((s.xfer k).outer ≤ c.outer) && c.inFlight.isEmpty

/-- The address of the next descriptor. -/
def State.nextDesc (s : State) (k : Nat) : Nat :=
  let c := s.channel k
  if c.descWords = [] then s.chAddr k 0x34 else c.descWords.getD 3 0

/-- A chain that ends in error discards its requests (10 R272). -/
def State.chainError (s : State) (k code : Nat) : State := (s.dropRequests k).chError k code

/-- A descriptor is fetched, checked and run (10 R273, R274). -/
def State.fetchDesc (s : State) (k : Nat) : State :=
  let a := s.nextDesc k
  if s.chReg k 0x3C ≤ (s.channel k).hops then
    (s.modChannel k (fun c => { c with desc := a })).chainError k 3
  else if !spaceOk a ∨ a % 32 ≠ 0 then (s.modChannel k (fun c => { c with desc := a })).chainError k 5
  else
    match s.chOwner k with
    | none => s.chError k 1
    | some w =>
      let el := [(bitOf a 62, a % 2 ^ 62)]
      match s.reachAll w 32 false k el with
      | (t, false) => t.chError k 1
      | (t, true) =>
        match t.targetError w 32 k false el with
        | some (e, unit) => (t.failAccess k e unit).modChannel k (fun c => { c with abandoned := (s.channel k).abandoned })
        | none =>
        let bs := el.flatMap (t.elementBytes w 32)
        let word (i : Nat) : Nat := leNat ((bs.drop (8 * i)).take 8)
        let u := t.modChannel k (fun c =>
          { c with desc := a, hops := c.hops + 1, outer := 0, middle := 0, descWords := [word 0, word 1, word 2, word 3] })
        if bits (word 2) 63 50 ≠ 0 ∨ u.xferError k (u.xfer k) ≠ 0 then u.chainError k 5
        else u.modChannel k (fun c => c.settled (s.chPaced k))

/-! ### Bus errors and the all-channel stop (10 R275 to R278) -/

/-- MOVE.SYNDROME of an error (10 R284). -/
def syndromeOf (e : BusError) : Nat :=
  (if e.write then e.channel % 256 else 0xFF) * 2 ^ 16 + b2n e.write * 2 ^ 11 + e.index % 8 * 2 ^ 8 + e.kind % 16 * 2 ^ 4 + e.cause % 16

/-- Every burst that survives is complete. -/
def State.stopReady (s : State) : Bool :=
  s.mover.stopping.isSome && (List.range 64).all (fun k => (s.channel k).inFlight.isEmpty)

/-- The stop is complete (10 R277). -/
def State.stopAll (s : State) (e : BusError) : State :=
  let hit := (List.range 64).filter (fun k => decide ((s.channel k).mode = .running ∨ (s.channel k).mode = .waiting))
  let s1 := s.modMover (fun m =>
    { m with syndrome := syndromeOf e, errAddr := e.address, stopping := none, stoppedAll := true, stoppedAt := s.now })
  let s2 := hit.foldl (fun t k => (t.modChannel k (fun c =>
    { c with mode := .stopped, pending := if s.chPaced k ∨ c.managed.isSome then min 15 (c.pending + c.abandoned) else c.pending,
             abandoned := 0 })).raise (channelStatus k) [3]) s1
  hit.foldl (fun t k => t.movePost k 0x16 (s.counter (chanCount k) % 2 ^ 32)) ((s2.raise moveStatus [0]).occur 44 e.address)

/-- STOPPED_ALL clears and the cox resumes managed channels (10 R278). -/
def State.stopClear (s : State) : State :=
  if s.mover.stoppedAll then
    let t := (s.modMover (fun m => { m with stoppedAll := false })).raise moveStatus [1]
    (List.range 64).foldl (fun u k =>
      if (u.channel k).managed.isSome ∧ (u.channel k).mode = .stopped then u.chResume k else u) t
  else s

/-! ### The utility DMA (10 R279, R280) -/

/-- A utility DMA channel has a burst ready. -/
def State.udmaRuns (s : State) (k : Nat) : Bool :=
  decide ((s.channel k).mode = .running) && decide ((s.channel k).outer < (s.xfer k).outer) && !s.bulkHeld k

/-- The channel the engine serves: the highest priority with a burst ready, equal ones in round robin (10 R279). -/
def State.udmaNext (s : State) : Option Nat :=
  let ready := ((List.range 8).map (fun i => 64 + (s.mover.udmaLast + 1 + i) % 8)).filter s.udmaRuns
  let pri (k : Nat) : Nat := bits (s.chReg k 0x40) 7 6
  ready.foldl (fun best k => match best with
    | none => some k
    | some b => if pri b < pri k then some k else some b) none

/-- A bus error stops only the channel whose burst failed, at that burst, with error BUS (10 R280, notes/assumptions/21). -/
def State.udmaFail (s : State) (k : Nat) : State :=
  ((s.modChannel k (fun c => { c with mode := .stopped, err := 7 })).chRaise k 2).chRaise k 3

/-- The engine completes one burst of the channel it serves (10 R279). -/
def State.udmaBurst (s : State) (k : Nat) : State :=
  let x := s.xfer k
  let (o, m) := placeAfter x (s.channel k) 0
  let (src, dst) := s.elements k x o m
  let s1 := s.modMover (fun v => { v with udmaLast := k - 64 })
  match s1.reachAll 0 (s.ws k) false k src with
  | (t, false) => t.chError k 1
  | (t, true) =>
    match t.reachAll 0 (s.wd k) true k dst with
    | (u, false) => u.chError k 1
    | (u, true) =>
      match u.targetError 0 (s.ws k) k false src, u.targetError 0 (s.wd k) k true dst with
      | some (_, unit), _ => (match unit with | some b => u.unitError b.1 b.2 | none => u).udmaFail k
      | none, some _ => u.udmaFail k
      | none, none =>
      let (o', m') := placeAfter x (s.channel k) 1
      let v := (u.commitBurst (u.makeBurst 0 k o m src dst)).modChannel k (fun c => { c with outer := o', middle := m' })
      if x.outer ≤ o' then v.endTransfer k else v

end Sys2Proof.Machine
end

