-- ==== Sys2Proof/Machine/Camera.lean ====
section
/-! DEFINITION. Camera inputs: the judging of frames, rings, camera-locked lanes, managed forwarding (07 R176, R185, R186, 09 R232 to
R248). Slots are keyed port × 4 + slot. -/

namespace Sys2Proof.Machine

open Sys2Proof

/-! ### Slots and forwarding objects -/

def State.camOn (s : State) (p : Nat) : Bool := decide (s.num (camIx p 0) 1 = 1)
def State.slotOn (s : State) (k : Nat) : Bool := decide (s.slotNum k 6 = 1)
def State.fwdNum (s : State) (k sub : Nat) : Nat := s.num (camIx (k / 4) (0x30 + k % 4)) sub
def State.processed (s : State) (k : Nat) : Bool := decide (s.fwdNum k 2 = 1)

/-- The slot is its port's line-done stream (09 R244). -/
def State.lineDone (s : State) (k : Nat) : Bool := decide (s.num (camIx (k / 4) 0) 6 = k % 4)

/-- The port's umpire source, one for every camera fault of it (09 R239). -/
def State.camFault (s : State) (k : Nat) : State := s.occur (24 + k / 4) (k / 4)

/-- The enabled slots of a port on a virtual channel. -/
def State.slotsAt (s : State) (p vc : Nat) : List Nat :=
  ((List.range 4).map (fun v => p * 4 + v)).filter (fun k => s.slotOn k && decide (s.slotNum k 2 = vc))

/-- A port takes packets: it is enabled and its receiver is served (09 R230, 15 R409). -/
def State.camReady (s : State) (p : Nat) : Bool := s.camOn p && s.coxUp

/-- The lanes locked to a stream. -/
def State.lockedTo (s : State) (stream : Nat) : List Nat :=
  (List.range 8).filter (fun n => s.laneOn n && s.lead n && decide (s.lockStream n = stream))

/-- The lanes that a frame start of a stream reaches: those locked to it, and in RUN one whose lock is still to take effect (09 R251). -/
def State.lockSeekers (s : State) (stream : Nat) : List Nat :=
  (List.range 8).filter (fun n => s.laneOn n && s.leadSet n && decide (s.lockStream n = stream) &&
    (s.lead n || decide ((s.lane n).mode = .running)))

/-! ### Managed forwarding (09 R245 to R248) -/

/-- Bytes of one forwarded line (09 R246) and of the ring line that paces it (09 R244). -/
def State.fwdBytes (s : State) (k : Nat) : Nat := if s.processed k then 4 * s.streamW k else s.streamW k * s.ringBytes k
def State.fwdPulses (s : State) (k : Nat) : Nat := ceilDiv (if s.processed k then 4 * s.streamW k else s.ringLine k) 4096

/-- FORWARD_DONE and FORWARD_INCOMPLETE (09 R248): `x` is the buffer or the cause. -/
def State.fwdPost (s : State) (k code x : Nat) : State :=
  s.post (s.fwdNum k 3) (eventWord code 0xF x 0 (s.slotNum k 1 % 256 * 2 ^ 24 + (s.slot k).frames % 2 ^ 24))

/-- The frame of a slot whose frame start was the `f`-th. -/
def Slot.fwdOf (q : Slot) (f : Nat) : Option FwdFrame := q.fwd.find? (fun e => e.frame == f)

/-- A frame in forwarding changed. -/
def Slot.modFwd (q : Slot) (f : Nat) (g : FwdFrame → FwdFrame) : Slot := { q with fwd := q.fwd.map (fun e => if e.frame = f then g e else e) }

/-- The managed channel is set to the first line of the slot's oldest frame, with the requests that the frames left have issued. -/
def State.fwdRewind (s : State) (k : Nat) : State :=
  match (s.slot k).channel with
  | none => s
  | some ch => s.modChannel ch (fun c =>
      { c with outer := 0, middle := 0, inFlight := [], pending := min 15 ((s.slot k).fwd.map FwdFrame.issued).sum })

/-- A frame begins to be forwarded from where the writer now puts it, after those still on their way. -/
def State.fwdBegin (s : State) (k : Nat) : State :=
  let q := s.slot k
  let e : FwdFrame := { frame := q.starts, slot := q.frameSlot, base := q.ringBase, line := decide (4 ≤ q.ring), issued := 0, ended := false,
                        spoiled := false, skipped := [], bands := [] }
  let t := s.modSlot k (fun q => { q with fwd := q.fwd ++ [e], fwdLines := if q.fwd.isEmpty then 0 else q.fwdLines })
  if q.fwd.isEmpty then t.fwdRewind k else t

/-- A frame leaves forwarding: the channel goes on with the next one, or gives up the requests that the frame issued. -/
def State.fwdDrop (s : State) (k f : Nat) : State :=
  let q := s.slot k
  let oldest := q.fwd.head?.any (fun e => e.frame == f)
  let t := s.modSlot k (fun q => { q with fwd := q.fwd.filter (fun e => e.frame != f), fwdLines := if oldest then 0 else q.fwdLines })
  if oldest then t.fwdRewind k
  else match q.channel, q.fwdOf f with
    | some ch, some e => t.modChannel ch (fun c => { c with pending := c.pending - e.issued })
    | _, _ => t

/-- A loss is counted and posted, while fwd.crew is enabled (09 R248). -/
def State.fwdLoss (s : State) (k cause : Nat) : State :=
  if s.crewEnabled (s.fwdNum k 3) then
    ((s.modSlot k (fun q => { q with fwdIncomplete := q.fwdIncomplete + 1 })).raise (camStatus (k / 4)) [10]).fwdPost k 0x12 cause
  else s

/-- A frame in forwarding is incomplete: lines already copied stay, the buffer is used again (09 R248, 11 R294). -/
def State.fwdFail (s : State) (k f cause : Nat) : State :=
  match (s.slot k).fwdOf f with
  | none => s
  | some e => if e.spoiled then s.fwdDrop k f else (s.fwdDrop k f).fwdLoss k cause

/-- Every frame of a slot in forwarding is incomplete. -/
def State.fwdFailAll (s : State) (k cause : Nat) : State := ((s.slot k).fwd).foldl (fun (t : State) e => t.fwdFail k e.frame cause) s

/-- Forwarding of a stream is shed (06 R166 step 4). -/
def State.fwdShedNow (s : State) (k : Nat) : Bool :=
  s.placement.shed.any (fun e => e.2.1 == 4 && decide (e.2.2 = s.slotNum k 1))

/-- At a stream's frame start its forwarding begins, where it is enabled, not shed, its crew enabled and LAUNCH over; a channel in error is
resumed (09 R248, R249, 11 R294). One that is shed then, while a frame is still on its way, leaves that frame incomplete; one whose crew is disabled
ends uncounted (06 R166, 09 R248, notes/assumptions/31). -/
def State.fwdFrame (s : State) (k : Nat) : State :=
  if !s.fwdOn k ∨ s.modes.mode = .launch then s
  else if !s.crewEnabled (s.fwdNum k 3) then s.fwdFailAll k 0
  else if s.fwdShedNow k then s.fwdFailAll k 4
  else
    let u := match (s.slot k).channel with
      | some ch => if (s.channel ch).mode = ChMode.error then s.modChannel ch (fun c => { c with mode := .waiting, err := 0 }) else s
      | none => s
    u.fwdBegin k

/-- Requests of frame `f` for the managed channel of a slot: counted to 15, one more is lost and makes the frame incomplete (09 R245, R248). -/
def State.fwdRequest (s : State) (k f : Nat) : Nat → State
  | 0 => s
  | n + 1 =>
    match (s.slot k).channel, (s.slot k).fwdOf f with
    | some ch, some _ =>
      if 15 ≤ (s.channel ch).pending then ((s.raise (channelStatus ch) [1]).fwdFail k f 2)
      else ((s.request ch).modSlot k (fun q => q.modFwd f (fun e => { e with issued := e.issued + 1 }))).fwdRequest k f n
    | _, _ => s

/-- A line of a frame in forwarding, in the ring that it began in. -/
def FwdFrame.raw (e : FwdFrame) (q : Slot) (y : Nat) : List Nat :=
  tabGet [] q.ringLines (if e.line then lineRingKey (e.base + y) else frameRingKey e.slot y)

/-- The lines of a frame that are forwarded: all but those of abandoned bands (09 R247). -/
def FwdFrame.lines (e : FwdFrame) (h : Nat) : List Nat := (List.range h).filter (fun y => !e.skipped.contains (y / 32))

/-- Where a processed line is held in the 64-line processed ring (09 R247). -/
def processedKey (y : Nat) : Nat := 0x2000_0000 + y % 64

/-- A processed pixel: ARGB2101010, sRGB-encoded, not dithered, alpha 0b11 (09 R246). -/
def processedWord (p : Px) : Nat :=
  let code (v : Nat) : Nat := ditherCode 0 10 0 0 0 (encodePanel 1 2200 400 (min v one19))
  3 * 2 ^ 30 + code p.r * 2 ^ 20 + code p.g * 2 ^ 10 + code p.b

/-- A processed line of a frame in forwarding (09 R240, R247). -/
def State.processedLine (s : State) (k : Nat) (e : FwdFrame) (y : Nat) : List Nat :=
  (List.range (s.streamW k)).map (fun x =>
    processedWord (rawSample (s.slot k) (s.slotNum k 3) (s.streamW k) (s.streamH k) (e.raw (s.slot k)) x y))

/-- The bytes of one forwarded line. -/
def State.fwdLineBytes (s : State) (k : Nat) (e : FwdFrame) (y : Nat) : List Byte :=
  if s.processed k then (tabGet [] (s.slot k).ringLines (processedKey y)).flatMap (leBytes 4)
  else (e.raw (s.slot k) y).flatMap (leBytes (s.ringBytes k))

/-- The place, among the frame's lines, of the `n`-th piece from the first that is not committed, and which piece of its line it is. -/
def State.fwdPlace (s : State) (k : Nat) (c : Channel) (n : Nat) : Nat × Nat :=
  let p := max 1 (s.fwdPulses k)
  let i := c.outer * p + c.middle + n
  (i / p, i % p)

/-- A managed channel can start a burst. -/
def State.fwdReady (s : State) (ch k : Nat) : Bool :=
  let c := s.channel ch
  s.crewEnabled (s.fwdNum k 3) && decide (c.mode = .running ∨ c.mode = .waiting) && !s.mover.stoppedAll && s.mover.stopping.isNone &&
  decide (c.inFlight.length < 4) && decide (0 < c.pending) && decide (s.moverHeld + 4096 ≤ moverBuffer) &&
  (s.slot k).fwd.head?.any (fun e => decide ((s.fwdPlace k c c.inFlight.length).1 < (e.lines (s.streamH k)).length))

/-- The managed channel starts a burst: one request, one piece of a line of at most 4,096 bytes (09 R244, R245, 10 R270). -/
def State.fwdBurst (s : State) (ch k : Nat) : State :=
  match (s.slot k).fwd with
  | [] => s
  | e :: _ =>
    let c := s.channel ch
    let (j, i) := s.fwdPlace k c c.inFlight.length
    let y := (e.lines (s.streamH k)).getD j 0
    let piece := ((s.fwdLineBytes k e y).drop (4096 * i)).take 4096
    let host := decide (s.fwdNum k 4 = 1)
    let crew := s.fwdNum k 3
    let a := s.fwdNum k 5 + (s.slot k).fwdFrames % (max 1 (s.fwdNum k 8)) * s.fwdNum k 7 + y * s.fwdNum k 6 + 4096 * i
    let s1 := s.modChannel ch (fun c => { c with pending := c.pending - 1 })
    match s1.transRange crew host a piece.length true 6 ch with
    | (t, false) => (t.chError ch 1).fwdFail k e.frame 5
    | (t, true) =>
      let places := (List.range piece.length).map (fun j => t.placeOf crew host (a + j))
      let b : Burst := { outer := j, middle := i, host := host, bytes := places.zip piece }
      (t.modMover (fun v => { v with served := ch })).modChannel ch (fun c => ({ c with inFlight := c.inFlight ++ [b] }).settled true)

/-- A managed channel's first burst in flight is committed. -/
def State.fwdBurstDone (s : State) (ch k : Nat) : State :=
  match (s.channel ch).inFlight with
  | [] => s
  | b :: rest =>
    if s.writeFails ch b then s.failWrite ch b else
    let (o, m) := s.fwdPlace k (s.channel ch) 1
    (((s.commitBurst b).count (chanCount ch) 1).modChannel ch (fun c =>
      let d := { c with inFlight := rest, outer := o, middle := m }
      if d.mode = .running ∨ d.mode = .waiting then d.settled true else d)).modSlot k (fun q => { q with fwdLines := o })

/-- The last line of the oldest frame in forwarding, a published one, has reached memory. -/
def State.fwdComplete (s : State) (k : Nat) : Bool :=
  let q := s.slot k
  q.fwd.head?.any (fun e => e.ended && decide ((e.lines (s.streamH k)).length ≤ q.fwdLines)) &&
  q.channel.any (fun ch => (s.channel ch).inFlight.isEmpty)

/-- A frame is forwarded whole (09 R248): counted, posted with its buffer; of one that lost a band, its other lines are there. The next frame
goes on at once. -/
def State.fwdFinish (s : State) (k : Nat) : State :=
  match (s.slot k).fwd with
  | [] => s
  | e :: _ =>
    let buffer := (s.slot k).fwdFrames % (max 1 (s.fwdNum k 8))
    let t := if s.crewEnabled (s.fwdNum k 3) && !e.spoiled then
        (s.modSlot k (fun q => { q with fwdFrames := q.fwdFrames + 1 })).fwdPost k 0x11 buffer else s
    t.fwdDrop k e.frame

/-! ### Bands of processed forwarding (09 R247) -/

/-- Lines of a band. -/
def State.bandLines (s : State) (k b : Nat) : Nat := min 32 (s.streamH k - 32 * b)

/-- Bands of the frame that the writer fills, released by a landed raw line. -/
def State.releaseBands (s : State) (k line : Nat) : State :=
  if !s.processed k then s
  else
    let bs := (List.range (ceilDiv (s.streamH k) 32)).filter (fun b => decide (min (32 * b + 33) (s.streamH k - 1) = line))
    s.modSlot k (fun q => q.modFwd q.starts (fun e => { e with bands := e.bands ++ bs.map (fun b => (b, 0, s.now)) }))

/-- The oldest frame with a band whose lines are not all signalled, and that band. -/
def State.nextProcessed (s : State) (k : Nat) : Option (FwdFrame × Nat × Nat × Nat) :=
  ((s.slot k).fwd.find? (fun e => !e.bands.isEmpty)).bind (fun e => e.bands.head?.map (fun b => (e, b)))

/-- One processed line is signalled: it is in the processed ring, and paces the channel and the request line (09 R244, R247). -/
def State.signalProcessed (s : State) (k : Nat) : State :=
  match s.nextProcessed k with
  | none => s
  | some (e, b, i, t0) =>
    let y := 32 * b + i
    let t := s.modSlot k (fun q => { q with ringLines := tabSet q.ringLines (processedKey y) (s.processedLine k e y) }.modFwd e.frame (fun x =>
      { x with bands := if s.bandLines k b ≤ i + 1 then x.bands.drop 1 else (b, i + 1, t0) :: x.bands.drop 1 }))
    let u := if s.lineDone k then (List.range (s.fwdPulses k)).foldl (fun v _ => v.pulse (k / 4)) t else t
    u.fwdRequest k e.frame (s.fwdPulses k)

/-- The frame with band `b` not fully written 31 line periods of the stream after its release; before a line period is measured, no time is
short enough (notes/assumptions/103). -/
def State.lateBand (s : State) (k b : Nat) : Option FwdFrame :=
  (s.slot k).fwd.find? (fun e => e.bands.any (fun x =>
    decide (x.1 = b) && decide (x.2.1 = 0) && decide (31 * (s.slot k).linePeriod ≤ 16 * (s.now - x.2.2))))

/-- The band is abandoned: its lines are not forwarded, and the frame is incomplete (09 R247, R248). -/
def State.abandonBand (s : State) (k b : Nat) : State :=
  match s.lateBand k b with
  | none => s
  | some e =>
    let t := s.modSlot k (fun q => q.modFwd e.frame (fun x =>
      { x with bands := x.bands.filter (fun y => y.1 != b), skipped := b :: x.skipped, spoiled := true }))
    if e.spoiled then t else t.fwdLoss k 3

/-! ### Lanes that follow a camera (07 R185, R186) -/

/-- The catch of a lane in lead discipline: its heat is of the frame that this camera frame start schedules (07 R185, R192). -/
def State.catchLead (s : State) (n : Nat) : State :=
  let t := (s.catchCommits n).markCatch n
  if ((t.lane n).retime).any (fun r => !r.f0 && !r.idle) then t.mergeDamage n else (t.bindIndication n).bindHeat n (t.frame n + 1)

/-- The lines from a camera frame start to the frame start S that it schedules: M + D less the sync and back porch of the frame that begins there
(01 R18, 07 R177). -/
def State.leadLines (s : State) (n : Nat) : Nat := s.laneNum n 2 6 + (s.lane n).reachDown - (s.laneNum n 1 6 + s.laneNum n 1 7)

/-- S lies in the lane's front porch: not before its minimum, not after its maximum, in line times of the lane as it follows its camera (07 R185,
R186). A lane that has just started or relocked counts its minimum as passed then (08 R218, notes/assumptions/42). -/
def State.usable (s : State) (n : Nat) : Bool :=
  let l := s.lane n
  let at_ := s.now * s.clock16 n + s.leadLines n * s.line16 n
  let low := match l.porchSince with
    | some t => t * s.clock16 n
    | none => l.frameAt * s.clock16 n + (s.frameNum n 1 5 + s.frameNum n 2 4) * s.line16 n
  decide (low ≤ at_) && decide (at_ ≤ low + (s.frameNum n 2 5 - s.frameNum n 2 4) * s.line16 n)

/-- Camera lock of the launch configuration takes effect at the first usable camera frame start after lane d's first catch in RUN (09 R251). -/
def State.takeLock (s : State) (n : Nat) : State :=
  if !(s.lane n).lockOff then s
  else
    let t := s.modLane n (fun l => { l with lockOff := false })
    if !t.usable n then s else if s.planOutputs ≠ t.planOutputs then t.replan else t

/-- A camera frame start schedules the frame start of a lane locked to it, or is missed (07 R185, R192 step 6). -/
def State.scheduleLane (s0 : State) (n : Nat) : State :=
  let s := s0.takeLock n
  let l := s.lane n
  let waiting := (l.retime).any (fun r => r.idle && r.portUp && !r.f0 && !r.disabling) && l.locked
  if l.gated ∨ !(l.scans || waiting) then s
  else if l.lockOff then s
  else if waiting || (s.usable n && l.sStart.isNone) then
    (s.catchLead n).modLane n (fun k =>
      { k with sStart := some (s.now + s.linesNs n (s.leadLines n)) })
  else (s.raise (laneStatus n) [5]).count (vrrCount n 8) 1

/-- The synthesizer's offset for a measured line period of `sum` ns over `c` lines, in 1/16 ppm of pclk_hz (07 R186, R199). -/
def State.trackOf (s : State) (n sum c : Nat) : Int :=
  roundI ((((c * s.laneNum n 1 4 * 1_000_000_000 : Nat) : Int) - ((sum * s.laneNum n 1 8 : Nat) : Int)) * 16_000_000) (max 1 (sum * s.laneNum n 1 8))

/-- A lane follows the line period measured over a frame, within ±500 ppm (07 R186). -/
def State.trackLane (s : State) (sum c n : Nat) : State :=
  let o := s.trackOf n sum c
  let beyond := decide (8000 < o.natAbs)
  let t := s.modLane n (fun l => { l with tracking := true, trackOffset := max (-8000) (min 8000 o), trackBeyond := beyond })
  if beyond ∧ (s.lane n).trackBeyond = false then (t.raise (laneStatus n) [12]).occur (8 + n) n else t

/-! ### Judging frames (09 R236 to R239) -/

/-- A SHORT frame on a lane locked to it: rows not yet released are not composed (09 R238). -/
def State.cutLane (s : State) (n : Nat) : State :=
  s.modLane n (fun l => { l with heat := { l.heat with tiles := l.heat.tiles.filter (fun t => l.heat.released.contains (t / 256)) } })

/-- The end of an open frame: SHORT or published (09 R236 step 5, R238, R243). -/
def State.endFrame (s : State) (k : Nat) (noEnd : Bool) : State :=
  let q := s.slot k
  let p := k / 4
  let stream := s.slotNum k 1
  let short := decide (q.linesReceived < s.streamH k)
  let flags := b2n short + 2 * b2n q.long + 4 * b2n q.crc + 8 * b2n noEnd
  let s0 := s.modSlot k (fun r => { r with
    isOpen := false, lastFlags := flags,
    linePeriod := if 2 ≤ r.linesReceived then min 0xFF_FFFF (r.lineSum * 16 / (r.linesReceived - 1)) else r.linePeriod })
  let s1 := if 2 ≤ q.linesReceived then (s.lockedTo stream).foldl (fun t n => t.trackLane q.lineSum (q.linesReceived - 1) n) s0 else s0
  if short then
    let t := ((s1.count (camCount p 0x10) 1).raise (camStatus p) [1]).camFault k
    ((s.lockedTo stream).foldl State.cutLane t).fwdFail k q.starts 1
  else
    let t := (s1.modSlot k (fun r => { r with
        frames := r.frames + 1, newest := if r.ring % 4 = 0 then none else some r.frameSlot }.modFwd r.starts (fun e =>
          { e with ended := true }))).count (camCount p 0) 1
    let u := t.raise (camStatus p) [0]
    let v := if q.long then ((u.count (camCount p 0x18) 1).raise (camStatus p) [2]).camFault k else u
    (List.range 8).foldl (fun w n => if w.showsStream n stream then w.porchCatch n else w) (v.damageStream stream)

/-- The ring a plan gives the stream, as 4 × line ring + frames of its frame ring (06 R145). -/
def State.ringWanted (s : State) (k : Nat) : Nat := 4 * b2n (s.lineRing k) + s.frameRing k

/-- A ring that changed is set up at a frame start; the other one stays (06 R145). -/
def State.setRing (s : State) (k : Nat) : State :=
  let w := s.ringWanted k
  s.modSlot k (fun q =>
    let a := if q.ring / 4 = w / 4 then q else { q with ringPos := 0 }
    let b := if q.ring % 4 = w % 4 then a else { a with filled := [], newest := none, held := [] }
    { b with ring := w })

/-- The slot of the frame ring to fill: the oldest that is neither the newest frame nor held (09 R241). -/
def Slot.freeSlot (q : Slot) : Option Nat :=
  let open_ := (List.range (q.ring % 4)).filter (fun i => decide (q.newest ≠ some i) && !q.held.any (fun h => decide (h.2 = i)))
  open_.foldl (fun best i => match best with
    | none => some i
    | some b => if tabGet 0 q.filled i < tabGet 0 q.filled b then some i else some b) none

/-- A frame start less than 15/16 of the configured period after the last one not dropped for rate (09 R237). -/
def State.tooSoon (s : State) (k : Nat) : Bool :=
  (s.slot k).startedAt.any (fun t => decide ((s.now - t) * s.slotNum k 5 * 16 < 1_500_000_000_000))

/-- A frame dropped at the input (09 R237, R241). -/
def State.dropFrame (s : State) (k : Nat) : State := (s.count (camCount (k / 4) 8) 1).raise (camStatus (k / 4)) [3]

/-- The processing objects a stream uses from its frame start on (09 R252). -/
def State.processingOf (s : State) (k : Nat) : List (Nat × Val) :=
  [1, 2, 3, 4, 5].map (fun sub => (sub, s.obj (camIx (k / 4) (0x20 + k % 4)) sub))

/-- A frame is opened (09 R236 steps 1 and 6, R237, R239, R241). -/
def State.startFrame (s : State) (k : Nat) : State :=
  let p := k / 4
  let s0 := if (s.slot k).isOpen then ((s.raise (camStatus p) [7]).camFault k).endFrame k true else s
  let s1 := (s0.setRing k).modSlot k (fun q => { q with processing := s.processingOf k })
  if s1.tooSoon k then s1.dropFrame k
  else
    let s2 := s1.modSlot k (fun q => { q with startedAt := some s.now, mode := .streaming })
    let q := s2.slot k
    if q.ring % 4 ≠ 0 ∧ q.freeSlot = none then s2.dropFrame k
    else
      let i := (q.freeSlot).getD 0
      let s3 := s2.modSlot k (fun r =>
        { r with isOpen := true, crc := false, long := false, linesReceived := 0, landed := 0, lineStartAt := none, lineSum := 0,
                 ringBase := r.ringPos, frameSlot := i, starts := r.starts + 1,
                 filled := if r.ring % 4 = 0 then r.filled else tabSet r.filled i (r.starts + 1) })
      (s3.lockSeekers (s.slotNum k 1)).foldl State.scheduleLane (s3.fwdFrame k)

/-- A frame start packet (09 R236). -/
def State.csiStart (s : State) (p vc : Nat) : State := (s.slotsAt p vc).foldl State.startFrame s

/-- A frame end packet. -/
def State.csiEnd (s : State) (p vc : Nat) : State :=
  (s.slotsAt p vc).foldl (fun t k => if (t.slot k).isOpen then t.endFrame k false else t) s

/-- The format code of a data type (09 R232, R234). -/
def formatOfType (dt : Nat) : Option Nat :=
  match dt with
  | 0x2B => some 0x30 | 0x2C => some 0x31 | 0x2E => some 0x32 | 0x2F => some 0x33 | _ => none

/-- A line as it is stored: cut to the width, or completed with its last sample (09 R236 step 3, R241); an empty line has none to
repeat, and its samples are free. -/
def fitLine (w bits free : Nat) (samples : List Nat) : List Nat :=
  let xs := (samples.take w).map (· % 2 ^ bits)
  xs ++ List.replicate (w - xs.length) (xs.getLast?.getD (free % 2 ^ bits))

/-- One line of an open frame (09 R233, R236 steps 2 to 4). -/
def State.takeLine (s : State) (crcError : Bool) (samples : List Nat) (k : Nat) : State :=
  let q := s.slot k
  let w := s.streamW k
  if !q.isOpen then s
  else if s.streamH k ≤ q.linesReceived then s.modSlot k (fun r => { r with long := true, crc := r.crc || crcError })
  else
    let s1 := if samples.length = w then s else s.raise (camStatus (k / 4)) [9]
    let line := fitLine w (rawBits (s.slotNum k 3)) s.free samples
    let s2 := s1.modSlot k (fun r =>
      let ls := if 4 ≤ r.ring then tabSet r.ringLines (lineRingKey r.ringPos) line else r.ringLines
      { r with crc := r.crc || crcError,
               ringLines := if r.ring % 4 = 0 then ls else tabSet ls (frameRingKey r.frameSlot r.linesReceived) line,
               ringPos := if r.ring = 0 then r.ringPos else r.ringPos + 1, linesReceived := r.linesReceived + 1,
               lineSum := match r.lineStartAt with | none => 0 | some t => s.now - t,
               lineStartAt := some (r.lineStartAt.getD s.now) })
    if samples = [] then s2.used else s2

/-- A packet by its header (09 R233): 0 good, 1 corrected, counted and used, else uncorrectable, counted and discarded. -/
def State.packet (s : State) (p header : Nat) (f : State → State) : State :=
  if header = 0 then f s
  else if header = 1 then f (s.modCam p (fun c => { c with headerCorrected := c.headerCorrected + 1 }))
  else ((s.modCam p (fun c => { c with headerErrors := c.headerErrors + 1 })).raise (camStatus p) [5]).occur (24 + p) p

/-- A long packet: its data type, its payload (09 R232, R233, R236). -/
def State.longPacket (s : State) (p vc dataType : Nat) (crcError : Bool) (samples : List Nat) : State :=
  if dataType = 0x12 then s
  else
    match formatOfType dataType with
    | none => (s.modCam p (fun c => { c with dtDrops := c.dtDrops + 1 })).raise (camStatus p) [6]
    | some f =>
      let t := if crcError then (s.modCam p (fun c => { c with crcErrors := c.crcErrors + 1 })).raise (camStatus p) [4] else s
      ((t.slotsAt p vc).filter (fun k => decide (t.slotNum k 3 = f))).foldl (fun u k => u.takeLine crcError samples k) t

/-- A camera line can be landed: it was received and is the next one (07 R176). -/
def State.landReady (s : State) (k line : Nat) : Bool :=
  let q := s.slot k
  s.slotOn k && decide (line = q.landed) && decide (line < q.linesReceived)

/-- A camera line is landed (07 R176): the request line and the managed channel are paced, bands are released (09 R244, R247). -/
def State.landLine (s : State) (k line : Nat) : State :=
  let t := s.modSlot k (fun q => { q with landed := line + 1 })
  let pulses := ceilDiv (s.ringLine k) 4096
  if s.fwdOn k ∧ s.processed k then t.releaseBands k line
  else
    let u := if s.lineDone k then (List.range pulses).foldl (fun v _ => v.pulse (k / 4)) t else t
    u.fwdRequest k (s.slot k).starts pulses

/-- The camera line that a row of a lane in lead discipline waits for has landed (01 R19). -/
def State.rowLanded (s : State) (n r : Nat) : Bool :=
  match s.slotOf (s.lockStream n) with
  | some k => decide (min (32 * r + 31 + (s.lane n).reachDown) (s.streamH k - 1) < (s.slot k).landed)
  | none => false

/-- More than 4 configured periods have passed since the last accepted frame start (09 R239). -/
def State.lostReady (s : State) (k : Nat) : Bool :=
  s.slotOn k && decide ((s.slot k).mode = .streaming) &&
  (s.slot k).startedAt.any (fun t => decide (400_000_000_000 < (s.now - t) * s.slotNum k 5))

/-- A stream is lost (09 R239). -/
def State.loseStream (s : State) (k : Nat) : State :=
  ((s.modSlot k (fun q => { q with mode := .lost })).raise (camStatus (k / 4)) [8]).camFault k

/-- The state of a port (09 R252): 0 disabled, 1 waiting, 2 streaming, 3 error. -/
def State.camState (s : State) (p : Nat) : Nat :=
  let on := ((List.range 4).map (fun v => p * 4 + v)).filter s.slotOn
  if !s.camOn p then 0
  else if on.any (fun k => decide ((s.slot k).mode = .lost)) then 3
  else if on.any (fun k => decide ((s.slot k).mode = .streaming)) then 2 else 1

end Sys2Proof.Machine
end

