-- ==== Sys2Proof/Machine/Operands.lean ====
section
/-! DEFINITION. The operands of commands: the words of command queue items (04 R95, 05 R122, 06 R155, 10 R256, R257, 11 R296, 13
R369), dictionary requests on CAN FD, UDP and the mailbox and their answers (02 R36 to R45). -/

namespace Sys2Proof.Machine

open Sys2Proof

/-! ### Items -/

/-- Tags (04 R95). -/
def tagOf (w : Nat) : Nat := bits w 63 62
/-- A word without its tag. -/
def bare (w : Nat) : Nat := w % 2 ^ 62
def opOf (w : Nat) : Nat := bits w 61 56
def cookieOf (w : Nat) : Nat := bits w 31 16
def layerField (w : Nat) : Nat := bits w 42 32

/-- Bits of word 0 that an opcode's item shows, its opcode among them (04 R95, 05 R122, 06 R155, 10 R256, 13 R369). -/
def word0Mask (op : Nat) : Nat :=
  let field (hi lo : Nat) : Nat := 2 ^ (hi + 1) - 2 ^ lo
  let cookie := field 31 16
  let opcode := field 61 56
  match op with
  | 0x01 => opcode + field 55 47 + cookie
  | 0x02 => opcode + field 42 32
  | 0x03 => opcode + cookie + field 13 0
  | 0x04 => opcode + field 49 48 + cookie
  | 0x05 => opcode + cookie
  | 0x06 => opcode + field 42 32 + cookie
  | 0x07 => opcode + field 54 52 + field 47 32 + cookie
  | 0x08 => opcode + field 47 32 + cookie
  | 0x09 => opcode + field 55 48 + field 42 32 + cookie
  | 0x0A => opcode + field 55 48 + cookie
  | 0x10 | 0x11 => opcode + field 55 55 + field 47 32 + cookie
  | 0x12 | 0x13 | 0x14 | 0x15 => opcode + field 55 55 + field 51 48 + field 47 32 + cookie
  | _ => 0

/-- The lengths an item may have. -/
def lengthOk (w n : Nat) : Bool :=
  match opOf w with
  | 0x01 => n == (if bitOf w 47 then 4 else 1)
  | 0x02 => within 2 16 n
  | 0x03 | 0x04 => n == 4
  | 0x05 | 0x06 | 0x08 => n == 1
  | 0x07 => n == 3
  | 0x09 => n == (if bits w 55 52 = 2 then 2 else 1)
  | 0x0A => within 1 16 n
  | 0x10 => n == 6
  | 0x11 | 0x13 | 0x14 => n == 7
  | 0x12 => n == 8
  | 0x15 => n == 9
  | _ => false

/-- Bits that a further word shows; `i` is its place in the item. -/
def wordMask (op i : Nat) : Nat :=
  let rect := 2 ^ 56 - 1
  let desc1 := 2 ^ 57 - 1
  let desc2 := 2 ^ 56 - 1
  let point := 2 ^ 28 - 1
  match op, i with
  | 0x01, 1 | 0x03, 1 | 0x04, 1 => 2 ^ 62 - 1
  | 0x01, _ | 0x03, _ | 0x04, _ => 2 ^ 32 - 1
  | 0x02, _ => 2 ^ 37 - 1
  | 0x07, 1 => rect
  | 0x07, _ => 2 ^ 28 - 1
  | 0x09, _ => 2 ^ 51 - 2 ^ 48 + (2 ^ 48 - 2 ^ 32) + (2 ^ 16 - 1)
  | 0x0A, _ => 2 ^ 62 - 1
  | 0x10, 1 | 0x11, 1 | 0x12, 1 | 0x13, 1 | 0x14, 1 | 0x15, 1 => desc1
  | 0x10, 2 | 0x11, 2 | 0x12, 2 | 0x13, 2 | 0x14, 2 | 0x15, 2 => desc2
  | 0x10, 3 | 0x13, 3 | 0x14, 3 => rect
  | 0x10, _ => 2 ^ 32 - 1
  | 0x11, 3 | 0x12, 3 | 0x15, 3 => desc1
  | 0x11, 4 | 0x12, 4 | 0x15, 4 => desc2
  | 0x11, 5 | 0x15, 5 => point
  | 0x11, _ => rect
  | 0x12, 7 => 2 ^ 20 - 1
  | 0x12, _ => rect
  | 0x13, 6 => 2 ^ 8 - 1
  | 0x14, 6 => 2 ^ 7 - 1
  | 0x13, _ | 0x14, _ => 2 ^ 32 - 1
  | 0x15, 6 => rect
  | 0x15, _ => 2 ^ 32 - 1
  | _, _ => 0

/-- No bit outside a mask. -/
def only (mask w : Nat) : Bool := decide (w &&& mask = w)

/-- The subindexes of layer objects that take two words (04 R78, R95). -/
def layerWide (sub : Nat) : Bool := decide (sub = 0x09 ∨ sub = 0x16 ∨ sub = 0x17 ∨ sub = 0x1A ∨ sub = 0x1D)

/-- The writes of a LAYER_SET: subindex and value; none where a U64 object's second word is missing (04 R95). -/
def layerWrites : List Nat → Option (List (Nat × Nat))
  | [] => some []
  | w :: rest =>
    let sub := bits w 36 32
    if layerWide sub then
      match rest with
      | v :: more => if bits v 36 32 = sub then (layerWrites more).map (fun l => (sub, bits w 31 0 + bits v 31 0 * 2 ^ 32) :: l) else none
      | [] => none
    else (layerWrites rest).map (fun l => (sub, bits w 31 0) :: l)

/-- An item that its opcode's format allows (04 R95, 11 R296, notes/assumptions/22). Words carry no tags. -/
def CqItem.wellFormed (i : CqItem) : Bool :=
  match i.words with
  | [] => false
  | w :: rest =>
    !i.malformed && lengthOk w i.words.length && only (word0Mask (opOf w)) w &&
    (List.range rest.length).all (fun j => only (wordMask (opOf w) (j + 1)) (rest.getD j 0)) &&
    (opOf w != 2 || (layerWrites rest).isSome)

/-- SMU request codes that exist (13 R369). -/
def smuCode (c : Nat) : Bool := within 1 8 c || within 0x10 0x15 c

/-- Words of an item by place. -/
def CqItem.word (i : CqItem) (k : Nat) : Nat := i.words.getD k 0

/-- The item at the head of a crew's queue, where the crew may take it: complete, not held, in RUN or FACTORY (11 R297, 15 R409). -/
def State.headItem (s : State) (c : Nat) : Option CqItem :=
  let k := s.crew c
  if s.running && s.modes.sleeping.isNone && s.crewEnabled c && decide (k.holding = .idle) then
    match k.cq with
    | i :: _ => if i.closed || i.malformed then some i else none
    | [] => none
  else none

/-- The head is a well-formed item of an opcode. -/
def State.headIs (s : State) (c op : Nat) : Bool :=
  match s.headItem c with
  | some i => i.wellFormed && decide (opOf (i.word 0) = op)
  | none => false

/-- The head is an SMU request of a code. -/
def State.headSmu (s : State) (c code : Nat) : Bool :=
  s.headIs c 0x0A && (s.headItem c).any (fun i => decide (bits (i.word 0) 55 48 = code))

/-- The head item. -/
def State.head (s : State) (c : Nat) : CqItem := (s.headItem c).getD { words := [], closed := true, malformed := true }

/-- The head is taken; its words are free at once (11 R297). -/
def State.takeHead (s : State) (c : Nat) : State := s.modCrew c (fun k => { k with cq := k.cq.drop 1 })

/-- ITEM_ERROR with a reason (04 R95, R96). -/
def State.itemError (s : State) (c reason cookie : Nat) : State := s.post c (eventWord 0x0A 0xF reason cookie 0)

/-- A fence address word outside 04 R90: its bits [63:62] and [2:1] are 0; an item carries its tag in [63:62]. -/
def fenceWordOk (w : Nat) : Bool := decide (bits w 2 1 = 0)

/-! ### Rectangles, points, colours and surfaces of blits (10 R256, R257) -/

/-- A rectangle of 14-bit corners, ends exclusive. -/
def rect14 (w : Nat) : Rect :=
  { x0 := (bits w 13 0 : Int), y0 := (bits w 27 14 : Int), x1 := (bits w 41 28 : Int), y1 := (bits w 55 42 : Int) }

/-- A point of 14-bit coordinates. -/
def point14 (w : Nat) : Nat × Nat := (bits w 13 0, bits w 27 14)

/-- A colour over two words, as the U64 of layer.fill: its high half, then its low half (04 R78). -/
def colourOf (a b : Nat) : Nat := bits a 31 0 * 2 ^ 32 + bits b 31 0

end Sys2Proof.Machine
end

