-- ==== Sys2Proof/Machine/Programs.lean ====
section
/-! DEFINITION. Blend programs, writeback, pins, residence copies (05 R122 to R126, R136 to R140, 06 R142, R155, R156). -/

namespace Sys2Proof.Machine

open Sys2Proof

/-! ### Blend programs -/

/-- A little-endian number in a crew's aperture. -/
def State.apNat (s : State) (c a n : Nat) : Nat := memNat s.aperture (apertureKey c a) n

/-- PROGRAM_READY with a handle, or with 0xFFFF_FFFF and a reason (05 R122). -/
def State.programPost (s : State) (c reason cookie handle : Nat) : State := s.post c (eventWord 0x0B 0xF reason cookie handle)

/-- The handles a crew holds. -/
def State.handlesOf (s : State) (c : Nat) : List Nat :=
  (s.programs.filter (fun p => decide (p.1 < 0x1_0000) && decide (p.2.owner = c))).map Prod.fst

/-- PROGRAM_SET taken from the queue: the device begins to read its block (05 R122). -/
def State.programSet (s : State) (c : Nat) : State :=
  let i := s.head c
  let t := s.takeHead c
  let r : ProgramReq := { lane := bits (i.word 0) 54 52, replace := bits (i.word 0) 47 32, region := i.word 1, block := i.word 2,
                          cookie := cookieOf (i.word 0) }
  if !s.crewRight c 5 then t.programPost c 5 r.cookie 0xFFFF_FFFF
  else t.modCrew c (fun k => { k with installing := k.installing ++ [r] })

/-- A step's buffers and operation are allowed, given the buffers written so far (05 R126). -/
def stepOk (written : List Nat) (w : Nat) : Bool :=
  let op := stepOp w
  let reads := if op = 4 ∨ op = 5 ∨ op = 8 ∨ op = 9 then [stepA w] else if op = 6 ∨ op = 7 then [stepA w, stepB w] else []
  within 1 9 op && decide (stepDst w ≠ 3) && decide (stepA w ≠ 3) && decide (stepB w ≠ 3) && reads.all written.contains

/-- Every step is allowed; a STORE is the last (05 R126). -/
def stepsOk : List Nat → List Nat → Bool
  | _, [] => true
  | written, w :: rest =>
    stepOk written w && (stepOp w != 9 || rest.isEmpty) && stepsOk (if stepOp w = 9 then written else stepDst w :: written) rest

/-- What a program block comes to (05 R123, R126): the program, or VALUE_CONFLICT. A step through a mesh or a user table that the
header does not give names one that lies nowhere in the aperture (notes/assumptions/24). -/
def State.readProgram (s : State) (c : Nat) (r : ProgramReq) : Option Program :=
  let at_ (o n : Nat) : Nat := s.apNat c (r.block + o) n
  let count := at_ 4 1
  let steps := (List.range count).map (fun i => at_ (0x80 + 8 * i) 8)
  let mesh (m : Nat) : Nat := at_ (8 + 4 * m) 4
  let table := at_ 0x18 4
  let inside (a n : Nat) : Bool := decide (a + n ≤ 0x1000_0000)
  let region := rect14 r.region
  let usesMesh (m : Nat) : Bool := steps.any (fun w => decide (stepOp w = 3) && decide (bits w 1 0 = m))
  let usesTable := steps.any (fun w => decide (stepOp w = 2) && decide (bits w 1 0 = 3))
  if !inside r.block 128 || at_ 0 4 != 0x4752_5042 || !within 1 32 count || !inside r.block (128 + 8 * count) || !stepsOk [0] steps ||
     (List.range 4).any (fun m => (mesh m = 0 && usesMesh m) || (mesh m != 0 && (!inside (mesh m) 8712 || mesh m % 64 != 0))) ||
     (table = 0 && usesTable) || (table != 0 && !inside table 1792) || !region.nonempty || !region.inside (s.active r.lane)
  then none
  else
    let coord (m p axis : Nat) : Int := signedOf 32 (s.apNat c (mesh m + 8 * p + 4 * axis) 4)
    let points : Tab Int := (List.range 4).flatMap (fun m =>
      if mesh m = 0 then [] else (List.range 2178).map (fun q => (m * 4096 + q, coord m (q / 2) (q % 2))))
    let p : Program :=
      { owner := c, lane := r.lane, region := r.region, everyFrame := bitOf (at_ 5 1) 0, steps := steps,
        scaler := if table = 0 then [] else (List.range 896).map (fun i => signedOf 16 (s.apNat c (table + 2 * i) 2)),
        matrix := (List.range 12).map (fun i => signedOf 32 (at_ (0x20 + 4 * i) 4)), mesh := points,
        reaches := ((List.range 4).filter usesMesh).filterMap (fun m => (meshReach points m region).map (fun q => (m, q))), inEffect := false }
    some p

/-- The first uncorrectable unit that reading a program block with its meshes and its table meets (07 R173, notes/assumptions/24). -/
def State.badBlock (s : State) (c : Nat) (r : ProgramReq) : Option (Bool × Nat) :=
  let part (o n : Nat) : Nat × Nat := let a := s.apNat c (r.block + o) 4; (a, if a = 0 then 0 else n)
  ((r.block, 128 + 8 * s.apNat c (r.block + 4) 1) :: part 0x18 1792 :: (List.range 4).map (fun m => part (8 + 4 * m) 8712)).findSome?
    (fun q => s.badRead c q.1 q.2)

/-- The lowest free handle (05 R122: from 1 to 0xFFFF). -/
def State.freeHandle (s : State) : Nat :=
  (((List.range (s.programs.length + 1)).map (· + 1)).find? (fun h => (tabFind s.programs h).isNone)).getD 0

/-- A read, checked and copied block: installed for the crew's next commit on the lane, or refused (05 R122, R126, R140). -/
def State.programReady (s : State) (c : Nat) : State :=
  match (s.crew c).installing with
  | [] => s
  | r :: rest =>
    let t := s.modCrew c (fun k => { k with installing := rest })
    let mine := s.handlesOf c
    if r.replace = 0 ∧ 8 ≤ mine.length then t.programPost c 2 r.cookie 0xFFFF_FFFF
    else if r.replace ≠ 0 ∧ !mine.contains r.replace then t.programPost c 1 r.cookie 0xFFFF_FFFF
    else if let some u := s.badBlock c r then (t.unitError u.1 u.2).programPost c 1 r.cookie 0xFFFF_FFFF
    else
      match s.readProgram c r with
      | none => t.programPost c 1 r.cookie 0xFFFF_FFFF
      | some p =>
        let h := if r.replace = 0 then s.freeHandle else r.replace
        let key := if r.replace = 0 then h else pendingProgram h
        (({ t with programs := tabSet t.programs key p }).modCrew c (fun k =>
          { k with staged := k.staged.filter (fun (e : Staged) => match e with | .program x _ => decide (x % 0x1_0000 ≠ h) | _ => true) ++
                             [Staged.program key r.lane] })).programPost c 0 r.cookie h

/-- PROGRAM_DELETE (05 R122): refused for a handle that is not the crew's, or that layers in effect name. -/
def State.programDelete (s : State) (c : Nat) : State :=
  let i := s.head c
  let h := bits (i.word 0) 47 32
  let t := s.takeHead c
  let named := s.layers.any (fun p => p.2.owner.isSome && decide (s.lyr p.1 0x1C = h))
  if !(s.handlesOf c).contains h || named then t.itemError c 1 (cookieOf (i.word 0))
  else
    { t with
      programs := t.programs.filter (fun p => decide (p.1 % 0x1_0000 ≠ h)),
      crews := tabMod blankCrew t.crews c (fun k =>
        { k with staged := k.staged.filter (fun e => match e with | .program x _ => decide (x % 0x1_0000 ≠ h) | _ => true) }) }

/-! ### Writeback completed (05 R138) -/

/-- The last line of a writeback reaches memory (05 R138); a translation fault abandons the frame (11 R294). -/
def State.writebackDone (s : State) (n : Nat) : State :=
  match (s.lane n).wbOwner with
  | none => s
  | some c =>
    match s.writeRuns c (decide (s.laneNum n 5 4 = 1)) 5 n (s.wbRuns n) with
    | (t, false) => t.dropWriteback n
    | (t, true) =>
      let buffer := (s.lane n).wbFrames % (max 1 (s.laneNum n 5 0xA))
      ((t.modLane n (fun l => { l with wbActive := false, wbFrames := l.wbFrames + 1 })).post c
        (eventWord 0x0C n buffer 0 (s.frame n))).pulse (8 + n)

/-! ### Residence copies and pins (06 R142, R155, R156) -/

/-- The last granule of a moved surface is copied (06 R142). -/
def State.copyDone (s : State) (l : Nat) : State :=
  match (s.layer l).copying with
  | some d =>
    let t := if d = 3 then s.prefetchLayer s l true [] else s
    t.modLayer l (fun k => { k with residence := d, copying := none })
  | none => s

/-- A PIN item: a staged pin or its removal, with the rights of 06 R156. -/
def State.pinItem (s : State) (c : Nat) : State :=
  let i := s.head c
  let w := i.word 0
  let t := s.takeHead c
  let err (reason : Nat) : State := t.itemError c reason (cookieOf w)
  let kind := bits w 55 52
  let l := layerField w
  let mem := bits w 51 48
  let v := i.word 1
  if kind = 1 then
    if !s.crewRight c 6 ∨ (s.layer l).owner ≠ some c then err 5
    else if !(mem ≤ 2 || mem = 0xF) then err 7
    else t.modCrew c (fun k =>
      { k with staged := k.staged.filter (fun e => match e with | .surfacePin x _ => decide (x ≠ l) | _ => true) ++ [.surfacePin l mem] })
  else if kind = 2 then
    if !s.crewRight c 6 ∨ c ≠ 0 then err 5
    else t.modCrew c (fun k =>
      { k with staged := k.staged ++ [.regionPin (bits v 50 48) (bits v 47 40) (bits v 39 32) (bits v 15 0)] })
  else err 7

end Sys2Proof.Machine
end

