-- ==== Sys2Proof/Machine/Placing.lean ====
section
/-! DEFINITION. Shedding, shell self-tests, scrubbing, requests for a full self-test (06 R164 to R170). -/

namespace Sys2Proof.Machine

open Sys2Proof

/-! ### The ladder (06 R164 to R167) -/

/-- Shells that can compose: healthy and not under test (06 R164). -/
def State.available (s : State) : Nat :=
  (List.range 16).countP (fun i => s.placement.shellOk.testBit i && decide (s.placement.shellTest ≠ some i))

/-- How many bits of a mask are set. -/
def bitsSet (m : Nat) : Nat := (List.range 16).countP (fun i => m.testBit i)

/-- The current capacity of a resource (06 R164). LP5X has 8 channels. -/
def State.capacityNow (s : State) (r : Nat) : Rat :=
  if r = 0 then 256000000000 - 8000000000 * (bitsSet s.placement.repairBoathouse : Rat)
  else if r = 1 then s.rated 1 - s.rated 1 / 32 * (bitsSet s.placement.repairLp5 : Rat)
  else if r = 2 then (s.available * 64 : Nat) * ((8 - s.power.throttle : Nat) : Rat) / 8 * 1000000000
  else if (s.port ((r - 3) % 4)).l0 then s.rated r else 0

/-- The configuration as its PERIODIC layers are frozen: they cause no composition of their own (06 R166 step 5). -/
def State.unfrozenOnly (s : State) : State :=
  (s.layers.filter (fun p => s.frozen p.1)).foldl (fun t p => t.setNum (layerIx p.1) 3 4) s

/-- The demand of the forwarding that is shed on a resource (06 R165, R166 step 4). -/
def State.shedForwarding (s : State) (r : Nat) : Rat :=
  (s.enabledSlots.filter (fun k => s.fwdOn k && s.fwdShedNow k)).foldl (fun m k =>
    (s.fwdCharges k).foldl (fun q c => if c.1 = r then q + c.2.2 else q) m) 0

/-- D_r less the work shed at steps 4 and 5 (06 R165). -/
def State.demandNow (s : State) (r : Nat) : Rat :=
  (demandTotal (s.unfrozenOnly.chargesWith s.inBoathouse) r : Rat) - s.shedForwarding r

/-- A raw channel at work loads a resource. -/
def State.channelLoads (s : State) (k r : Nat) : Bool :=
  let c := s.channel k
  c.managed.isNone && decide (c.mode = .running ∨ c.mode = .waiting) && s.moves k r

/-- A residence copy loads a resource: both memories, or the boathouse and the owner's host port (06 R142, R166). -/
def State.copyLoads (s : State) (l r : Nat) : Bool :=
  (s.layer l).copying.isSome &&
  (decide (r = 0) || (if s.lyr l 8 = 1 then decide (r = 3 + ((s.layer l).owner.getD 0) / 128) else decide (r = 1)))

/-- Shedding step 1 on a resource that it loads holds a residence copy (06 R142, R166). -/
def State.copyHeld (s : State) (l : Nat) : Bool := s.placement.shed.any (fun e => e.2.1 == 1 && s.copyLoads l e.1)

/-- Layers of a rating on running lanes that load a resource. -/
def State.loaders (s : State) (inb : List Nat) (r rating : Nat) : List Nat :=
  (s.layers.filter (fun p => p.2.owner.isSome && decide (s.lyr p.1 3 = rating) && decide (s.lyr p.1 6 ≠ 0) && s.laneOn (s.lyr p.1 2) &&
    s.layerLoads inb p.1 r)).map Prod.fst

/-- The byte rate of a forwarded stream. -/
def State.fwdRate (s : State) (k : Nat) : Rat := ((s.fwdBytes k * s.streamH k : Nat) : Rat) * s.camRate k

/-- The next sub-step with work that loads a resource: its step and what it sheds (06 R165, R166). -/
def State.nextShed (s : State) (r : Nat) : Option (Nat × Nat) :=
  let inb := s.inBoathouse
  let shed := s.placement.shed
  let bulk := !shed.any (fun e => e.1 == r && e.2.1 == 1) &&
    ((List.range 72).any (fun k => s.channelLoads k r) || s.layers.any (fun p => s.copyLoads p.1 r))
  let live := (s.loaders inb r 2).any (fun l =>
    decide ((s.lyr l 0x19 : Rat) / 100 * ((2 ^ (s.halvings l + 1) : Nat) : Rat) ≤ s.fps (s.lyr l 2)))
  let flat := !s.flatShed && decide (r = 0 ∨ r = 2) && (List.range 8).any (fun n => s.laneOn n && decide (s.laneNum n 4 2 ≠ 0))
  let streams := s.enabledSlots.filter (fun k => s.fwdOn k && !s.fwdShedNow k && (s.fwdCharges k).any (fun c => decide (c.1 = r)))
  let heavy := streams.foldl (fun (b : Option Nat) k => match b with
    | none => some k
    | some j => if s.fwdRate j < s.fwdRate k then some k else some j) none
  let crews := (dedup ((s.loaders inb r 3).filterMap (fun l => (s.layer l).owner))).filter (fun c => !s.frozenCrew c)
  let light := crews.foldl (fun (b : Option Nat) c => match b with
    | none => some c
    | some d =>
      let wc := s.num (crewIx c 1) 1
      let wd := s.num (crewIx d 1) 1
      if wc < wd ∨ (wc = wd ∧ d < c) then some c else some d) none
  if bulk then some (1, 0)
  else if live then some (2, shed.length)
  else if flat then some (3, 0)
  else match heavy with
    | some k => some (4, s.slotNum k 1)
    | none => light.map (fun c => (5, c))

/-- SHED or RESTORED of a sub-step to the crews it concerns (06 R167). -/
def State.shedPost (s : State) (code : Nat) (e : Nat × Nat × Nat) : State :=
  let inb := s.inBoathouse
  let layers (rating : Nat) (keep : Nat → Bool) : State :=
    ((s.loaders inb e.1 rating).filter keep).foldl (fun t l =>
      match (s.layer l).owner with
      | some c => t.post c (eventWord code 0xF 0 0 l)
      | none => t) s
  match e.2.1 with
  | 2 => layers 2 (fun _ => true)
  | 4 =>
    (match s.slotOf e.2.2 with
     | some k => s.post (s.fwdNum k 3) (eventWord code 0xF 0 0 (0xFFFF_FF00 + e.2.2))
     | none => s)
  | 5 => layers 3 (fun l => decide ((s.layer l).owner = some e.2.2))
  | _ => s

/-- A halving's heats are counted from its sub-step (06 R166). -/
def State.restartHeats (s : State) (e : Nat × Nat × Nat) : State :=
  if e.2.1 = 2 then (s.loaders s.inBoathouse e.1 2).foldl (fun t l => t.modLayer l (fun q => { q with heats := 0 })) s else s

/-- A sub-step is applied (06 R167). -/
def State.applyShed (s : State) (e : Nat × Nat × Nat) : State :=
  (((s.modPlacement (fun p => { p with shed := p.shed ++ [e], shedSteps := p.shedSteps + 1 })).restartHeats e).raise coxStatus [2]).shedPost 0x0E e

/-- The latest sub-step on a resource. -/
def State.latestShed (s : State) (r : Nat) : Option (Nat × Nat × Nat) := (s.placement.shed.filter (fun e => decide (e.1 = r))).getLast?

/-- The sub-steps without one of them. -/
def withoutShed (shed : List (Nat × Nat × Nat)) (e : Nat × Nat × Nat) : List (Nat × Nat × Nat) := (shed.reverse.erase e).reverse

/-- A sub-step is undone (06 R167). -/
def State.undoShed (s : State) (e : Nat × Nat × Nat) : State :=
  (s.modPlacement (fun p => { p with shed := withoutShed p.shed e, shedReturns := p.shedReturns + 1 })).raise coxStatus [3] |>.shedPost 0x0F e

/-- ρ_r lies above a bound given in hundredths; a resource without capacity is above every bound while it has demand. -/
def State.loadedOver (s : State) (r hundredths : Nat) : Bool := decide (s.capacityNow r * hundredths < s.demandNow r * 100)

/-- Entry: 4 evaluations above 0.85 apply the next sub-step; above 1.0 with none left the ladder is exhausted, raised once until the
resource is no longer above 1.0 (06 R165, R167). -/
def State.shedEntry (s : State) (r : Nat) : State :=
  let hot := s.loadedOver r 85
  let n := if hot then tabGet 0 s.placement.above r + 1 else 0
  let s1 := s.modPlacement (fun p => { p with above := tabSet p.above r (if 4 ≤ n then 0 else n) })
  let s2 := if 4 ≤ n then (match s.nextShed r with
    | some (step, x) => s1.applyShed (r, step, x)
    | none => s1) else s1
  if !s.loadedOver r 100 then s2.modPlacement (fun p => { p with exhausted := p.exhausted.filter (· != r) })
  else if (s.nextShed r).isNone ∧ !s.placement.exhausted.contains r then
    ((s2.modPlacement (fun p => { p with exhausted := r :: p.exhausted })).raise coxStatus [7]).occur 45 r
  else s2

/-- Exit: 100 evaluations below 0.75 as if the latest sub-step were undone (06 R165). -/
def State.shedExit (s : State) (r : Nat) : State :=
  match s.latestShed r with
  | none => s
  | some e =>
    let without := s.modPlacement (fun p => { p with shed := withoutShed p.shed e })
    let n := if decide (without.demandNow r * 100 < without.capacityNow r * 75) then tabGet 0 s.placement.below r + 1 else 0
    let s1 := s.modPlacement (fun p => { p with below := tabSet p.below r (if 100 ≤ n then 0 else n) })
    if 100 ≤ n then s1.undoShed e else s1

/-- One evaluation of every resource (06 R165). -/
def State.shedEvaluate (s : State) : State := (List.range 11).foldl (fun t r => (t.shedEntry r).shedExit r) s

/-- The ladder step in force on a resource (06 R171). -/
def State.shedStep (s : State) (r : Nat) : Nat := ((s.latestShed r).map (fun e => e.2.1)).getD 0

/-! ### Shell self-tests (06 R168) -/

/-- The shell to test next: from the one after the last, the first that is healthy. -/
def State.shellDue (s : State) : Option Nat :=
  ((List.range 16).map (fun i => (s.placement.nextShell + i) % 16)).find? (fun i => s.placement.shellOk.testBit i)

/-- A test can start: it waits while the blade ladder has a sub-step in force, but not beyond 60 s since that shell's last test. -/
def State.shellReady (s : State) : Bool :=
  s.running && s.placement.shellTest.isNone &&
  s.shellDue.any (fun i => (s.latestShed 2).isNone || decide (tabGet 0 s.placement.lastShellTest i + 60_000_000_000 ≤ s.now))

def State.shellStart (s : State) : State :=
  s.modPlacement (fun p => { p with shellTest := s.shellDue })

/-- After a change of the healthy shells: where an assignment of those left passes the row check, the new sets take effect and the plan's
generation advances; else those in effect stay (06 R142, R168). -/
def State.followShells (s : State) : State := if s.shellsFit then s.takeShells.planChanged else s

/-- The end of a shell's test: returned, or removed until the next LAUNCH with the plan adjusted where an assignment of the shells
left passes the row check (06 R168). -/
def State.shellEnd (s : State) (passed : Bool) : State :=
  match s.placement.shellTest with
  | none => s
  | some i =>
    let s1 := s.modPlacement (fun p => { p with shellTest := none, nextShell := (i + 1) % 16, lastShellTest := tabSet p.lastShellTest i s.now })
    if passed then s1
    else
      let s2 := ((s1.modPlacement (fun p => { p with shellOk := p.shellOk &&& (0xFFFF ^^^ 2 ^ i) })).raise coxStatus [5]).occur (96 + i) i
      s2.followShells

/-! ### Scrubbing (06 R169, 07 R173, 11 R309) -/

/-- A channel's key among the corrected errors: boathouse 0 to 7, LP5X 8 to 15. -/
def scrubKey (lp5 : Bool) (channel : Nat) : Nat := channel + 8 * b2n lp5

/-- Corrected errors on a channel: counted and remembered for 1 s. -/
def State.corrected (s : State) (lp5 : Bool) (channel n : Nat) : State :=
  if n = 0 then s
  else (s.count (if lp5 then 0x50 else 0x48) n).modPlacement (fun p =>
    { p with corrections := (p.corrections.filter (fun c => decide (s.now < c.2 + 1_000_000_000))) ++
                            (List.range n).map (fun _ => (scrubKey lp5 channel, s.now)) })

/-- A channel's repair scrub begins or ends; source 58 is active while a boathouse channel is in it (12 R333). -/
def State.setRepair (s : State) (lp5 : Bool) (channel : Nat) (on : Bool) : State :=
  let put (m : Nat) : Nat := if on then m ||| 2 ^ channel else m &&& (0xFF ^^^ 2 ^ channel)
  if lp5 then s.modPlacement (fun p => { p with repairLp5 := put p.repairLp5 })
  else
    let t := s.modPlacement (fun p => { p with repairBoathouse := put p.repairBoathouse })
    if t.placement.repairBoathouse = 0 then t.lineOff 58 else t.lineOn 58 channel

/-- A pass of one channel with the errors it found (06 R169). -/
def State.scrub (s : State) (lp5 : Bool) (channel : Nat) (fixed bad : List Nat) : State :=
  let s1 := s.corrected lp5 channel fixed.length
  let s2 := bad.foldl (fun t a => t.occur ((if lp5 then 120 else 112) + channel) a) s1
  let s3 := s2.modPlacement (fun p =>
    { p with badUnits := p.badUnits.filter (fun u => !(decide (u % 2 = b2n lp5) && decide (bits (u / 2) 10 8 = channel))) ++
                         bad.map (badUnit lp5) })
  let many := decide (16 ≤ (s3.placement.corrections.countP (fun c => decide (c.1 = scrubKey lp5 channel) && decide (s.now < c.2 + 1_000_000_000))))
  if bad ≠ [] ∨ many then s3.setRepair lp5 channel true
  else if fixed = [] then s3.setRepair lp5 channel false else s3

/-! ### Requests for a full self-test (06 R170) -/

/-- A full self-test is asked for: in this LAUNCH, where it runs at once if the plan is built, or deferred to the next one. -/
def State.askSelftest (s : State) : State :=
  if s.modes.mode = .launch then
    s.modModes (fun m => { m with selftestAsked := true, selftest := if s.planBuilt then 1 else m.selftest,
                                  step := if s.planBuilt then .planned else m.step })
  else (s.modModes (fun m => { m with selftestAsked := true, selftest := 2 })).raise coxStatus [6]

end Sys2Proof.Machine
end

