-- ==== Sys2Proof/Machine/Blits.lean ====
section
/-! DEFINITION. Blits and the clip sets of the write port (10 R254 to R264). A blit's surfaces are read through layer numbers
above the device's 2,048 in a scratch copy of the state. -/

namespace Sys2Proof.Machine

open Sys2Proof

/-- A surface descriptor (10 R257). -/
structure Surf where
  host : Bool
  fmt : Nat
  addr : Nat
  enc : Nat
  stride : Nat
  w : Nat
  h : Nat
  deriving DecidableEq, Repr, Inhabited

def surfOf (a b : Nat) : Surf :=
  { host := bitOf a 56, fmt := bits a 55 48, addr := bits a 47 0, enc := bits b 55 48, stride := 64 * bits b 47 32,
    w := bits b 15 0, h := bits b 31 16 }

/-- The same surface: location, address and stride are equal (10 R262). -/
def Surf.same (a b : Surf) : Bool := decide (a.host = b.host) && decide (a.addr = b.addr) && decide (a.stride = b.stride)

def Surf.whole (d : Surf) : Rect := { x0 := 0, y0 := 0, x1 := d.w, y1 := d.h }

/-- Where an IDX8 source's palette lies: after its last line, rounded up to 64 bytes (10 R257). -/
def Surf.palette (d : Surf) : Nat := (d.addr + (d.h - 1) * d.stride + d.w + 63) / 64 * 64

/-- Bytes of a pixel of a one-plane format; 0 for A1. -/
def bytesPer (f : Nat) : Nat := lineBytes0 f 1 - (if f = 0x23 then 1 else 0)

/-- The scratch layer numbers of a blit's destination and source. -/
def dstLayer : Nat := 2048
def srcLayer : Nat := 2049

/-- A scratch layer that shows a descriptor's surface, cropped to a rectangle, its A8 or A1 colour given as layer.fill. -/
def State.withSurf (s : State) (l c : Nat) (d : Surf) (fill : Nat) (crop : Rect) : State :=
  let put (t : State) (p : Nat × Nat) : State := t.setNum (layerIx l) p.1 p.2
  [(0xF, crop.x0.toNat + crop.y0.toNat * 2 ^ 16), (0x10, (crop.x1 - crop.x0).toNat + (crop.y1 - crop.y0).toNat * 2 ^ 16), (6, 1), (7, d.fmt), (8, b2n d.host), (9, d.addr), (0xC, d.stride), (0xE, d.w + d.h * 2 ^ 16), (0x14, d.enc),
   (0x17, fill), (0x1A, d.palette)].foldl put (s.modLayer l (fun k => { k with owner := some c }))

/-- A descriptor that meets 04 R75 and 10 R257, of one of the formats of its place. -/
def State.surfOk (s : State) (c : Nat) (formats : List Nat) (d : Surf) : Bool :=
  formats.contains d.fmt && encodingOk d.enc && decide (bits d.enc 1 0 ≠ 1) && decide (bits d.enc 1 0 ≠ 2) &&
  (s.withSurf srcLayer c d 0 d.whole).surfaceOk srcLayer

def dstFormats : List Nat := [1, 2, 3, 4, 5, 0x22]
def srcFormats : List Nat := [1, 2, 3, 4, 5, 0x15, 0x20, 0x21, 0x22]
def maskFormats : List Nat := [0x22, 0x23]

/-! ### Clip rectangles (10 R260) -/

/-- A destination pixel passes the crew's active clip set. -/
def State.clipPass (s : State) (c mask : Nat) (x y : Int) : Bool :=
  let n := s.num (crewIx c 2) 0
  decide (n = 0) ||
  (List.range n).any (fun i => (decide (mask = 0) || mask.testBit i) && (rectOf (s.num (crewIx c 2) (i + 1))).has x y)

/-! ### Encoding the result (10 R258 step 5) -/

/-- A U1.19 component in n bits. -/
def quantise (v n : Nat) : Nat := min (2 ^ n - 1) (roundDiv (v * (2 ^ n - 1)) one19)

/-- The nearest binary16 value of a U1.19 component. -/
def toHalf (v : Nat) : Nat :=
  if v < 32 then v * 32
  else
    let e := Nat.log2 v
    (e - 4) * 1024 + roundDiv (v * 1024) (2 ^ e) - 1024

/-- A colour component under the inverse of the destination's transfer: IEC 61966-2-1, or none for linear. -/
def untransfer (enc v : Nat) : Nat := if bits enc 1 0 = 3 then v else toU119 (linearToSrgb (fx v one19))

/-- The bytes of a result pixel in a destination's format and encoding. -/
def encodePx (d : Surf) (p : Px) : List Byte :=
  let q := if bitOf d.enc 5 then p else p.unpremul
  let r := untransfer d.enc q.r
  let g := untransfer d.enc q.g
  let b := untransfer d.enc q.b
  match d.fmt with
  | 1 => leBytes 4 (quantise q.a 8 * 2 ^ 24 + quantise r 8 * 2 ^ 16 + quantise g 8 * 2 ^ 8 + quantise b 8)
  | 2 => leBytes 4 (0xFF00_0000 + quantise r 8 * 2 ^ 16 + quantise g 8 * 2 ^ 8 + quantise b 8)
  | 3 => leBytes 4 (quantise q.a 2 * 2 ^ 30 + quantise r 10 * 2 ^ 20 + quantise g 10 * 2 ^ 10 + quantise b 10)
  | 4 => leBytes 2 (quantise r 5 * 2 ^ 11 + quantise g 6 * 2 ^ 5 + quantise b 5)
  | 5 => leBytes 8 (toHalf q.a * 2 ^ 48 + toHalf r * 2 ^ 32 + toHalf g * 2 ^ 16 + toHalf b)
  | _ => leBytes 1 (quantise q.a 8)

/-! ### Shapes (10 R259) -/

/-- RECT: all of it at thickness 0, else the pixels less than `t` inside its edge. -/
def onBorder (r : Rect) (t : Nat) (x y : Int) : Bool :=
  r.has x y && (decide (t = 0) || decide (x - r.x0 < t) || decide (r.x1 - 1 - x < t) || decide (y - r.y0 < t) || decide (r.y1 - 1 - y < t))

/-- The minor coordinate of a LINE of width 1 after `k` of `n` steps from `a` to `b`: nearest, ties toward `a`. -/
def lineMinor (a b : Int) (k n : Nat) : Int :=
  let d := (b - a).natAbs
  let off : Int := ((2 * d * k + n - 1) / (2 * n) : Nat)
  if a ≤ b then a + off else a - off

/-- LINE: one pixel a step at width 1, else every centre within w / 2 of the segment. -/
def onLine (ax ay bx by_ : Int) (w : Nat) (x y : Int) : Bool :=
  if w = 1 then
    let nx := (bx - ax).natAbs
    let ny := (by_ - ay).natAbs
    if nx = 0 ∧ ny = 0 then decide (x = ax ∧ y = ay)
    else if ny ≤ nx then
      decide (min ax bx ≤ x) && decide (x ≤ max ax bx) && decide (y = lineMinor ay by_ (x - ax).natAbs nx)
    else decide (min ay by_ ≤ y) && decide (y ≤ max ay by_) && decide (x = lineMinor ax bx (y - ay).natAbs ny)
  else
    let dx := bx - ax
    let dy := by_ - ay
    let len := dx * dx + dy * dy
    let t := (x - ax) * dx + (y - ay) * dy
    let near (px py : Int) : Bool := decide (4 * ((x - px) * (x - px) + (y - py) * (y - py)) ≤ (w * w : Nat))
    if t ≤ 0 then near ax ay
    else if len ≤ t then near bx by_
    else
      let cr := (x - ax) * dy - (y - ay) * dx
      decide (4 * (cr * cr) ≤ (w * w : Nat) * len)

/-- The rectangle that holds a line of a width. -/
def lineBounds (ax ay bx by_ : Int) (w : Nat) : Rect :=
  let m : Int := if w = 1 then 0 else ((w + 1) / 2 : Nat)
  { x0 := min ax bx - m, y0 := min ay by_ - m, x1 := max ax bx + m + 1, y1 := max ay by_ + m + 1 }

/-! ### Destination blocks -/

/-- What a blit draws: the rectangle that holds it, the pixels it draws there, the blade clocks of a block (10 R263), the source byte ranges that a block reads, whether
it reads the destination, the source bytes whose sharing leaves a pixel undefined (10 R262), and a pixel's bytes. -/
structure Drawing where
  dst : Surf
  bounds : Rect
  draws : Int → Int → Bool
  cost : Nat
  srcHost : Bool
  reads : Rect → List (Nat × Nat)
  blends : Bool
  shared : List (Nat × Nat)
  pixel : State → Int → Int → List Byte

/-- The byte address of a destination pixel. -/
def Drawing.addr (d : Drawing) (x y : Int) : Nat := d.dst.addr + y.toNat * d.dst.stride + x.toNat * bytesPer d.dst.fmt

/-- The 64 × 32 destination blocks that a rectangle touches, as column and row, row by row (10 R263). -/
def blocksOf (r : Rect) : List (Nat × Nat) :=
  if !r.nonempty then []
  else
    let c0 := r.x0.toNat / 64
    let r0 := r.y0.toNat / 32
    (List.range ((r.y1.toNat - 1) / 32 + 1 - r0)).flatMap (fun j => (List.range ((r.x1.toNat - 1) / 64 + 1 - c0)).map (fun i => (c0 + i, r0 + j)))

def blockRect (b : Nat × Nat) : Rect :=
  { x0 := (64 * b.1 : Nat), y0 := (32 * b.2 : Nat), x1 := (64 * b.1 + 64 : Nat), y1 := (32 * b.2 + 32 : Nat) }

/-- Byte ranges made reachable in order; the first fault stops it. -/
def State.reachList (s : State) (c : Nat) (host write : Bool) : List (Nat × Nat) → State × Bool
  | [] => (s, true)
  | (a, n) :: rest =>
    match s.reachRange c host a n write 2 0 with
    | (t, true) => t.reachList c host write rest
    | (t, false) => (t, false)

/-- Where a byte of a crew's storage lies: an aperture place, or a place of host memory through its page. -/
def State.placeByte (s : State) (c : Nat) (host : Bool) (a : Nat) : Nat :=
  if host then hostKey (c / 128) (((tabFind (s.crew c).xltCache (a / 4096)).getD 0) / 4096 * 4096 + a % 4096)
  else apertureKey c a

/-- A place lies in one of a list of ranges of a crew's storage. -/
def State.placeIn (s : State) (c : Nat) (host : Bool) (q : Nat) (ranges : List (Nat × Nat)) : Bool :=
  ranges.any (fun r => (pagesOf r.1 r.2).any (fun p =>
    let base := s.placeByte c host p
    decide (base ≤ q) && decide (q < base + (min (r.1 + r.2) (p / 4096 * 4096 + 4096) - p))))

/-- One destination block: its reads and writes are reached, then its pixels that pass the clip set in force are stored. Reads see the memory of
`s0`; the pixels masked out keep their value (10 R260, R261). -/
def State.blitBlock (s0 : State) (c mask : Nat) (d : Drawing) (t : State) (blk : Rect) : State × Nat × Bool :=
  let px := ((blk.inter d.bounds).inter d.dst.whole).pixels.filter (fun p => d.draws p.1 p.2 && t.clipPass c mask p.1 p.2)
  if px.isEmpty then (t, 0, true)
  else
    let n := bytesPer d.dst.fmt
    let dests := px.map (fun p => (d.addr p.1 p.2, n))
    match t.reachList c d.srcHost false (d.reads ((blk.inter d.bounds).inter d.dst.whole)) with
    | (u, false) => (u, 0, false)
    | (u, true) =>
      match u.reachList c d.dst.host false (if d.blends then dests else []) with
      | (v, false) => (v, 0, false)
      | (v, true) =>
        match v.reachList c d.dst.host true dests with
        | (w, false) => (w, 0, false)
        | (w, true) =>
          let seen := { w with aperture := s0.aperture, hostMem := s0.hostMem }
          let other := decide (d.srcHost = d.dst.host)
          let done := px.foldl (fun x p =>
            let a := d.addr p.1 p.2
            if other && d.shared ≠ [] && (List.range n).any (fun i => w.placeIn c d.srcHost (w.placeByte c d.dst.host (a + i)) d.shared)
            then x.used.storeCrew c d.dst.host a (leBytes n x.free)
            else x.storeCrew c d.dst.host a (d.pixel seen p.1 p.2)) w
          (done, 1, true)

/-- Blocks in order, to the first fault: the state, the blocks written and whether all were. -/
def State.blitBlocks (s0 : State) (c mask : Nat) (d : Drawing) (s : State) (blocks : List (Nat × Nat)) : State × Nat × Bool :=
  blocks.foldl (fun acc b =>
    if acc.2.2 then
      let (t, k, ok) := s0.blitBlock c mask d acc.1 (blockRect b)
      (t, acc.2.1 + k, ok)
    else acc) (s, 0, true)

/-- The blocks of a drawing in which it draws a pixel of the surface. -/
def Drawing.blocks (d : Drawing) : List (Nat × Nat) :=
  (blocksOf (d.bounds.inter d.dst.whole)).filter (fun b =>
    (((blockRect b).inter d.bounds).inter d.dst.whole).pixels.any (fun p => d.draws p.1 p.2))

/-- A finished blit's event (10 R281). -/
def State.blitPost (s : State) (c : Nat) (faulted : Bool) (cookie blocks : Nat) : State :=
  s.post c (eventWord (if faulted then 0x14 else 0x13) 0xF 0 cookie blocks)

/-- A blit item taken from the queue (10 R254, R255, R257): refused, complete at once with nothing to write, or held until BLIT_DONE. Its share
of the blade time is divided with the others' (06 R162). -/
def State.blitItem (s : State) (c : Nat) (fill : Nat) (d : Except Abort Drawing) : State :=
  let i := s.head c
  let cookie := cookieOf (i.word 0)
  let notify := bitOf (i.word 0) 55
  let t := s.takeHead c
  if !s.crewRight c 4 then t.itemError c 5 cookie
  else
    match d with
    | .error a => t.itemError c a.reason cookie
    | .ok g =>
      if g.blocks = [] then (if notify then t.blitPost c false cookie 0 else t)
      else
        let run : BlitRun := { notify := notify, cookie := cookie, item := i, fill := fill, left := g.blocks, clocks := g.cost, granted := 0, blocks := 0,
                               faulted := false, aperture := t.aperture, hostMem := t.hostMem }
        (t.modCrew c (fun k => { k with holding := .blit run })).shareBlits

/-! ### The six blits -/

/-- The colour of two words, premultiplied. -/
def blitColour (a b : Nat) : Px := (fillPx (colourOf a b)).premul

/-- The destination pixel D (10 R258 step 4): an A8 destination has colour 0. -/
def State.dstPixel (s : State) (c : Nat) (d : Surf) (x y : Int) : Px :=
  (s.withSurf dstLayer c d 0x8000_0000_0000_0000 d.whole).surfaceSample 0 dstLayer x.toNat y.toNat

/-- The byte ranges of the lines of a source rectangle; pairs of YUYV pixels are read whole. -/
def Surf.ranges (d : Surf) (r : Rect) : List (Nat × Nat) :=
  if !r.nonempty then []
  else
    let x0 := if d.fmt = 0x15 then r.x0.toNat / 2 * 2 else r.x0.toNat
    let x1 := if d.fmt = 0x15 then (r.x1.toNat + 1) / 2 * 2 else r.x1.toNat
    let b := if d.fmt = 0x23 then x0 / 8 else lineBytes0 d.fmt x0
    (List.range (r.y1 - r.y0).toNat).map (fun j => (d.addr + (r.y0.toNat + j) * d.stride + b, lineBytes0 d.fmt x1 - b)) ++
    (if d.fmt = 0x21 then [(d.palette, 1024)] else [])

/-- A destination rectangle's size as a source rectangle at a point. -/
def atPoint (p : Nat × Nat) (r : Rect) : Rect :=
  { x0 := p.1, y0 := p.2, x1 := (p.1 : Int) + max 0 (r.x1 - r.x0), y1 := (p.2 : Int) + max 0 (r.y1 - r.y0) }

/-- The part of a source rectangle that a block of the destination reads, unscaled. -/
def blockSource (src dst blk : Rect) : Rect :=
  { x0 := src.x0 + (blk.x0 - dst.x0), y0 := src.y0 + (blk.y0 - dst.y0), x1 := src.x0 + (blk.x1 - dst.x0), y1 := src.y0 + (blk.y1 - dst.y0) }

/-- Even bounds in the subsampled direction of a source (04 R75). -/
def evenOk (d : Surf) (r : Rect) : Bool := !subX d.fmt || (decide (r.x0 % 2 = 0) && decide (r.x1 % 2 = 0))

/-- FILL (10 R258): the colour without blending. -/
def State.fillDrawing (s : State) (c : Nat) (i : CqItem) : Except Abort Drawing :=
  let d := surfOf (i.word 1) (i.word 2)
  let col := colourOf (i.word 4) (i.word 5)
  if !fillOk col then .error .valueRange
  else if !s.surfOk c dstFormats d then .error .valueConflict
  else .ok { dst := d, bounds := rect14 (i.word 3), draws := fun _ _ => true, cost := 256, srcHost := false, reads := fun _ => [],
             blends := false, shared := [], pixel := fun _ _ _ => encodePx d (blitColour (i.word 4) (i.word 5)) }

/-- COPY (10 R257, R258): the source bytes unchanged. -/
def State.copyDrawing (s : State) (c : Nat) (i : CqItem) : Except Abort Drawing :=
  let d := surfOf (i.word 1) (i.word 2)
  let q := surfOf (i.word 3) (i.word 4)
  let r := rect14 (i.word 6)
  let src := atPoint (point14 (i.word 5)) r
  if !s.surfOk c dstFormats d || !s.surfOk c srcFormats q || d.fmt != q.fmt || !src.inside q.whole then .error .valueConflict
  else .ok { dst := d, bounds := r, draws := fun _ _ => true, cost := 512, srcHost := q.host, reads := fun b => q.ranges (blockSource src r b),
             blends := false, shared := if d.same q then [] else q.ranges src,
             pixel := fun t x y => (List.range (bytesPer d.fmt)).map (fun k =>
               t.crewByte c q.host (q.addr + (src.y0 + (y - r.y0)).toNat * q.stride + (src.x0 + (x - r.x0)).toNat * bytesPer d.fmt + k)) }

/-- The fill of an A8 source, whose colour the manual does not state: free colour components. -/
def freeFill (v : Nat) : Nat :=
  0x8000 * 2 ^ 48 + v % 0x8001 * 2 ^ 32 + v / 0x1_0000 % 0x8001 * 2 ^ 16 + v / 0x1_0000_0000 % 0x8001

/-- BLEND_COPY (10 R257, R258, R262): scaled where the rectangles differ in size. Pixels of a source are those of its rectangle, with the nearest
inside sample standing in beyond (05 R109). `free` colours an A8 source. -/
def State.blendCopyDrawing (s : State) (c : Nat) (i : CqItem) (free : Nat) : Except Abort Drawing :=
  let d := surfOf (i.word 1) (i.word 2)
  let q := surfOf (i.word 3) (i.word 4)
  let src := rect14 (i.word 5)
  let r := rect14 (i.word 6)
  let cw := (src.x1 - src.x0).toNat
  let ch := (src.y1 - src.y0).toNat
  let dw := (r.x1 - r.x0).toNat
  let dh := (r.y1 - r.y0).toNat
  let scales := !(decide (cw = dw) && decide (ch = dh))
  let g := i.word 7
  let op := bits (i.word 0) 51 48
  if 6 < op ∨ one19 < g then .error .valueRange
  else if !s.surfOk c dstFormats d || !s.surfOk c srcFormats q || !src.inside q.whole || !evenOk q src then .error .valueConflict
  else if scales && !(decide (cw ≤ 16 * dw) && decide (dw ≤ 16 * cw) && decide (ch ≤ 16 * dh) && decide (dh ≤ 16 * ch)) then
    .error .valueConflict
  else if scales && d.same q && (src.inter r).nonempty then .error .valueConflict
  else
    let co := defaultCoefs dw cw dh ch
    let fill := if q.fmt = 0x22 then freeFill free else 0
    let sample (t : State) : Nat → Nat → Px := fun x y =>
      (t.withSurf srcLayer c q fill src).surfaceSample 0 srcLayer (src.x0.toNat + x) (src.y0.toNat + y)
    let at_ (t : State) (x y : Int) : Px :=
      if scales then scaleAt (sample t) co cw ch dw dh (x - r.x0).toNat (y - r.y0).toNat
      else sample t (x - r.x0).toNat (y - r.y0).toNat
    let span (b : Rect) : Rect :=
      if scales then
        let (x0, x1) := readSpan 0 cw dw (b.x0 - r.x0).toNat (b.x1 - r.x0).toNat
        let (y0, y1) := readSpan 1 ch dh (b.y0 - r.y0).toNat (b.y1 - r.y0).toNat
        { x0 := src.x0 + x0, y0 := src.y0 + y0, x1 := src.x0 + x1, y1 := src.y0 + y1 }
      else blockSource src r b
    .ok { dst := d, bounds := r, draws := fun _ _ => true, cost := if scales then 2048 else 1024, srcHost := q.host,
          reads := fun b => q.ranges (span b), blends := true,
          shared := if d.same q then [] else q.ranges src,
          pixel := fun t x y => encodePx d (blend op ((at_ t x y).scale g) (t.dstPixel c d x y)) }

/-- RECT (10 R259). -/
def State.rectDrawing (s : State) (c : Nat) (i : CqItem) : Except Abort Drawing :=
  let d := surfOf (i.word 1) (i.word 2)
  let r := rect14 (i.word 3)
  let op := bits (i.word 0) 51 48
  if 6 < op ∨ !fillOk (colourOf (i.word 4) (i.word 5)) then .error .valueRange
  else if !s.surfOk c dstFormats d then .error .valueConflict
  else .ok { dst := d, bounds := r, draws := onBorder r (i.word 6), cost := 512, srcHost := false, reads := fun _ => [], blends := true, shared := [],
             pixel := fun t x y => encodePx d (blend op (blitColour (i.word 4) (i.word 5)) (t.dstPixel c d x y)) }

/-- LINE (10 R259). -/
def State.lineDrawing (s : State) (c : Nat) (i : CqItem) : Except Abort Drawing :=
  let d := surfOf (i.word 1) (i.word 2)
  let e := rect14 (i.word 3)
  let w := i.word 6
  let op := bits (i.word 0) 51 48
  if 6 < op ∨ !fillOk (colourOf (i.word 4) (i.word 5)) ∨ !within 1 64 w then .error .valueRange
  else if !s.surfOk c dstFormats d then .error .valueConflict
  else .ok { dst := d, bounds := lineBounds e.x0 e.y0 e.x1 e.y1 w, draws := onLine e.x0 e.y0 e.x1 e.y1 w, cost := 512, srcHost := false,
             reads := fun _ => [], blends := true, shared := [],
             pixel := fun t x y => encodePx d (blend op (blitColour (i.word 4) (i.word 5)) (t.dstPixel c d x y)) }

/-- GLYPH (10 R259): the colour's alpha times the mask sample. -/
def State.glyphDrawing (s : State) (c : Nat) (i : CqItem) : Except Abort Drawing :=
  let d := surfOf (i.word 1) (i.word 2)
  let q := surfOf (i.word 3) (i.word 4)
  let r := rect14 (i.word 6)
  let src := atPoint (point14 (i.word 5)) r
  let op := bits (i.word 0) 51 48
  if 6 < op ∨ !fillOk (colourOf (i.word 7) (i.word 8)) then .error .valueRange
  else if !s.surfOk c dstFormats d || !s.surfOk c maskFormats q || !src.inside q.whole then .error .valueConflict
  else .ok { dst := d, bounds := r, draws := fun _ _ => true, cost := 768, srcHost := q.host, reads := fun b => q.ranges (blockSource src r b),
             blends := true, shared := q.ranges src,
             pixel := fun t x y => encodePx d (blend op
               ((t.withSurf srcLayer c q (colourOf (i.word 7) (i.word 8)) q.whole).surfaceSample 0 srcLayer
                 (src.x0 + (x - r.x0)).toNat (src.y0 + (y - r.y0)).toNat) (t.dstPixel c d x y)) }

/-! ### Running a blit -/

/-- What a blit item draws; `free` colours an A8 source of BLEND_COPY. -/
def State.drawingOf (s : State) (c : Nat) (i : CqItem) (free : Nat) : Except Abort Drawing :=
  match opOf (i.word 0) with
  | 0x10 => s.fillDrawing c i
  | 0x11 => s.copyDrawing c i
  | 0x12 => s.blendCopyDrawing c i free
  | 0x13 => s.rectDrawing c i
  | 0x14 => s.lineDrawing c i
  | _ => s.glyphDrawing c i

/-- A blit taken at the head of a queue; a BLEND_COPY from A8 uses up the free colour it draws with. -/
def State.takeBlit (s : State) (c : Nat) : State :=
  let i := s.head c
  let t := if opOf (i.word 0) = 0x12 ∧ (surfOf (i.word 3) (i.word 4)).fmt = 0x22 then s.used else s
  t.blitItem c s.free (s.drawingOf c i s.free)

/-- The next `n` blocks of a crew's blit are written, masked with the clip set of now; a fault ends them (10 R261, R264). -/
def State.blitWrite (s : State) (c n : Nat) : State :=
  match s.blitOf c with
  | none => s
  | some r =>
    match s.drawingOf c r.item r.fill with
    | .error _ => s
    | .ok d =>
      let seen := { s with aperture := r.aperture, hostMem := r.hostMem }
      let (t, k, ok) := seen.blitBlocks c (bits (r.item.word 0) 47 32) d s (r.left.take n)
      t.modBlit c (fun q => { q with left := if ok then q.left.drop n else [], granted := if ok then q.granted - n else 0,
                                     blocks := q.blocks + k, faulted := q.faulted || !ok })

/-- A crew's clip objects are written while its blit runs: some of its granted blocks, any number of them, have begun their writes before
(10 R261). -/
def State.clipChange (s : State) (c : Nat) : State :=
  match s.blitOf c with
  | none => s
  | some r => s.used.blitWrite c (s.free % (r.granted + 1))

/-- A blit whose blocks all have their blade time (06 R162). -/
def State.blitReady (s : State) (c : Nat) : Bool :=
  match s.blitOf c with
  | none => false
  | some r => decide (r.left.length ≤ r.granted) || !s.heatsRun

/-- The last write reaches memory, or the blit is abandoned: its event, and the next item may run (10 R255, R264). -/
def State.blitDone (s : State) (c : Nat) : State :=
  match s.blitOf c with
  | none => s
  | some r0 =>
    let t := s.blitWrite c r0.left.length
    match t.blitOf c with
    | none => t
    | some r =>
      let u := t.modCrew c (fun k => { k with holding := .idle })
      if r.faulted || r.notify then u.blitPost c r.faulted r.cookie r.blocks else u

end Sys2Proof.Machine
end

