-- ==== Sys2Proof/Machine/Crewing.lean ====
section
/-! DEFINITION. Layers given, freed and staged; crews disabled; rights; mover owners (02 R21 to R24, R27, 04 R73, R76 to R79, R95,
10 R265, R283). -/

namespace Sys2Proof.Machine

open Sys2Proof

/-- Layers a crew uses (02 R25). -/
def State.layersUsed (s : State) (c : Nat) : Nat := (s.layersOf c).length

/-- The requester is the layer's owner or a port manager of its pool (02 R21, 04 R76). -/
def State.ownsLayer (s : State) (req l : Nat) : Bool :=
  match (s.layer l).owner with
  | some c => decide (c = req) || portManager req (l / 512)
  | none => false

/-- A free layer given to a crew: every RWC object at its default (04 R76). -/
def State.giveLayer (s : State) (l c : Nat) : State :=
  (s.dropObjs (layerIx l) (layerIx l + 1)).modLayer l (fun _ => { blankLayer with owner := some c })

/-- A layer freed, or why not (04 R77). -/
def State.unassign (s : State) (req l : Nat) : State × Option Abort :=
  let manager := portManager req (l / 512)
  match (s.layer l).owner with
  | none => (s, if manager then none else some .noRight)
  | some c =>
    if !manager && c != req then (s, some .noRight)
    else if s.lyr l 6 ≠ 0 then (s, some .valueConflict)
    else (s.freeLayer l, none)

/-- A write of layer.assign (04 R76, R77). -/
def State.assign (s : State) (req l v : Nat) : State × Option Abort :=
  if v = 0xFFFF then s.unassign req l
  else if 511 < v then (s, some .valueRange)
  else if !portManager req (l / 512) then (s, some .noRight)
  else if (s.layer l).owner.isSome then (s, some .valueConflict)
  else if v / 128 ≠ l / 512 ∨ !s.crewEnabled v then (s, some .valueConflict)
  else if !s.crewRight v 0 then (s, some .noRight)
  else if s.num (crewIx v 1) 2 ≤ s.layersUsed v then (s, some .quota)
  else (s.giveLayer l v, none)

/-- The lowest free layer of a crew's port pool. -/
def State.freeLayerOf (s : State) (c : Nat) : Option Nat :=
  ((List.range 512).map (fun i => c / 128 * 512 + i)).find? (fun l => (s.layer l).owner.isNone)

/-- LAYER_CREATE carried out (04 R76): LAYER_CREATED with the layer, or with a reason. -/
def State.createLayer (s : State) (c cookie : Nat) : State :=
  let no (a : Abort) : State := s.post c (eventWord 8 0xF a.reason cookie 0xFFFF_FFFF)
  if !s.crewRight c 0 then no .noRight
  else if s.num (crewIx c 1) 2 ≤ s.layersUsed c then no .quota
  else
    match s.freeLayerOf c with
    | some l => (s.giveLayer l c).post c (eventWord 8 0xF 0 cookie l)
    | none => no .quota

/-- A number fits its object's type (02 R29). -/
def Ty.fits (t : Ty) (v : Nat) : Bool :=
  match t with
  | .bool => decide (v ≤ 1)
  | .u20 => decide (v < 2 ^ 20)
  | .q19 => decide (v < 2 ^ 20)
  | _ => decide (v < 256 ^ t.size)

/-- What a staged write to a layer object is refused with (02 R30, 04 R78, R79, R95). -/
def State.layerWriteError (s : State) (req l sub v : Nat) : Option Abort :=
  match objRow (layerIx l) sub with
  | none => some .noSubindex
  | some r =>
    if r.access = .ro then some .readOnly
    else if !s.ownsLayer req l then some .noRight
    else if !r.ty.fits v || !r.ok v then some .valueRange
    else if sub = 2 ∧ !s.crewLane ((s.layer l).owner.getD 0) v then some .noRight
    else if sub = 3 ∧ v = 0 ∧ !s.crewRight req 2 then some .noRight
    else if sub = 6 ∧ v = 2 ∧ !s.crewRight req 1 then some .noRight
    else if sub = 0x1B ∧ v = 1 ∧ !s.crewRight req 6 then some .noRight
    else none

/-- A write to a layer object, staged but for layer.assign, which acts at once. -/
def State.stageLayer (s : State) (req l sub v : Nat) : State × Option Abort :=
  if sub = 0x1F then (if v < 2 ^ 16 then s.assign req l v else (s, some .valueRange))
  else
    match s.layerWriteError req l sub v with
    | some a => (s, some a)
    | none => (s.stage req (objKey (layerIx l) sub) (.num v), none)

/-- The writes of a LAYER_SET item in order, up to the first refusal (04 R95). -/
def State.layerSet (s : State) (c l : Nat) : List (Nat × Nat) → State
  | [] => s
  | (sub, v) :: rest =>
    match s.stageLayer c l sub v with
    | (t, none) => t.layerSet c l rest
    | (t, some a) => t.itemError c a.reason 0

/-! ### Disabling a crew (02 R23, R24) -/

/-- The command queue emptied: a FENCE_WAIT in progress ends (11 R299). -/
def State.flushCq (s : State) (c : Nat) : State :=
  s.modCrew c (fun k => { k with cq := [], inItem := false,
                                 holding := match k.holding with | .fenceWait _ _ _ _ _ => .idle | h => h })

/-- A pending commit discarded: counted as refused, complete, its signals gone (02 R23, 04 R97). -/
def State.discardCommit (s : State) (k : Commit) : State :=
  ((({ s with commits := s.commits.filter (fun x => decide (x.seq ≠ k.seq)) }).count (crewCount k.crew 0x18) 1).completed k.crew k.seq).dropSignals
    k.crew k.seq

/-- The crew's layers leave: at once on a lane that is off, else at the next catch of their lane (02 R23 step 3). -/
def State.leaveLayers (s : State) (c : Nat) : State :=
  (s.layersOf c).foldl (fun t l =>
    if t.laneOn (t.lyr l 2) then t.modLayer l (fun k => { k with removing := true }) else t.freeLayer l) s

/-- The crew's backing goes (04 R73). -/
def State.dropBacking (s : State) (c : Nat) : State :=
  ({ s with aperture := s.aperture.filter (fun p => !(decide (apertureKey c 0 ≤ p.1) && decide (p.1 < apertureKey (c + 1) 0))) }).modCrew c
    (fun k => { k with granules := [] })

/-- The mover channels a crew owns (10 R265). -/
def State.channelsOf (s : State) (c : Nat) : List Nat := (List.range 64).filter (fun k => decide (s.num (0x2200 + k) 1 = c))

/-- The steps of 02 R23 for a crew, whose blit in progress has made its writes before its backing goes (11 R299, notes/assumptions/69), and the abort of its mover channels (10 R265). -/
def State.crewSteps (s : State) (c : Nat) : State :=
  let s0 := s.blitWrite c (((s.blitOf c).map (fun r => r.left.length)).getD 0)
  let s1 := (s0.flushCq c).modCrew c (fun k =>
    { k with eq := [], accepting := [], holding := match k.holding with | .commit _ => .idle | h => h })
  let s2 := (s1.commits.filter (fun k => decide (k.crew = c))).foldl State.discardCommit s1
  let s3 := (s2.modCrew c (fun k => { k with staged := [], confirm := none })).leaveLayers c
  (s.channelsOf c).foldl State.moverAbort (s3.dropBacking c)

/-- A crew disabled (02 R23). -/
def State.disableCrew (s : State) (c : Nat) : State := (s.setNum (crewIx c 0) 1 0).crewSteps c

/-- A function-level reset (02 R23, R24, 11 R289): a manager crew is enabled again at once. -/
def State.functionReset (s : State) (c : Nat) : State :=
  if c % 128 = 0 then ((s.disableCrew c).setNum (crewIx c 0) 1 1)
  else if s.crewEnabled c then s.disableCrew c else s

/-- What a write of crew.enable is refused with (02 R24). -/
def enableError (req c v : Nat) : Option Abort :=
  if c = 0 ∧ v = 0 then some .valueConflict
  else if c % 128 = 0 ∧ c ≠ 0 ∧ req ≠ 0 then some .noRight
  else none

/-- crew.enable written. -/
def State.writeEnable (s : State) (c v : Nat) : State :=
  if v = 1 then s.setNum (crewIx c 0) 1 1
  else if s.crewEnabled c then s.disableCrew c else s

/-- What a write of crew.rights is refused with (02 R27). -/
def State.rightsError (s : State) (req c v : Nat) : Option Abort :=
  if 0x100 ≤ v then some .valueRange
  else
    let granted := v &&& (0xFF ^^^ s.num (crewIx c 1) 5 % 0x100)
    if (granted &&& s.num (crewIx req 1) 5 ≠ granted) ∨ (bitOf granted 2 ∧ req ≠ 0) then some .noRight else none

/-- What a write of mover.owner is refused with (10 R283). -/
def State.ownerError (s : State) (k v : Nat) : Option Abort :=
  if (s.channel k).managed.isSome ∨ (s.channel k).mode ≠ .idle then some .busy
  else if v = 0xFFFF then none
  else if !s.crewRight v 7 then some .valueConflict
  else if 8 ≤ ((s.channelsOf v).filter (· != k)).length then some .quota
  else none

end Sys2Proof.Machine
end

