-- ==== Sys2Proof/Machine/Queue.lean ====
section
/-! DEFINITION. Command and completion queues, their items but for blits, programs, pins and SMU requests, fences that crews wait on
and signal, doorbells (04 R84, R90 to R96, 11 R295 to R303). -/

namespace Sys2Proof.Machine

open Sys2Proof

/-! ### The command queue (11 R295 to R299) -/

/-- Words in a crew's command queue. -/
def Crew.cqWords (k : Crew) : Nat := (k.cq.map (fun i => i.words.length)).sum

/-- The open item, the last of the queue, marked malformed. -/
def Crew.spoil (k : Crew) : Crew :=
  { k with cq := k.cq.dropLast ++ (k.cq.getLast?.map (fun i => { i with malformed := true })).toList, inItem := false }

/-- A word added to the open item; END closes it. -/
def Crew.extend (k : Crew) (w : Nat) (last : Bool) : Crew :=
  { k with cq := k.cq.dropLast ++ (k.cq.getLast?.map (fun i => { i with words := i.words ++ [bare w], closed := last })).toList,
           inItem := !last }

/-- CQ_DROPS + 1 and CQ_RESYNC_DROPS + 1. -/
def State.cqDrop (s : State) (c : Nat) : State := (s.count (crewCount c 0) 1).raiseCrew c 3
def State.cqResync (s : State) (c : Nat) : State := (s.count (crewCount c 8) 1).raiseCrew c 4

/-- The table of 11 R296 for the state expecting START. -/
def State.pushOutside (s : State) (c w : Nat) : State :=
  if 128 ≤ (s.crew c).cqWords then s.cqDrop c
  else if tagOf w = 2 ∨ tagOf w = 3 then
    s.modCrew c (fun k => { k with cq := k.cq ++ [{ words := [bare w], closed := decide (tagOf w = 3), malformed := false }],
                                   inItem := decide (tagOf w = 2) })
  else s.cqResync c

/-- The table of 11 R296 for the state in item. -/
def State.pushInside (s : State) (c w : Nat) : State :=
  if tagOf w = 2 ∨ tagOf w = 3 then (s.modCrew c Crew.spoil).pushOutside c w
  else if 128 ≤ (s.crew c).cqWords then (s.modCrew c Crew.spoil).cqDrop c
  else if 16 ≤ (((s.crew c).cq.getLast?).map (fun i => i.words.length)).getD 0 then (s.modCrew c Crew.spoil).cqResync c
  else s.modCrew c (fun k => k.extend w (decide (tagOf w = 1)))

/-- One pushed word (11 R295, R296); a disabled crew's is dropped and counted (02 R22). -/
def State.cqPush (s : State) (c hi : Nat) : State :=
  let w := hi * 2 ^ 32 + (s.crew c).pushLo
  if !s.crewEnabled c then s.cqDrop c
  else if (s.crew c).inItem then s.pushInside c w
  else s.pushOutside c w

/-- The registers of a crew page can be reached (03 R67). -/
def State.pageOn (s : State) (c : Nat) : Bool := s.awake && s.domainOn (86 + c / 128)

/-! ### The completion queue (11 R300 to R302) -/

/-- A read of EQ_POP_LO: the oldest item, or a wait. -/
def State.eqPop (s : State) (c : Nat) : State :=
  match (s.crew c).eq with
  | w :: rest => (s.modCrew c (fun k => { k with eq := rest, eqPopHi := w / 2 ^ 32 })).send (.readData c (w % 2 ^ 32))
  | [] => s.modCrew c (fun k => { k with popSince := some s.now })

/-- A pop that has waited 40 µs reads the empty word. -/
def State.eqPopEnd (s : State) (c : Nat) : State :=
  (s.modCrew c (fun k => { k with popSince := none, eqPopHi := 0 })).send (.readData c 0x000F_FFFF)

def State.eqPopDue (s : State) (c : Nat) : Bool :=
  (s.crew c).popSince.any (fun t => decide (t + 40_000 ≤ s.now))

/-- EQ_ARM (11 R302). -/
def State.eqArm (s : State) (c v : Nat) : State :=
  if bitOf v 0 then (s.modCrew c (fun k => { k with eqArmed := true })).checkArm c else s

/-! ### Doorbells (11 R303) -/

def State.doorbell (s : State) (c : Nat) : State :=
  if s.reg ((Block.host (c / 128)).base + 8) 0 % 128 = c % 128 then s.pulse (16 + c / 128) else s.raiseCrew c 5

/-! ### COMMIT (04 R84, R95) -/

/-- The fence that an item's words 1 to 3 name. -/
def CqItem.fence (i : CqItem) : Fence :=
  { host := fenceHost (i.word 1), addr := fenceAddr (i.word 1), target := bits (i.word 2) 31 0 + bits (i.word 3) 31 0 * 2 ^ 32,
    namedAt := 0, met := false }

/-- A COMMIT item is taken: the cox checks it, and it holds the crew's later items (04 R95). A fence address outside R90 is
refused. -/
def State.commitItem (s : State) (c : Nat) : State :=
  let i := s.head c
  let t := s.takeHead c
  let mask := bits (i.word 0) 55 48
  let fenced := bitOf (i.word 0) 47
  let cookie := cookieOf (i.word 0)
  if fenced && !fenceWordOk (i.word 1) then
    (((t.refuseCommit c none).post c (eventWord 7 (laneField mask) Abort.valueRange.reason cookie 0))).modCrew c
      (fun k => { k with latest := none })
  else
    let r : CommitReq := { mask := mask, linked := decide (2 ≤ (lanesIn mask).length), fences := if fenced then [i.fence] else [],
                           cookie := cookie, register := none }
    t.modCrew c (fun k => { k with holding := .commit r, accepting := k.accepting ++ [r] })

/-- A register commit's outcome (07 R199): LANE.COMMIT_RESULT and COMMIT_ABORT of its lane are written, commit_done is raised. -/
def State.registerOutcome (s : State) (n : Nat) (o : Except Abort Nat) : State :=
  (match o with
   | .ok q => s.modLane n (fun l => { l with commitBusy := false, commitResult := q, commitAbort := 0 })
   | .error a => s.modLane n (fun l => { l with commitBusy := false, commitResult := 0, commitAbort := a.code })).raise (laneStatus n) [13]

/-- The cox completes its checks of a crew's oldest commit request (04 R84). -/
def State.acceptNext (s : State) (c : Nat) : State :=
  match (s.crew c).accepting with
  | [] => s
  | r :: rest =>
    let t := s.modCrew c (fun k => { k with accepting := rest })
    let named : CommitReq := { r with fences := r.fences.map (fun f => { f with namedAt := s.now }) }
    match r.register with
    | some n =>
      if r.linked ∧ (0x100 ≤ r.mask ∨ r.mask.testBit n = false) then (t.refuseCommit c none).registerOutcome n (.error .valueRange)
      else if r.linked ∧ (lanesIn r.mask).length < 2 then (t.refuseCommit c none).registerOutcome n (.error .valueConflict)
      else
        let (u, o) := t.acceptCommit c named false
        u.registerOutcome n o
    | none =>
      let (u, o) := (t.modCrew c (fun k => { k with holding := .idle })).acceptCommit c named true
      u.modCrew c (fun k => { k with latest := match o with | .ok q => some q | .error _ => none })

/-! ### Fences that items wait on and signal (04 R95) -/

/-- FENCE_WAIT: refused, met at once, or held (04 R95). -/
def State.fenceWait (s : State) (c : Nat) : State :=
  let i := s.head c
  let t := s.takeHead c
  let ms := bits (i.word 0) 13 0
  let f := i.fence
  if !within 1 10_000 ms || !fenceWordOk (i.word 1) then t.itemError c Abort.valueRange.reason (cookieOf (i.word 0))
  else
    match t.fenceValue c f.host f.addr with
    | (u, v) =>
      if v.any (fun x => decide (f.target ≤ x)) then u
      else u.modCrew c (fun k =>
        { k with holding := .fenceWait f.host f.addr f.target (s.now + ms * 1_000_000) (cookieOf (i.word 0)) })

/-- The fence of a FENCE_WAIT read again. -/
def State.fencePoll (s : State) (c : Nat) : State :=
  match (s.crew c).holding with
  | .fenceWait host addr target _ _ =>
    (match s.fenceValue c host addr with
     | (u, v) => if v.any (fun x => decide (target ≤ x)) then u.modCrew c (fun k => { k with holding := .idle }) else u)
  | _ => s

def State.waitsFence (s : State) (c : Nat) : Bool :=
  s.running && (match (s.crew c).holding with | .fenceWait _ _ _ _ _ => true | _ => false)

def State.fenceDue (s : State) (c : Nat) : Bool :=
  s.running && (match (s.crew c).holding with | .fenceWait _ _ _ deadline _ => decide (deadline ≤ s.now) | _ => false)

/-- The timeout of a FENCE_WAIT passes: FENCE_WAIT_EXPIRED, and the next item may run. -/
def State.fenceTimeout (s : State) (c : Nat) : State :=
  match (s.crew c).holding with
  | .fenceWait _ _ _ _ cookie => (s.modCrew c (fun k => { k with holding := .idle })).post c (eventWord 9 0xF 0 cookie 0)
  | _ => s

/-- The crew's latest commit is still pending. -/
def State.isPending (s : State) (q : Nat) : Bool := s.commits.any (fun k => decide (k.seq = q))

/-- A commit has been applied and waits to be presented on some lane. -/
def State.isAwaited (s : State) (q : Nat) : Bool :=
  (List.range 8).any (fun n => (s.lane n).awaiting.any (fun a => decide (a.1 = q)))

/-- FENCE_SIGNAL (04 R95): written now, or kept for the crew's latest COMMIT; a condition already met is met at once. -/
def State.fenceSignal (s : State) (c : Nat) : State :=
  let i := s.head c
  let t := s.takeHead c
  let kind := bits (i.word 0) 49 48
  let f := i.fence
  if kind = 3 ∨ !fenceWordOk (i.word 1) then t.itemError c Abort.valueRange.reason (cookieOf (i.word 0))
  else if kind = 0 then t.fenceWrite c f.host f.addr f.target
  else
    match (t.crew c).latest with
    | none => t
    | some q =>
      if t.isPending q || (decide (kind = 2) && t.isAwaited q) then
        t.modCrew c (fun k => { k with signals := k.signals ++ [{ seq := q, onPresented := decide (kind = 2), host := f.host,
                                                                  addr := f.addr, value := f.target }] })
      else t.fenceWrite c f.host f.addr f.target

/-! ### The remaining items -/

/-- A malformed item at the head: discarded with ITEM_ERROR (04 R95, 11 R296). -/
def State.badHead (s : State) (c : Nat) : Bool := (s.headItem c).any (fun i => !i.wellFormed)

def State.dropBadHead (s : State) (c : Nat) : State :=
  let w := (s.head c).word 0
  (s.takeHead c).itemError c 8 (if opOf w = 2 then 0 else cookieOf w)

def State.layerSetItem (s : State) (c : Nat) : State :=
  let i := s.head c
  (s.takeHead c).layerSet c (layerField (i.word 0)) ((layerWrites (i.words.drop 1)).getD [])

def State.layerCreateItem (s : State) (c : Nat) : State := (s.takeHead c).createLayer c (cookieOf ((s.head c).word 0))

def State.layerDestroyItem (s : State) (c : Nat) : State :=
  let w := (s.head c).word 0
  match (s.takeHead c).unassign c (layerField w) with
  | (t, none) => t
  | (t, some a) => t.itemError c a.reason (cookieOf w)

end Sys2Proof.Machine
end

