-- ==== Sys2Proof/Machine/Resets.lean ====
section
/-! DEFINITION. Resets and the loss of supplies: what each leaves (12 R344, 13 R362, 14 R373, R380, R385, 15 R406, R412). -/

namespace Sys2Proof.Machine

open Sys2Proof

/-- The latched sources of class C3. -/
def State.heldC3 (s : State) : Nat :=
  (List.range 128).foldl (fun w n => if s.umpire.latched.testBit n && decide (s.classOf n = 3) then w ||| 2 ^ n else w) 0

/-- The umpire while a reset of PD[90] is in force (12 R336: nFAULT low for what is latched): `held` sources stay latched at class C3; the C3 record lies in the standby island (12 R332,
R344, notes/assumptions/26). -/
def Umpire.afterReset (u : Umpire) (held : Nat) : Umpire :=
  { blankUmpire with
    latched := held
    nfaultLow := decide (held ≠ 0)
    class48 := if held.testBit 48 then 3 else 2
    classes := ((List.range 128).filter held.testBit).map (fun n => (n, 3))
    c3 := u.c3 }

/-- The security block after a reset: fuses and boot NOR stay, LOCK lasts until VDD_CORE is removed, the debug failure count and
its delay lie in the standby island (14 R373, R374, R380, R385). -/
def Sec.afterReset (c : Sec) : Sec :=
  { blankSec with
    fuses := c.fuses
    blob := c.blob
    lock := c.lock
    debugFails := c.debugFails
    withheld := c.withheld
    withheldUntil := c.withheldUntil
    policyMax := c.policyMax }

/-- The SMU keeps running through a reset of the device, but nothing places its indication (13 R350, 15 R406). -/
def Smu.unplaced (u : Smu) : Smu := { u with indPlaced := false, posted := none, bound := none, carriedFrom := none }

/-- Every domain but the standby island and PD[95] is reset (15 R406). Sealed parameters lie in the SMU, host memory outside the
device. -/
def State.resetDomains (s : State) (cause : Nat) : State :=
  { State.reset with
    pending := s.pending
    now := s.now
    freeCount := s.freeCount
    out := s.out
    hostMem := s.hostMem
    objs := s.objs.filter (fun p => within 0x7800 0x78FF (p.1 / 256))
    smu := s.smu.unplaced
    sec := s.sec.afterReset
    umpire := s.umpire.afterReset s.heldC3
    clocks := { blankClocks with xtal32Failed := s.clocks.xtal32Failed }
    modes := { blankModes with
      mode := if s.modes.mode = .factory then .factory else .launch
      inReset := true
      causePending := s.modes.causePending ||| cause
      vstby := s.modes.vstby
      vstbyAt := s.modes.vstbyAt
      wakePinAt := s.modes.wakePinAt
      pulse0At := s.modes.pulse0At
      rcWindow := s.modes.rcWindow
      seconds := s.modes.seconds
      standbySince := s.modes.standbySince
      wakePulses := s.modes.wakePulses
      counting := s.modes.counting
      monotonic := s.modes.monotonic } }

/-- The SMU without power: what its SMU_SPI memory holds stays (13 R362, R365, R367). -/
def Smu.powerOff (u : Smu) : Smu :=
  { blankSmu with
    audit := u.audit
    eventCounter := u.eventCounter
    slots := u.slots
    fwHash := u.fwHash
    sealOpen := u.sealOpen
    sealSince := u.sealSince
    needsVerification := u.needsVerification
    lastAuth := u.lastAuth }

/-- The switched supplies are gone: every domain but the standby island has lost its state, C3 bits are cleared and LOCK ends
(12 R344, 14 R385). -/
def State.unpower (s : State) (mode : Mode) : State :=
  let t := s.resetDomains 0
  { t with
    umpire := t.umpire.afterReset 0
    sec := { t.sec with lock := false, policyMax := 0 }
    smu := s.smu.powerOff
    modes := { t.modes with mode := mode, inReset := false, causePending := 0, pwrReq := false }
    power := { t.power with on := 0 } }

/-- The standby island without VSTBY (15 R412). -/
def State.islandLost (s : State) : State :=
  { s with
    modes := { s.modes with vstby := false, monotonic := 0, seconds := 0, wakePulses := 0, counting := false }
    umpire := { s.umpire with c3 := none }
    sec := { s.sec with debugFails := 0, withheld := false, withheldUntil := 0 } }

end Sys2Proof.Machine
end

