-- ==== Sys2Proof/Machine/Security.lean ====
section
/-! DEFINITION. The security block: alarms and policies, debug unlock, revocation, provisioning, the check of boot images and what
the accepted one configures (14 R373 to R391, 15 R396). -/

namespace Sys2Proof.Machine

open Sys2Proof

/-! ### State words (14 R386, R391) -/

/-- Key RAM counts as erased (14 R386). -/
def Sec.keysErased (c : Sec) : Bool := c.erased || (c.noKeys && decide (0 < c.fuses.epoch))

/-- SEC.STATE. -/
def Sec.stateWord (c : Sec) : Nat :=
  b2n c.lock + 2 * b2n c.erased + 4 * b2n c.debugOpen + 8 * b2n c.fuses.keyKill + 16 * b2n c.noKeys + c.debugFails % 256 * 2 ^ 8 +
  c.policyMax * 2 ^ 16

/-- SEC.FUSES. -/
def Sec.fusesWord (c : Sec) : Nat :=
  (List.range 4).foldl (fun w k => w + (if (tabFind c.fuses.bootHashes k).isSome then 2 ^ k else 0) +
    (if c.fuses.revoked.testBit k then 2 ^ (4 + k) else 0)) 0 +
  2 ^ 8 * b2n c.fuses.debugHash.isSome + 2 ^ 9 * b2n c.fuses.fieldLock + 2 ^ 10 * b2n c.fuses.keyKill +
  2 ^ 16 * (2 ^ c.fuses.epoch - 1)

/-! ### Alarms (14 R381 to R388) -/

/-- The policy and class of an alarm in SEC.ALARM_POLICY (14 R391). -/
def policyOf (word a : Nat) : Nat := bits word (3 * a + 1) (3 * a)
def alarmClass (word a : Nat) : Nat := if bitOf word (3 * a + 2) then 3 else 2

/-- Zeroisation: key RAM is empty and the next epoch fuse is blown (14 R385). -/
def State.eraseKeys (s : State) (permanent : Bool) : State :=
  s.modSec (fun c => { c with keys := none, erased := true,
                              fuses := { c.fuses with epoch := min 16 (c.fuses.epoch + 1),
                                                      keyKill := c.fuses.keyKill || permanent } })

/-- The policy that an alarm has in force: ERASE with every epoch fuse blown acts as ERASE_PERMANENT (14 R386). -/
def State.policyNow (s : State) (a : Nat) : Nat :=
  let p := policyOf s.sec.policy a
  if p = 2 ∧ 16 ≤ s.sec.fuses.epoch then 3 else p

/-- A policy carried out: one less strict than an erasure in force changes nothing (14 R385, R387). -/
def State.runPolicy (s : State) (p : Nat) : State :=
  if s.sec.erased ∧ p < 2 then s
  else
    let t := s.modSec (fun c => { c with policyMax := max c.policyMax p })
    match p with
    | 0 => t
    | 1 => t.modSec (fun c => { c with lock := true })
    | 2 => t.eraseKeys false
    | _ => t.eraseKeys true

/-- Whether an alarm forces a reset: the ROM is checking an image or LAUNCH is loading keys (14 R384). -/
def State.romBusy (s : State) : Bool := decide (s.modes.mode = .launch) && decide (s.modes.step = .begun) && !s.modes.portsDisabled

/-- One alarm, in the order of 14 R383: debug closes (R381), the log, umpire source 48, the policy; during the ROM's check a reset
follows (R384). -/
def State.alarmCore (s : State) (a : Nat) : State :=
  let p := s.policyNow a
  let busy := s.romBusy
  let entry : AlarmEntry := { alarm := a, policy := p, time := s.uptime }
  let t := (s.modSec (fun c => { c with debugOpen := false, scope := 0, challenge := none,
                                        alarmLog := (entry :: c.alarmLog).take 16 })).raise secStatus [0]
  let u := (t.followNfault.occurAs 48 (alarmClass s.sec.policy a) a).runPolicy p
  if busy then u.resetDomains 16 else u

/-- A failed debug attempt is counted, and the next challenge withheld for 2^(f − 1) s, at most 256 s (14 R380). -/
def State.countFailure (s : State) : State :=
  let f := min 255 (s.sec.debugFails + 1)
  (s.modSec (fun c => { c with debugFails := f, challenge := none, withheld := true,
                               withheldUntil := s.now + min 256 (2 ^ (f - 1)) * 1_000_000_000 })).raise secStatus [2]

/-- The debug failure count exceeds sec.debug_fail_limit (14 R380). -/
def State.failsExceeded (s : State) : Bool := decide (s.num 0x7400 5 < s.sec.debugFails)

/-- A failed debug attempt, with the alarm that it may raise. -/
def State.debugFailure (s : State) : State :=
  let t := s.countFailure
  if t.failsExceeded then t.alarmCore 4 else t

/-- An alarm: one that arrives during a debug attempt ends the attempt as failed (14 R381). -/
def State.alarm (s : State) (a : Nat) : State :=
  if s.sec.challenge.isSome then
    let t := s.countFailure
    if t.failsExceeded then (t.alarmCore a).alarmCore 4 else t.alarmCore a
  else s.alarmCore a

/-! ### Debug (14 R379, R380) -/

/-- JTAG reads a challenge: 32 fresh random bytes, or none while the next is withheld (14 R379, R380). -/
def State.readChallenge (s : State) : State :=
  if s.sec.withheld then s.send (.jtag [])
  else
    let v := s.free % 2 ^ 256
    (s.used.modSec (fun c => { c with challenge := some v })).send (.jtag (leBytes 32 v))

/-- SYS.ID (03 R69). -/
def sysId : Nat := 0x9624 * 2 ^ 16 + Config.dieRev % 256 * 2 ^ 8 + Config.fsRev % 256

/-- Debug opens with a scope: nFAULT is driven low (14 R379, R381). -/
def State.openDebug (s : State) (scope : Nat) : State :=
  (s.modSec (fun c => { c with challenge := none, debugOpen := true, scope := scope % 8, debugFails := 0, withheld := false,
                               withheldUntil := 0 })).followNfault

/-- A signed scope request: it opens debug if it verifies; a challenge serves one attempt (14 R379). LOCK refuses debug (R385).
FACTORY opens it without the exchange (15 R401). -/
def State.unlockDebug (s : State) (scope : Nat) (signature : List Byte) : State :=
  if s.modes.mode = .factory ∧ s.sec.lock = false then s.openDebug scope
  else match s.sec.challenge, s.sec.fuses.debugHash with
  | some v, some h =>
    if !s.sec.lock && Config.ecdsaVerifies h (leBytes 32 v ++ leBytes 4 sysId ++ leBytes 4 scope) signature then
      s.openDebug scope
    else s.debugFailure
  | _, _ => s.debugFailure

/-! ### Revocation and alarm policies (14 R378, R388) -/

/-- SEC.REVOKE takes effect: the slot's revocation fuse is blown, or refused_last_slot; LOCK refuses it (14 R378, R385). -/
def State.revokeSlot (s : State) (v : Nat) : State :=
  let slot := v % 4
  let f := s.sec.fuses
  let other := (List.range 4).any (fun k => decide (k ≠ slot) && !f.revoked.testBit k && (tabFind f.bootHashes k).isSome)
  if s.sec.lock ∨ 4 ≤ v then s
  else if s.sec.runningSlot = slot ∨ other = false then s.raise secStatus [4]
  else s.modSec (fun c => { c with fuses := { c.fuses with revoked := c.fuses.revoked ||| 2 ^ slot } })

/-- A new word weakens no field of the old one: policies in the order LOG to ERASE_PERMANENT, C3 stricter than C2 (14 R388). -/
def notWeaker (old new : Nat) : Bool :=
  (List.range 7).all (fun a => decide (policyOf old a ≤ policyOf new a) && decide (alarmClass old a ≤ alarmClass new a))

/-- SEC.ALARM_POLICY written: stricter, or every field kept and policy_refused (14 R388, R391). -/
def State.writePolicy (s : State) (v : Nat) : State :=
  if v < 2 ^ 21 ∧ notWeaker s.sec.policy v then s.modSec (fun c => { c with policy := v }) else s.raise secStatus [3]

/-! ### Provisioning (14 R389) -/

/-- A provisioning package carried out: none, or the abort it is answered with. LAUNCH goes on where its hold waited for it (R386). -/
def State.provision (s : State) (data : List Byte) : State × Option Abort :=
  let p := Config.packageOf data
  let f := s.sec.fuses
  let written := (p.debugHash.isSome && f.debugHash.isSome) ||
    p.bootHashes.any (fun e => (tabFind f.bootHashes (e.1 % 4)).isSome)
  if s.sec.lock then (s, some .securityLocked)
  else if f.keyKill then (s, some .wrongMode)
  else if s.modes.mode ≠ .launch ∧ s.modes.mode ≠ .run ∧ s.modes.mode ≠ .factory then (s, some .wrongMode)
  else if !Config.ecdsaVerifies f.provisionHash p.signed p.signature then (s.debugFailure, some .valueConflict)
  else if written then (s, some .valueConflict)
  else
    ((s.modSec (fun c =>
      { c with fuses := { c.fuses with debugHash := if p.debugHash.isSome then p.debugHash else c.fuses.debugHash,
                                       bootHashes := p.bootHashes.foldl (fun t e => tabSet t (e.1 % 4) e.2) c.fuses.bootHashes },
               blob := (c.fuses.epoch + 1, p.keys), keys := some p.keys, noKeys := false, erased := false })).raise secStatus [1],
     none)

/-! ### Secure boot (14 R374 to R376) -/

/-- The result of checking one image (SEC.BOOT_STATUS, 14 R375, R391). -/
def State.imageResult (s : State) (i : BootImage) : Nat :=
  let f := s.sec.fuses
  if !i.headerGood ∨ 4 ≤ i.slot then 2
  else if f.revoked.testBit i.slot then 3
  else
    match tabFind f.bootHashes i.slot with
    | none => 4
    | some h =>
      if Config.sha384 i.publicKey ≠ h then 4
      else if !Config.ecdsaVerifies h i.body i.signature then 5
      else if i.version < f.minVersion then 6
      else 0

/-- The key blob is unwrapped at the present epoch, or key RAM stays empty (14 R374). A blob that the device wrote carries its epoch. -/
def State.loadKeys (s : State) (blob : Nat) : State :=
  let c := s.sec
  let own := decide (c.blob.1 ≠ 0)
  let good := !c.fuses.keyKill &&
    (if own then decide (c.blob.1 = c.fuses.epoch + 1) else Config.blobUnwraps blob c.fuses.epoch)
  s.modSec (fun d => { d with keys := if good then some (if own then c.blob.2 else blob) else none, noKeys := !good })

/-- Umpire classes of the launch configuration: fixed sources keep theirs, a latched source's is held back (12 R334). -/
def Umpire.configured (u : Umpire) (classes : List (Nat × Nat)) : Umpire :=
  classes.foldl (fun v p =>
    if classFixed p.1 ∨ 128 ≤ p.1 then v
    else if v.latched.testBit p.1 then { v with heldBack := tabSet v.heldBack p.1 (p.2 % 4) }
    else { v with classes := tabSet v.classes p.1 (p.2 % 4), heldBack := tabErase v.heldBack p.1 }) { u with loaded := true }

/-- A stream slot whose port is enabled waits for a frame start (09 R239, R249). -/
def State.waitSlot (s : State) (k : Nat) : State := s.modSlot k (fun q => { q with mode := .waiting })

/-- The launch configuration takes effect (15 R396 step 2): references, umpire classes, objects, host ports, the early camera. It is taken as it
stands: one beyond the limits of 00 R2 is put into effect unchecked (notes/assumptions/102). -/
def State.configure (s : State) (g : LaunchCfg) : State :=
  let objs := g.objects.foldl (fun t p => tabSet t p.1 p.2) s.objs
  let expects := g.objects.filter (fun p => within 0x7100 0x71FF (p.1 / 256) && decide (p.1 % 256 = 3))
  let camObjs : List (Nat × Val) := (g.early.map (fun e => e.objects)).getD []
  let d := g.limpLane % 8
  let ports := (List.range 4).foldl (fun m p => if g.portsEnabled.testBit p then m ||| 2 ^ (86 + p) else m) 0
  let early := match g.early with | some e => 2 ^ (64 + e.lane % 8) ||| 2 ^ (72 + e.port % 8) | none => 0
  let casc := if bitOf s.modes.straps 3 then 2 ^ 93 else 0
  let target (t : Tab Val) : Tab Val := if g.targetLimp && !s.modes.targetSet then tabSet t (objKey 0x2000 2) (.num 4) else t
  let t := ({ s with
    objs := target (camObjs.foldl (fun (t : Tab Val) (p : Nat × Val) => tabSet t p.1 p.2) objs)
    regs := tabSet s.regs 0x2_0000 (BitVec.ofNat 32 (g.refCfg % 4))
    clocks := { s.clocks with refCfg := g.refCfg % 4 }
    umpire := s.umpire.configured g.classes
    panelInit := g.panelInit
    regions := expects.foldl (fun (t : Tab Region) (p : Nat × Val) =>
      tabMod blankRegion t (p.1 / 256 - 0x7100) (fun r => { r with expected := valNat p.2 })) s.regions
    early := g.early
    ports := (List.range 4).foldl (fun t p =>
      if g.portsEnabled.testBit p then tabMod blankPort t p (fun x => { x with crs := true }) else t) s.ports
    limp := { s.limp with launch := g.objects.filter (fun p => decide (p.1 / 0x1_0000 = (laneIx d 0) / 0x100)), lane := d, pair := g.limpPair % 4 }
    placement := { s.placement with lp5Bytes := g.lp5Bytes, lp5Rate := g.lp5Rate, lp5Ecc := g.lp5Ecc }
    sec := { s.sec with policy := g.alarmPolicy % 2 ^ 21, provisionWindow := min 600 g.provisionWindow } }).modModes (fun m =>
      { m with step := .configured, selftestAsked := m.selftestAsked || g.selftest })
  let u := match g.early with
    | some e => ((t.setNum (camIx (e.port % 8) 0) 1 1).setNum (camIx (e.port % 8) (0x10 + e.slot % 4)) 6 1).waitSlot (e.port % 8 * 4 + e.slot % 4)
    | none => t
  (u.setPower (s.power.on ||| 2 ^ (64 + d) ||| ports ||| early ||| casc)).followNfault

/-- Whether images can be checked: LAUNCH, or FACTORY, has just begun (14 R375, 15 R401). -/
def State.bootReady (s : State) : Bool :=
  s.awake && decide (s.modes.step = .begun) && !s.modes.portsDisabled && !decide (s.modes.mode = .limp) && !decide (s.modes.mode = .run)

/-- Both images are refused: every port disabled, the device stays where it is (14 R376). -/
def State.refuseImages (s : State) : State :=
  if s.modes.mode = .launch then s.disablePorts else s.modModes (fun m => { m with portsDisabled := true })

/-- An image is accepted: keys, then the launch configuration; raise_min waits for RUN (14 R374, R375, R377). -/
def State.acceptImage (s : State) (i : BootImage) (status : Nat) : State :=
  let t := s.modSec (fun c =>
    { c with bootStatus := status + i.slot * 2 ^ 8 + i.version % 2 ^ 16 * 2 ^ 16, runningSlot := i.slot,
             raiseMin := if i.raiseMin then some (min 64 i.version) else none })
  (t.loadKeys i.blob).configure i.cfg

/-- The ROM's check of image A, then B (14 R375, R376). -/
def State.checkImages (s : State) (a b : BootImage) : State :=
  let ra := s.imageResult a
  let rb := s.imageResult b
  if ra = 0 then s.acceptImage a 0x10
  else if rb = 0 then s.acceptImage b ra
  else (s.modSec (fun c => { c with bootStatus := ra + rb * 2 ^ 4 })).refuseImages

end Sys2Proof.Machine
end

