-- ==== Sys2Proof/Machine/Sealed.lean ====
section
/-! DEFINITION. The sealed measuring unit: pulses and distance, the tick, journeys and fare, the indication, storage, verification mode,
requests (13 R350 to R372), and the CRC that judges its indication (12 R319). -/

namespace Sys2Proof.Machine

open Sys2Proof

/-! ### CRC-32C (12 R319) -/

/-- One bit of the reflected CRC with polynomial 0x1EDC_6F41. -/
def crcBit (r : Nat) : Nat := if r % 2 = 1 then (r / 2) ^^^ 0x82F6_3B78 else r / 2

/-- One byte, bit 0 first. -/
def crcByte (r : Nat) (b : Byte) : Nat :=
  crcBit (crcBit (crcBit (crcBit (crcBit (crcBit (crcBit (crcBit (r ^^^ b.toNat))))))))

/-- CRC-32C of bytes. -/
def crc32c (bs : List Byte) : Nat := bs.foldl crcByte 0xFFFF_FFFF ^^^ 0xFFFF_FFFF

/-- Pixels' 30-bit values packed least significant bit first, padded with zero bits to whole bytes. -/
def packPixels (ws : List Nat) : List Byte :=
  leBytes ((30 * ws.length + 7) / 8) (ws.foldr (fun w n => w % 2 ^ 30 + n * 2 ^ 30) 0)

/-- The CRC of a region's pixel words in raster order. -/
def regionCrc (ws : List Nat) : Nat := crc32c (packPixels ws)

/-! ### Distance (13 R351 to R353) -/

/-- The distance in 0.1 m of an input at `k` pulses per km (13 R352). -/
def Smu.distance (u : Smu) (input k : Nat) : Nat := u.pulses.getD input 0 * 10_000 / k

/-- The odometer in 0.1 m. -/
def State.odometer (s : State) : Nat := s.smu.distance (s.num 0x7801 2) (s.num 0x7801 1)

/-- The check input's distance (13 R353). -/
def State.checkDistance (s : State) : Nat := s.smu.distance (s.num 0x7801 3) (s.num 0x7801 4)

/-- Whether distances over the same stretch differ by more than 2 % of the distance input's. -/
def implausible (d c : Nat) : Bool := decide (d * 2 < (max d c - min d c) * 100)

/-- Each km of the distance input is compared with the check input; a change of the flag posts an SMU event (13 R353). -/
def State.checkKm (s : State) : State :=
  let d := s.odometer - s.smu.checkBase.1
  let c := s.checkDistance - s.smu.checkBase.2
  if s.num 0x7801 3 = 0xFF ∨ d < 10_000 then s
  else
    let bad := implausible d c
    let t := s.modSmu (fun u => { u with checkBase := (s.odometer, s.checkDistance), implausible := bad })
    if bad = s.smu.implausible then t else t.smuEvent 3

/-- Overrate: more than 220 edges of an input within 10 ms; edges are kept as instant × 4 + input (13 R351, notes/assumptions/27). -/
def State.overrateCheck (s : State) (input : Nat) : State :=
  let recent := s.smu.edges.filter (fun e => decide (s.now < e / 4 + 10_000_000)) ++ [s.now * 4 + input]
  let t := s.modSmu (fun u => { u with edges := recent })
  if (recent.filter (fun e => decide (e % 4 = input))).length ≤ 220 then t
  else
    let v := t.modSmu (fun u => { u with overrate := true, overrateAt := s.now })
    if s.smu.overrate then v else v.smuEvent 2

/-- A rising edge that passed the debounce: counted by the running SMU, or for SMU_PULSE0 by the standby island after a wake
(13 R351, 15 R400). -/
def State.pulseEdge (s : State) (input : Nat) : State :=
  let p := if input = 0 then s.modModes (fun m => { m with pulse0At := some s.now }) else s
  if p.smu.running then
    let t := (p.modSmu (fun u =>
      { u with pulses := (List.range 4).map (fun i => u.pulses.getD i 0 + b2n (decide (i = input))) })).overrateCheck input
    if input = s.num 0x7801 2 then t.checkKm else t
  else if input = 0 ∧ p.modes.counting then p.modModes (fun m => { m with wakePulses := min 0xFFFF (m.wakePulses + 1) })
  else p

/-! ### Flags and the audit log (13 R367, R370) -/

/-- needs_verification set or cleared; a change posts an SMU event. -/
def State.setNeeds (s : State) (v : Bool) : State :=
  if s.smu.needsVerification = v then s else (s.modSmu (fun u => { u with needsVerification := v })).smuEvent 5

/-- An audit entry at the head of the log. -/
def State.logEntry (s : State) (index sub kind old new : Nat) : State :=
  s.modSmu (fun u => { u with audit := { counter := u.eventCounter, time := u.time, index := index, sub := sub, kind := kind,
                                         old := old, new := new } :: u.audit })

/-- An event of kind 5 or 6: the event counter advances and an entry is written, or where all 1,024 are in use the unit needs
verification (13 R367). -/
def State.auditEvent (s : State) (kind : Nat) : State :=
  let t := s.modSmu (fun u => { u with eventCounter := u.eventCounter + 1 })
  if s.smu.audit.length < 1024 then t.logEntry 0 0 kind 0 0 else t.setNeeds true

/-- Umpire source 50 follows the unit's internal fault (12 R333, 13 R362, R368). -/
def State.smuFault (s : State) : State :=
  if s.smu.storageFault ∨ s.smu.fwOk = false then s.lineOn 50 0 else s.lineOff 50

/-! ### Storage (13 R362) -/

/-- A state record written into the slot whose turn it is, after the monotonic counter has advanced. -/
def State.writeRecord (s : State) : State :=
  let n := s.modes.monotonic + 1
  let u := s.smu
  let r : SmuSlot := { authentic := true, counter := n, pulses := u.pulses, journey := u.journey, eventCounter := u.eventCounter,
                       tripA := u.tripBase.1, tripB := u.tripBase.2, time := u.time }
  let keep := u.slots.filter (fun x => decide (x.counter % 2 ≠ n % 2))
  (s.modModes (fun m => { m with monotonic := n })).modSmu (fun v => { v with slots := r :: keep, recordOdo := s.odometer })

/-- The newest authenticated slot. -/
def newestSlot (slots : List SmuSlot) : Option SmuSlot :=
  (slots.filter (fun x => x.authentic)).foldl (fun b x => match b with | none => some x | some y => some (if y.counter < x.counter then x else y)) none

/-- The state of a record is in use again; the island's pulse count is added to P and its seconds to smu.time (15 R400, R404). -/
def State.loadSlot (s : State) (x : SmuSlot) : State :=
  let d := s.num 0x7801 2
  let t := s.modSmu (fun u =>
    { u with pulses := (List.range 4).map (fun i => x.pulses.getD i 0 + (if i = d then s.modes.wakePulses else 0)),
             journey := x.journey, eventCounter := max u.eventCounter x.eventCounter, tripBase := (x.tripA, x.tripB),
             time := x.time + s.modes.seconds })
  let odo := t.odometer
  t.modSmu (fun u => { u with window := [odo], recordOdo := odo, checkBase := (odo, t.checkDistance) })

/-- The start of the SMU (13 R362, R368): the firmware's checksum, then the slot that the monotonic counter names. -/
def State.startSmu (s : State) (slots : List SmuSlot) (fwSigned : Bool) : State :=
  let n := s.modes.monotonic
  let b := s.modSmu (fun u => { u with running := true, tick := 0, tickAt := s.now, fwOk := fwSigned, slots := slots, judgedAt := s.now,
                                       timeValid := !s.clocks.xtal32Failed && !s.modes.rcWindow })
  let lost := decide (n = 0) && !slots.any (fun x => x.authentic && decide (x.counter = 0))
  let found := if lost then newestSlot slots else slots.find? (fun x => x.authentic && decide (x.counter = n))
  let t := match found with
    | some x => if lost then ((b.loadSlot x).setNeeds true).auditEvent 5 else b.loadSlot x
    | none => (b.modSmu (fun u => { u with storageFault := true, pulses := [0, 0, 0, 0], window := [0] })).smuEvent 4
  (t.modModes (fun m => { m with counting := false, wakePulses := 0, seconds := 0 })).smuFault

/-! ### The indication (13 R358 to R361, R365) -/

/-- The indication lane runs and the rectangle lies in its active area (13 R360). -/
def State.indicationFits (s : State) : Bool :=
  let n := s.num 0x7801 6
  let r := rectOf (s.num 0x7801 7)
  s.smu.running && decide ((s.lane n).mode = .running) && r.nonempty && r.inside (s.active n)

/-- Whether the indication is placed follows its lane. -/
def State.placeIndication (s : State) : State :=
  if s.indicationFits then s.modSmu (fun u => { u with indPlaced := true }) else s.modSmu Smu.unplaced

/-- The palette's colour and output word of an entry (13 R358, R371). -/
def paletteWord (bs : List Byte) (i : Nat) : Nat := leNat ((bs.drop (12 * i + 8)).take 4)

/-- A raster buffer is free: neither posted nor used by a heat whose rows have not all closed (13 R359). -/
def State.bufferFree (s : State) (b : Nat) : Bool :=
  let n := s.num 0x7801 6
  let holds (h : Heat) : Bool := decide (h.frame ≠ 0) && decide (h.ind = some b) && !(List.range (s.tileRows n)).all h.closed.contains
  decide (s.smu.posted ≠ some b) && !holds (s.lane n).heat && !holds (s.lane n).shown

/-- A raster fits the rectangle: one 2-bit value per pixel. -/
def State.rasterOk (s : State) (raster : List Nat) : Bool :=
  let r := s.num 0x7801 7
  decide (raster.length = (bits r 47 32 - bits r 15 0) * (bits r 63 48 - bits r 31 16)) && raster.all (fun v => decide (v < 4))

/-- A new indication posted with its expected CRC (13 R359). -/
def State.postIndication (s : State) (b : Nat) (raster : List Nat) : State :=
  let pal := valContent (s.obj 0x7801 0xA)
  s.modSmu (fun u => { u with rasters := u.rasters.set b raster, posted := some b,
                              crcs := u.crcs.set b (regionCrc (raster.map (paletteWord pal))) })

/-- A 64-bit audit value of an object: its number, or the low 8 bytes of a BLOB's SHA-384 (13 R367). -/
def auditVal : Val → Nat
  | .num n => n
  | .bytes b => Config.sha384 b % 2 ^ 64

/-- One staged parameter committed: where its value changed, the event counter and the audit log advance (13 R365). -/
def State.commitParam (s : State) (key : Nat) (old : Val) : State :=
  let new := s.obj (key / 256) (key % 256)
  if old = new then s
  else
    (s.modSmu (fun u => { u with eventCounter := u.eventCounter + 1 })).logEntry (key / 256) (key % 256) 1 (auditVal old) (auditVal new)

/-- The bytes of the staged firmware from offset 0 on. -/
def Smu.fwImage (u : Smu) : List Byte :=
  match u.stagedFw.getLast? with
  | none => []
  | some p => (List.range (p.1 + 1)).map (fun i => tabGet 0 u.stagedFw i)

/-- New firmware committed: an audit entry of kind 2 (13 R368). -/
def State.commitFw (s : State) : State :=
  if s.smu.stagedFw = [] then s
  else
    let old := s.smu.fwHash
    let new := Config.sha384 s.smu.fwImage
    ((s.modSmu (fun u => { u with eventCounter := u.eventCounter + 1, fwHash := new, fwOk := true, stagedFw := [] })).logEntry
      0x7800 0xE 2 (old % 2 ^ 64) (new % 2 ^ 64)).smuFault

/-- An SMU_RESPONSE (13 R369). -/
def State.smuAnswer (s : State) (crew cookie result data : Nat) : State := s.post crew (eventWord 0x1B 0xF result cookie data)

/-- Verification mode ends; staged parameters are gone. -/
def State.leaveVerification (s : State) : State :=
  (s.modSmu (fun u => { u with verifying := false, closing := none, stagedParams := [], savedParams := [], stagedFw := [] })).smuEvent 6

/-- VERIFY_CLOSE succeeds: every staged parameter committed in one record, verification mode left (13 R365, R367). -/
def State.closeVerified (s : State) (k : SmuClosing) : State :=
  let s1 := (s.smu.savedParams.foldl (fun t p => t.commitParam p.1 p.2) s).commitFw
  let odo := s1.odometer
  let s2 := (s1.modSmu (fun u => { u with checkBase := (odo, s1.checkDistance), window := [odo] })).writeRecord
  let s3 := if s2.smu.audit.length < 1024 then s2.setNeeds false else s2
  s3.leaveVerification.smuAnswer k.crew k.cookie 0 s3.smu.eventCounter

/-- VERIFY_CLOSE fails: the previous parameters are restored, verification mode stays (13 R365). -/
def State.closeFailed (s : State) : State :=
  match s.smu.closing with
  | none => s
  | some k =>
    let t := s.smu.savedParams.foldl (fun u p => u.setKey p.1 p.2) s
    ((t.modSmu (fun u => { u with closing := none, savedParams := [] })).placeIndication).smuAnswer k.crew k.cookie 5 0

/-- An outcome of region 31: eight passes in a row make the indication valid, and complete a VERIFY_CLOSE (13 R360, R365). -/
def State.judgeIndication (s : State) (pass : Bool) : State :=
  let n := if pass then s.smu.passes + 1 else 0
  let t := s.modSmu (fun u =>
    { u with judgedAt := s.now, passes := n,
             closing := u.closing.map (fun k => { k with passes := if pass then k.passes + 1 else 0 }) })
  let v := if 8 ≤ n then t.setValidity true else t
  match v.smu.closing with
  | some k => if 8 ≤ k.passes ∧ v.now ≤ k.since + 1_000_000_000 then v.closeVerified k else v
  | none => v

/-! ### Requests (13 R364, R367 to R369) -/

/-- Whether an object is a sealed parameter that PARAM_WRITE may name. -/
def sealedRow (index sub : Nat) : Option ObjRow :=
  match objRow index sub with
  | some r => if r.right = .sealed then some r else none
  | none => none

/-- The bytes of an item's value words: eight per word; a word carries 62 bits, so the top two of every eighth byte are free
(notes/assumptions/28). -/
def State.wordBytes (s : State) (ws : List Nat) (n : Nat) : List Byte :=
  ((ws.zipIdx).flatMap (fun p => leBytes 8 (p.1 % 2 ^ 62 + Config.freeValue (s.freeCount + p.2) % 4 * 2 ^ 62))).take n

/-- The value that a PARAM_WRITE spells for an object; none where it does not fit. -/
def paramValue (r : ObjRow) (len : Nat) (bs : List Byte) : Option Val :=
  if r.ty = .blob then
    (if len = r.maxBytes ∧ (List.range 4).all (fun i => fillOk (leNat ((bs.drop (12 * i)).take 8)) && decide (paletteWord bs i < 2 ^ 30))
     then some (.bytes bs) else none)
  else if len = r.ty.size ∧ (r.ty ≠ .bool ∨ leNat bs ≤ 1) ∧ r.ok (leNat bs) then some (.num (leNat bs))
  else none

/-- The length of a request's item in words (13 R369). -/
def smuLength (code : Nat) : Nat :=
  match code with
  | 1 | 2 | 5 | 6 | 8 => 2
  | 3 | 4 | 7 | 0x10 => 1
  | 0x12 | 0x14 => 16
  | _ => 3

/-- The bits that word 1 may carry. -/
def smuWord1 (code : Nat) : Nat :=
  match code with
  | 1 | 2 => 0xF
  | 5 => 7
  | 6 => 1
  | 0x12 => 0xFFFF_FFFF
  | _ => 2 ^ 62 - 1

/-- The tag of an authenticated request, its last two words, agrees with the one made over the challenge and the words before it
(13 R364, notes/assumptions/28). -/
def State.smuAuth (s : State) (i : CqItem) : Bool :=
  let n := i.words.length - 2
  let tag := Config.smuTag s.smu.challenge (i.words.take n)
  decide (i.word n = tag % 2 ^ 62) && decide (i.word (n + 1) = tag / 2 ^ 64 % 2 ^ 62)

/-- The staged parameters whose values would change, and staged firmware. -/
def State.stagedChanges (s : State) : Nat :=
  (s.smu.stagedParams.filter (fun p => decide (s.obj (p.1 / 256) (p.1 % 256) ≠ p.2))).length + b2n (decide (s.smu.stagedFw ≠ []))

/-- HIRE's result (13 R355, R361, R364, R369, notes/assumptions/29). -/
def State.hireResult (s : State) (t : Nat) : Nat :=
  let u := s.smu
  if u.verifying ∨ u.journey.kind ≠ 0 ∨ u.timeValid = false ∨ u.needsVerification ∨ u.storageFault ∨ u.fwOk = false then 1
  else if s.num (0x7810 + t) 1 = 0 then 2
  else if u.indValid = false then 5
  else 0

/-- The result of a well-formed request and its effect, judged in a state that holds the effects of the requests before it. -/
def State.smuJudge (s : State) (code : Nat) (i : CqItem) : Nat × SmuEffect :=
  let u := s.smu
  let w := i.word 1
  let v := s.free % 2 ^ 128
  let give (r : Nat) (e : SmuEffect) : Nat × SmuEffect := if r = 0 then (0, e) else (r, .refused)
  if !u.running then (1, .refused)
  else
    match code with
    | 1 => give (s.hireResult (w % 16)) (.hire (w % 16))
    | 2 => give (if u.journey.kind ≠ 1 then 1 else if s.num (0x7810 + w % 16) 1 = 0 then 2 else 0) (.tariff (w % 16))
    | 3 => give (if u.journey.kind ≠ 1 then 1 else 0) .stop
    | 4 => give (if u.journey.kind ≠ 2 then 1 else 0) .endJourney
    | 5 => give (if u.journey.kind = 0 then 1 else 0) (.supplement (w % 8))
    | 6 => give 0 (.tripReset (w % 2))
    | 7 => give 0 .showId
    | 8 => give (if 1 < w then 2 else if u.journey.kind ≠ 0 then 1 else if 1008 ≤ u.audit.length then 6 else 0)
             (.timeOffset (decide (w = 1)))
    | 0x10 => give 0 (.challenge v)
    | 0x11 => give (if !u.sealOpen then 7 else if u.verifying ∨ u.journey.kind ≠ 0 then 1 else if !s.smuAuth i then 4 else 0) (.verifyOpen v)
    | 0x12 =>
      if !u.verifying then (3, .refused)
      else if u.closing.isSome then (1, .refused)
      else if !s.smuAuth i then (4, .refused)
      else
        let index := bits w 15 0
        let sub := bits w 23 16
        let len := bits w 31 24
        (match (sealedRow index sub).bind (fun r => paramValue r len (s.used.wordBytes ((i.words.drop 2).take 12) len)) with
         | some x => (0, .param (objKey index sub) x v)
         | none => (2, .refused))
    | 0x13 => give (if !u.verifying then 3 else if u.closing.isSome then 1 else if !s.smuAuth i then 4
                    else if 1008 < u.audit.length + s.stagedChanges then (if s.stagedChanges = 0 then 0 else 6)
                    else if u.stagedFw ≠ [] ∧ Config.smuImageSigned u.fwImage = false then 2 else 0) (.verifyClose v)
    | 0x14 => give (if !u.verifying then 3 else if u.closing.isSome then 1 else if !s.smuAuth i then 4 else 0)
             (.fwBlock w (s.used.wordBytes ((i.words.drop 2).take 12) 96) v)
    | _ => give (if !u.verifying then 3 else if u.closing.isSome then 1 else if !s.smuAuth i then 4 else 0) (.logClear v)

/-- A journey begins (13 R356). -/
def State.beginJourney (s : State) (t : Nat) : State :=
  let x := 0x7810 + t
  s.modSmu (fun u =>
    { u with journey := { kind := 1, tariff := t, fare := s.num x 3, supplements := 0, acc := -((s.num x 4 * s.num x 6 : Nat) : Int),
                          startOdo := s.odometer, ticks := 0 } })

/-- An accepted authenticated request: its instant and the next challenge (13 R364). -/
def State.authenticated (s : State) (v : Nat) : State := s.modSmu (fun u => { u with challenge := v, lastAuth := s.now })

/-- smu.time moved by an hour, with its audit entry of kind 3 (13 R354, R369). -/
def State.offsetTime (s : State) (plus : Bool) : State :=
  let old := s.smu.time
  let new := if plus then old + 3600 else old - 3600
  (s.modSmu (fun u => { u with time := new })).logEntry 0x7800 7 3 old new

/-- A VERIFY_CLOSE applies the staged parameters provisionally and waits for its passes (13 R365). -/
def State.openClosing (s : State) (crew cookie : Nat) : State :=
  let saved := s.smu.stagedParams.map (fun p => (p.1, s.obj (p.1 / 256) (p.1 % 256)))
  let t := s.smu.stagedParams.foldl (fun u p => u.setKey p.1 p.2) s
  (t.modSmu (fun u => { u with savedParams := saved, closing := some { since := s.now, crew := crew, cookie := cookie, passes := 0 } })).placeIndication

/-- The effect of a request at the tick, without its answer. -/
def State.smuEffect (s : State) (a : SmuAnswer) : State :=
  match a.effect with
  | .refused => s
  | .hire t => s.beginJourney t
  | .tariff t => s.modSmu (fun u => { u with journey := { u.journey with tariff := t } })
  | .stop => s.modSmu (fun u => { u with journey := { u.journey with kind := 2 } })
  | .endJourney => s.modSmu (fun u => { u with journey := blankJourney })
  | .supplement k => s.modSmu (fun u => { u with journey := { u.journey with supplements := u.journey.supplements + s.num 0x7820 (k + 1) } })
  | .tripReset trip => s.modSmu (fun u => { u with tripBase := if trip = 0 then (s.odometer, u.tripBase.2) else (u.tripBase.1, s.odometer) })
  | .showId => s.modSmu (fun u => { u with showId := true, showIdAt := s.now })
  | .timeOffset plus => s.offsetTime plus
  | .challenge v => s.modSmu (fun u => { u with challenge := v })
  | .verifyOpen v => ((s.authenticated v).modSmu (fun u => { u with verifying := true, sealAnswered := true })).smuEvent 6
  | .param key x v => (s.authenticated v).modSmu (fun u => { u with stagedParams := u.stagedParams.filter (fun p => decide (p.1 ≠ key)) ++ [(key, x)] })
  | .verifyClose v => (s.authenticated v).openClosing a.crew a.cookie
  | .fwBlock o bs v => (s.authenticated v).modSmu (fun u => { u with stagedFw := (bs.zipIdx).foldl (fun t p => tabSet t (o + p.2) p.1) u.stagedFw })
  | .logClear v => ((s.authenticated v).modSmu (fun u => { u with audit := [] })).logEntry 0 0 4 0 0

/-- The data that an answer shows (13 R369). -/
def State.smuData (s : State) (e : SmuEffect) : Nat :=
  match e with
  | .stop | .supplement _ => s.smu.journey.fare + s.smu.journey.supplements
  | _ => 0

/-- One request carried out and answered; a VERIFY_CLOSE that was accepted is answered when it ends. -/
def State.smuServe (s : State) (a : SmuAnswer) : State :=
  let t := s.smuEffect a
  match a.effect with
  | .verifyClose _ => t
  | e => t.smuAnswer a.crew a.cookie a.result (t.smuData e)

/-- The state that the requests waiting for the tick will leave, against which the next one is judged. -/
def State.smuImage (s : State) : State := s.smu.effects.foldl State.smuEffect s

/-- An SMU_REQUEST item taken: only smu.requester's reaches the SMU, which answers a malformed one with result 8 (13 R369). -/
def State.smuItem (s : State) (c : Nat) : State :=
  let i := s.head c
  let t := s.takeHead c
  let code := bits (i.word 0) 55 48
  let cookie := cookieOf (i.word 0)
  if c ≠ s.num 0x7801 5 then t.itemError c Abort.noRight.reason cookie
  else
    let bad := !smuCode code || i.words.length != smuLength code || (2 ≤ i.words.length && !only (smuWord1 code) (i.word 1))
    let (result, effect) := if bad then (8, SmuEffect.refused) else t.smuImage.smuJudge code i
    let u := t.modSmu (fun q => { q with effects := q.effects ++ [{ crew := c, cookie := cookie, result := result, effect := effect }] })
    { u with freeCount := s.freeCount + 13 }

/-! ### The tick (13 R354, R356, R357, R372) -/

/-- The instant of the next tick in ns: of each five, four take 3,277 cycles of the crystal and one 3,276 (13 R354). -/
def Smu.nextTick (u : Smu) : Nat := u.tickAt + (if u.tick % 5 = 4 then 3276 else 3277) * 1_000_000_000 / 32_768

/-- A tick is due; while the internal RC oscillator stands in for the crystal its period is open (08 R220, 13 R354). -/
def State.tickDue (s : State) : Bool := s.smu.running && (!s.smu.timeValid || decide (s.smu.nextTick ≤ s.now))

/-- The fare of one tick of a HIRED journey in which `d` × 0.1 m were travelled (13 R356). -/
def State.accrue (s : State) (d : Nat) : State :=
  let j := s.smu.journey
  if j.kind ≠ 1 ∨ s.smu.indValid = false then s
  else
    let x := 0x7810 + j.tariff
    let ts := s.num x 6
    let ds := s.num x 5
    let a := d * ts
    let acc := j.acc + ((if s.num x 2 = 0 then max a ds else a + ds : Nat) : Int)
    let steps := (acc / ((ds * ts : Nat) : Int)).toNat
    s.modSmu (fun u => { u with journey := { j with fare := j.fare + steps * s.num x 7, acc := acc - ((steps * (ds * ts) : Nat) : Int) } })

/-- The registers and objects of one tick, as one set: SMU.STATUS to SMU.TICK in the order of 13 R372, then P. -/
def State.smuView (s : State) : List Nat :=
  let u := s.smu
  let odo := s.odometer
  let half (n : Nat) : List Nat := [n % 2 ^ 32, n / 2 ^ 32 % 2 ^ 32]
  let j := u.journey
  [u.statusWord, u.eventCounter % 2 ^ 32] ++ half odo ++ half (odo - u.tripBase.1) ++ half (odo - u.tripBase.2) ++
  [36 * (odo - (u.window.getLast?).getD odo) % 2 ^ 32, j.kind + j.tariff * 2 ^ 8, (j.fare + j.supplements) % 2 ^ 32,
   (if j.kind = 0 then 0 else odo - j.startOdo) % 2 ^ 32, j.ticks / 10 % 2 ^ 32, u.time % 2 ^ 32, u.tick % 2 ^ 32] ++
  half (u.pulses.getD (s.num 0x7801 2) 0)

/-- The changes of a tick that call for a record: a request that changed state, or 100 m of odometer (13 R362). -/
def State.recordDue (s before : State) : Bool :=
  before.smu.effects.any (fun a => decide (a.effect ≠ .refused)) || decide (s.smu.recordOdo + 1000 ≤ s.odometer)

/-- One tick of 100 ms: fare, then the requests in their order, time, records, and the registers as one set. -/
def State.smuTick (s : State) : State :=
  let odo := s.odometer
  let d := odo - (s.smu.window.head?).getD odo
  let s1 := s.accrue d
  let s2 := s1.modSmu (fun u =>
    { u with journey := { u.journey with ticks := if u.journey.kind = 0 then 0 else u.journey.ticks + 1 },
             window := (odo :: u.window).take 11, effects := [] })
  let s3 := s.smu.effects.foldl State.smuServe s2
  let s4 := s3.modSmu (fun u =>
    { u with tick := u.tick + 1, tickAt := if u.timeValid then s.smu.nextTick else s.now, subTicks := (u.subTicks + 1) % 10, time := if u.subTicks = 9 then u.time + 1 else u.time })
  let s5 := (if s4.recordDue s then s4.writeRecord else s4).placeIndication
  s5.modSmu (fun u => { u with view := s5.smuView })

/-! ### Seal and time-outs (13 R360, R365, R366) -/

/-- SMU_SEAL changes: a seal that closes before VERIFY_CLOSE ends verification mode. -/
def State.sealChange (s : State) (opened : Bool) : State :=
  if opened then s.modSmu (fun u => { u with sealOpen := true, sealSince := s.now, sealAnswered := false })
  else
    let t := s.modSmu (fun u => { u with sealOpen := false })
    if s.smu.verifying ∧ s.smu.closing.isNone then t.leaveVerification else t

/-- The seal has read open for 60 s without an accepted VERIFY_OPEN (13 R366). -/
def State.sealTimeout (s : State) : State :=
  (((s.modSmu (fun u => { u with sealAnswered := true })).auditEvent 6).setNeeds true).alarm 5

end Sys2Proof.Machine
end

