-- ==== Sys2Proof/Machine/Photo.lean ====
section
/-! DEFINITION. Photo-finish: the outcome of a check region in a frame, and what a failure raises (12 R318 to R331, R340). -/

namespace Sys2Proof.Machine

open Sys2Proof

/-! ### Which regions are checked, and how -/

/-- The limp composer drives the lane (12 R339, R340, 15 R397). -/
def State.limpDrives (s : State) (n : Nat) : Bool := s.limp.driving && decide (n = s.limp.lane)

/-- The lane that carries the sealed indication: region 31 belongs to the sealed unit there (12 R329). -/
def State.sealedRegion (s : State) (n i : Nat) : Bool :=
  decide (i = 31) && decide (n = s.num 0x7801 6) && s.smu.running && (rectOf (s.num 0x7801 7)).nonempty

/-- How a region is checked in the frame in progress. -/
structure Check where
  rect : Rect
  mode : Nat
  expected : Nat
  failAfter : Nat
  source : Nat
  deriving DecidableEq, Repr, Inhabited

/-- The rectangle of a limp bitmap. -/
def limpRect (b : LimpBitmap) : Rect :=
  { x0 := (b.x : Int), y0 := (b.y : Int), x1 := ((b.x + b.w : Nat) : Int), y1 := ((b.y + b.h : Nat) : Int) }

/-- The check that a region carries out, none where it is off: the limp picture's (12 R340), the sealed indication's (R329), or
the one its objects give (R331). -/
def State.checkOf (s : State) (n i : Nat) : Option Check :=
  let r := s.region (n * 32 + i)
  let x := regionIx n i
  if s.limpDrives n then
    match ((s.limp.record.map (fun q => q.bitmaps)).getD [])[i]? with
    | some b => some { rect := (limpRect b), mode := 1, expected := tabGet 0 s.limp.expected i, failAfter := 2, source := 57 }
    | none => none
  else if s.sealedRegion n i then
    (if s.smu.indPlaced && s.smu.carriedFrom.any (fun f => decide (f ≤ s.frame n))
     then some { rect := rectOf (s.num 0x7801 7), mode := 1, expected := r.expected, failAfter := 2, source := 49 } else none)
  else if s.num x 1 = 0 then none
  else some { rect := rectOf (s.num x 2), mode := s.num x 1, expected := r.expected, failAfter := s.num x 6,
              source := 64 + 4 * n + s.num x 7 }

/-- The frame in progress is evaluated (12 R321): the limp picture's on lane d, else every frame of a running lane but those
that RETIMING or a gate interrupts. -/
def State.frameJudged (s : State) (n : Nat) : Bool :=
  let l := s.lane n
  if s.limpDrives n then !l.gated && decide (0 < s.frame n) else decide (l.mode = .running) && l.evaluated && !l.gated

/-- A region's outcome can be fixed: its frame is evaluated and has not been judged yet, and its last line is with the port (12 R321). -/
def State.regionReady (s : State) (n i : Nat) : Bool :=
  s.awake && s.frameJudged n &&
  (s.checkOf n i).any (fun k => decide (k.rect.y1.toNat + s.frameNum n 1 6 + s.frameNum n 1 7 ≤ s.lineNow n + 1)) &&
  decide ((s.region (n * 32 + i)).frame ≠ s.frame n)

/-! ### The outcome -/

/-- The words of a region as the port sent them, in raster order (12 R319, R320). -/
def State.regionWords (s : State) (n : Nat) (r : Rect) : List Nat :=
  r.pixels.map (fun p => s.sentPixel n p.1.toNat p.2.toNat)

/-- How many pixels of each provenance class (12 R325). -/
def classCounts (ws : List Nat) : List Nat := (List.range 4).map (fun c => ws.countP (fun w => decide (bits w 31 30 = c)))

/-- The distance to the reference frame: 4 while temporal dithering is on, else 1 (12 R322). -/
def State.refDistance (s : State) (n : Nat) : Nat := if bitOf (s.laneNum n 4 9) 1 then 4 else 1

/-- The reference CRC of the frame in progress, if frame F − P was evaluated and does not lie before the arming (12 R322). -/
def State.refCrc (s : State) (n : Nat) (r : Region) : Option Nat :=
  let f := s.frame n
  let p := s.refDistance n
  if f < p ∨ f - p < r.armedAt then none else (r.crcs.find? (fun e => decide (e.1 = f - p))).map Prod.snd

/-- The class limits of a region hold (12 R325). -/
def State.limitsHold (s : State) (x : Nat) (counts : List Nat) : Bool :=
  let u := 2 ^ s.num x 8
  (List.range 4).all (fun c =>
    let lim := s.num x (9 + c)
    let k := counts.getD c 0
    decide (bits lim 15 0 * u ≤ k) && (decide (bits lim 31 16 = 0xFFFF) || decide (k ≤ bits lim 31 16 * u)))

/-- The cause of the watched source's advances (12 R326): 1 + layer, or 0x1_0000 + stream. -/
def watchCause (w : Nat) : Option Nat :=
  match bits w 15 14 with
  | 1 => some (1 + bits w 10 0)
  | 2 => some (0x1_0000 + bits w 10 0)
  | _ => none

/-- The heat that produced the frame in progress. -/
def State.producer (s : State) (n : Nat) : Option Heat :=
  let l := s.lane n
  if l.heat.frame = s.frame n then some l.heat else if l.shown.frame = s.frame n then some l.shown else none

/-- The watched source advanced in this frame (12 R326). -/
def State.advanced (s : State) (n x : Nat) (r : Rect) : Bool :=
  match s.producer n, watchCause (s.num x 4) with
  | some h, some c => h.reasons.any (fun e => decide (e.2 = c) && h.tiles.contains e.1 && ((s.tileRect n e.1).inter r).nonempty)
  | _, _ => false

/-- CHANGE (12 R327): the outcome and the window after it. A window whose deadline passed unseen is closed first. -/
def judgeChange (f k : Nat) (ref : Option Nat) (crc : Nat) (advanced : Bool) (window : Option Nat) : Option Bool × Option Nat :=
  let w := window.filter (fun d => decide (f ≤ d))
  match ref with
  | some v =>
    if v ≠ crc then (some true, none)
    else
      let w' := if w.isNone && advanced then some (f + k - 1) else w
      if w' = some f then (some false, none) else (none, w')
  | none => if w = some f then (some false, none) else (none, w)

/-- The outcome of a region in its mode (12 R322 to R327): pass, fail, or none for not judged; and its window. -/
def State.outcome (s : State) (n i : Nat) (k : Check) (r : Region) (crc : Nat) (counts : List Nat) : Option Bool × Option Nat :=
  let x := regionIx n i
  match k.mode with
  | 1 => (some (decide (crc = k.expected)), none)
  | 2 => judgeChange (s.frame n) (s.num x 5) (s.refCrc n r) crc (s.advanced n x k.rect) r.window
  | 3 => ((s.refCrc n r).map (fun v => decide (v = crc)), none)
  | _ => (some (s.limitsHold x counts), none)

/-- The outcome code of 12 R330. -/
def outcomeCode : Option Bool → Nat
  | some true => 1
  | some false => 2
  | none => 3

/-! ### What it brings about -/

/-- An arming that photo.rearm asked for takes place from its frame on (12 R322, R331). -/
def Region.rearmed (r : Region) (f : Nat) : Region :=
  match r.rearmAt with
  | some g => if g ≤ f then { r with armedAt := g, history := 0, run := 0, window := none, rearmAt := none } else r
  | none => r

/-- A raised failure (12 R328, R329, R340): the umpire source, PHOTO.FAILED and fail, the counter, PHOTO_FAIL. -/
def State.photoFail (s : State) (n i : Nat) (k : Check) : State :=
  let s1 := s.occur k.source (if k.source = 57 then n else i)
  let s2 := if k.source = 49 then s1.setValidity false else s1
  let s3 := ((s2.modRegion (n * 32 + i) (fun r => { r with failed := true })).raise (photoStatus n) [0]).count (laneCount n 0x30) 1
  s3.post (s3.num (regionIx n i) 0xD) (eventWord 0x1A n k.mode 0 i)

/-- A region's outcome for the frame in progress is fixed (12 R321, R328, R330); the SMU hears of region 31's (13 R360). -/
def State.evaluate (s : State) (n i : Nat) : State :=
  match s.checkOf n i with
  | none => s
  | some k =>
    let f := s.frame n
    let r := (s.region (n * 32 + i)).rearmed f
    let ws := s.regionWords n k.rect
    let crc := regionCrc ws
    let counts := classCounts ws
    let (o, w) := s.outcome n i k r crc counts
    let run := if o = some true then 0 else if o = some false then r.run + 1 else r.run
    let raised := decide (o = some false) && decide (k.failAfter ≤ run)
    let t := s.modRegion (n * 32 + i) (fun _ =>
      { r with crcs := ((f, crc) :: r.crcs).take 8, history := (r.history * 4 + outcomeCode o) % 2 ^ 16, counts := counts,
               run := if raised then 0 else run, frame := f, window := w, failed := r.failed && decide (o ≠ some true) })
    let u := if k.source = 49 then t.judgeIndication (decide (o = some true)) else t
    if raised then u.photoFail n i k else u

/-- photo.rearm by the region's owner or SYSTEM: the region is armed from the next frame (12 R322, R329, R331). -/
def State.rearm (s : State) (n i : Nat) : State := s.modRegion (n * 32 + i) (fun r => { r with rearmAt := some (s.frame n + 1) })

def State.mayRearm (s : State) (c n i : Nat) : Bool :=
  s.coxUp && !s.sealedRegion n i && (decide (c = 0) || decide (c = s.num (regionIx n i) 0xD))

/-- Every region of a lane armed anew. -/
def State.armLane (s : State) (n : Nat) : State := (List.range 32).foldl (fun t i => t.armRegion (n * 32 + i) (s.frame n + 1)) s

end Sys2Proof.Machine
end

