-- ==== Sys2Proof/Machine/Faults.lean ====
section
/-! DEFINITION. The umpire's commands and the limp picture (12 R334, R337, R338, R340, R344, R345). -/

namespace Sys2Proof.Machine

open Sys2Proof

/-! ### Snapshot and clear (12 R337, R338) -/

/-- UMPIRE.SNAPSHOT written. -/
def State.snapshot (s : State) : State :=
  s.modUmpire (fun u => { u with snap := u.latched, snapSeq := (u.snapSeq + 1) % 2 ^ 16, snapAt := u.occurrences })

/-- UMPIRE.CLEAR written with `v`: it acts only with the current snapshot number. -/
def State.umpireClear (s : State) (v : Nat) : State :=
  if v % 2 ^ 16 = s.umpire.snapSeq then s.clearSources (s.clearable (s.umpire.snap &&& s.umpire.clearSel) s.umpire.snapAt)
  else s.raise umpireStatus [2]

/-- umpire.clear written by a crew that has read umpire.status. -/
def State.clearObject (s : State) (mask since : Nat) : State := s.clearSources (s.clearable mask since)

/-! ### Classes (12 R334) -/

/-- UMPIRE.CLASS[k] as it reads. -/
def State.classWord (s : State) (k : Nat) : Nat := (List.range 16).foldl (fun w j => w + s.classOf (16 * k + j) * 4 ^ j) 0

/-- UMPIRE.CLASS[k] written: a fixed or latched source keeps its class and raises class_refused. -/
def State.writeClass (s : State) (k v : Nat) : State :=
  let want (j : Nat) : Nat := v / 4 ^ j % 4
  let changed := (List.range 16).filter (fun j => decide (want j ≠ s.classOf (16 * k + j)))
  let keeps (j : Nat) : Bool := classFixed (16 * k + j) || s.umpire.latched.testBit (16 * k + j)
  let t := s.modUmpire (fun u =>
    { u with classes := (changed.filter (fun j => !keeps j)).foldl (fun c j => tabSet c (16 * k + j) (want j)) u.classes })
  if changed.any keeps then t.raise umpireStatus [3] else t

/-! ### The C3 record and fault injection (12 R344, R345) -/

/-- UMPIRE.C3_ACK written. -/
def State.ackC3 (s : State) (v : Nat) : State :=
  if v % 2 = 0 then s
  else if s.heldC3 ≠ 0 then s.raise umpireStatus [2]
  else s.modUmpire (fun u => { u with c3 := none })

/-- The detail word of a source raised without a cause of its own: its lane, port, shell or region's place (12 R333). -/
def plainDetail (n : Nat) : Nat :=
  if n < 32 then n % 8 else if n ≤ 35 then n - 32 else if 96 ≤ n ∧ n ≤ 111 then n - 96 else 0

/-- UMPIRE.INJECT written: in FACTORY the source's line is raised, once or held; elsewhere it is refused (12 R345). -/
def State.inject (s : State) (v : Nat) : State :=
  if s.modes.mode ≠ .factory then (s.raise umpireStatus [6]).occur 46 (Block.umpire.base + 0x300)
  else
    let n := v % 128
    let hold := bitOf v 8
    let t := if s.umpire.injectHold && (!hold || decide (s.umpire.injectSource ≠ n)) then s.lineOff s.umpire.injectSource else s
    let u := t.modUmpire (fun x => { x with injectSource := n, injectHold := hold && (x.injectHold || bitOf v 9) })
    if !bitOf v 9 ∨ within 59 63 n then u
    else if hold then u.lineOn n (plainDetail n) else u.occur n (plainDetail n)

/-- Sources that this model's own state drives as levels; FAULT_OCCURRENCE raises every other source once (12 R332,
notes/assumptions/30). -/
def stateLevel (n : Nat) : Bool :=
  within 16 23 n || within 32 36 n || n == 38 || n == 39 || n == 40 || n == 50 || n == 51 || n == 55 || n == 56 || n == 58

/-- An occurrence of a source. A refused matrix path is recorded (11 R310); a lockstep mismatch is the cause of the cox's next reset (03 R69);
sources 59 to 63 are never raised (R333). -/
def State.faultOccurs (s : State) (source detail : Nat) : State :=
  let t := if source = 43 then
      (s.modAccess (fun a => { a with matrixAddr := detail, matrixInfo := s.free % 2 ^ 32 })).used.raise matrixStatus [0]
    else if source = 41 then s.modModes (fun m => { m with causePending := m.causePending ||| 8 }) else s
  t.occur source detail

/-! ### The limp picture (12 R340) -/

/-- A lane object of the launch configuration. -/
def Limp.launchNum (l : Limp) (index sub : Nat) : Nat := valNat (tabGet (objBlank index sub) l.launch (objKey index sub))

/-- The output stage of the limp picture: lane d's launch settings, no LUT, no dithering. -/
def State.limpOut (s : State) : OutSet :=
  let x := laneIx s.limp.lane 4
  { transfer := s.limp.launchNum x 5, gamma := s.limp.launchNum x 6, white := s.limp.launchNum x 7, depth := s.limp.launchNum x 8,
    dither := 0, lut := none }

/-- A bitmap's condition holds at the sampled GPIO levels. -/
def limpHolds (b : LimpBitmap) (gpio : Nat) : Bool :=
  match b.gpio with
  | none => true
  | some (pin, level) => decide (gpio.testBit pin = level)

/-- A pixel of a bitmap: an IDX8 sample with layer.encoding 0x04 and an ARGB8888 palette. -/
def limpPx (b : LimpBitmap) (white : Nat) (x y : Int) : Px :=
  let i := b.pixels.getD ((y - b.y).toNat * b.w + (x - b.x).toNat) 0
  toLinear 0x04 white false true (argb8888 (b.palette.getD i 0))

/-- The word of a pixel of the limp picture. -/
def State.limpWord (s : State) (r : LimpRecord) (gpio : Nat) (x y : Int) : Nat :=
  let o := s.limpOut
  let base : Px := { fillPx r.background with a := one19 }
  let shown := r.bitmaps.filter (fun b => limpHolds b gpio && (limpRect b).has x y)
  let (p, safe) := shown.foldl (fun (q : Px × Bool) b =>
    let v := limpPx b o.white x y
    (blend 0 v q.1, q.2 || decide (v.a ≠ 0))) (base, false)
  storedWord o (if safe then 1 else 3) 0 x.toNat y.toNat p

/-- The limp composer writes the whole of lane d's frame, and takes the expected CRC of each bitmap's rectangle. -/
def State.writeLimp (s : State) (gpio : Nat) : State :=
  match s.limp.record with
  | none => s
  | some r =>
    let d := s.limp.lane
    let t := s.setPixels d (((s.active d).pixels).map (fun p => (p, s.limpWord r gpio p.1 p.2)))
    t.modLimp (fun l => { l with gpio := gpio, expected := r.bitmaps.zipIdx.map (fun b =>
      (b.2, regionCrc (((limpRect b.1).pixels).map (fun p => t.pixel d p.1.toNat p.2.toNat)))) })

/-- A frame start of lane d under the limp composer (12 R339, R340). -/
def State.limpFrame (s : State) (gpio : Nat) : State :=
  let d := s.limp.lane
  let t := ((s.dropKept d).count (laneCount d 0) 1).modLane d (fun l =>
    { l with frameAt := s.now, timing := some (s.frameTiming d), stalls := [], lost := [], lastPixel := s.sentPixel d (s.laneW d - 1) (s.laneH d - 1) })
  (t.sendFrame d).writeLimp gpio

def State.limpReady (s : State) : Bool :=
  s.awake && s.limp.driving && !(s.lane s.limp.lane).gated && !s.modes.portsDisabled && s.modes.sleeping.isNone

end Sys2Proof.Machine
end

