-- ==== Sys2Proof/Machine/Launch.lean ====
section
/-! DEFINITION. Modes, LAUNCH, self-test, sleep and wake, supplies, reset release, thermal throttle (14 R384, R386, 15 R393 to R412,
17 R441, R447). -/

namespace Sys2Proof.Machine

open Sys2Proof

/-! ### Lanes at the start of LAUNCH and RUN (15 R396, R397, R402) -/

/-- A lane starts from its configuration: its domain is on, its port and clock still stopped, its regions armed, every tile damaged. -/
def State.launchLane (s : State) (n : Nat) : State :=
  let t := (s.setDomain (64 + n) true).modLane n (fun l =>
    { l.unplanned with mode := .running, gated := true, locked := false, link := .off, blLow := false, evaluated := true, porchSince := some s.now })
  let u := (List.range 32).foldl (fun v i => v.armRegion (n * 32 + i) (v.frame n + 1)) t
  (u.setReach n).damageAll n

/-- The blend program of the early-camera record, in effect on its lane as crew 0's program 1, which layer 0 names (09 R249, R250). -/
def State.earlyProgram (s : State) (n : Nat) (e : EarlyProgram) : State :=
  let uses (m : Nat) : Bool := e.steps.any (fun w => decide (stepOp w = 3) && decide (bits w 1 0 = m))
  let p : Program :=
    { owner := 0, lane := n, region := e.region, everyFrame := e.everyFrame, steps := e.steps, scaler := e.scaler, matrix := e.matrix, mesh := e.mesh,
      reaches := ((List.range 4).filter uses).filterMap (fun m => (meshReach e.mesh m (rect14 e.region)).map (fun q => (m, q))), inEffect := true }
  (({ s with programs := tabSet s.programs 1 p }).setNum (layerIx 0) 0x1C 1).setReach n

/-- The early-camera record shows its stream: layer 0 of crew 0 with rating CAMERA; its lane starts unless it is lane d (09 R249, R251). -/
def State.startEarly (s : State) : State :=
  match s.early with
  | none => s
  | some e =>
    let n := e.lane % 8
    let t := s.giveLayer 0 0
    let u := (e.objects.filter (fun p => decide (p.1 / 256 = layerIx 0))).foldl (fun v p => v.setKey p.1 p.2) t
    let v := (((u.setNum (layerIx 0) 2 n).setNum (layerIx 0) 3 1).setNum (layerIx 0) 6 2).setNum (layerIx 0) 0x18
      (u.slotNum (e.port % 8 * 4 + e.slot % 4) 1)
    let w := match e.program with
      | some p => v.earlyProgram n p
      | none => v
    if n = s.limp.lane then w else (w.setNum (laneIx n 0) 5 1).launchLane n

/-- The ROM's check with what an accepted image starts at once (14 R375, 15 R396). -/
def State.bootCheck (s : State) (a b : BootImage) : State :=
  let t := s.checkImages a b
  if t.modes.step = .configured then t.startEarly else t

/-- Lane d under the limp composer in LAUNCH: its launch timing on the active reference (15 R397). -/
def State.limpStart (s : State) (r : LimpRecord) : State :=
  let d := s.limp.lane
  ((s.modLimp (fun l => { l with record := some r, driving := true })).modLane d (fun l =>
    { l.unplanned with mode := .limp, gated := true, locked := false, blLow := false, lockOff := true })).modModes (fun m => { m with step := .limpLoaded })

def State.limpLoadReady (s : State) : Bool :=
  (s.awake && !s.modes.portsDisabled) && decide (s.modes.mode = .launch ∨ s.modes.mode = .factory) && decide (s.modes.step = .configured)

def State.planReady (s : State) : Bool :=
  (s.awake && !s.modes.portsDisabled) && decide (s.modes.mode = .launch ∨ s.modes.mode = .factory) && decide (s.modes.step = .limpLoaded)

/-- The plan is built; a full self-test that was deferred or asked for starts (15 R396 steps 4 and 5). -/
def State.buildPlan (s : State) : State :=
  s.takePlan.modModes (fun m => { m with step := .planned, selftest := if m.selftestAsked then 1 else m.selftest })

/-- A full self-test runs (15 R398). -/
def State.testRuns (s : State) : Bool :=
  s.coxUp && decide (s.modes.step = .planned) && decide (s.modes.selftest = 1) && s.modes.selftestAsked

/-- A full self-test is over (15 R398). -/
def State.testDone (s : State) (shells boathouse lp5 : List Nat) (limpOk : Bool) : State :=
  let passed := decide (shells = []) && decide (boathouse = []) && decide (lp5 = []) && limpOk
  let t := (s.modModes (fun m => { m with step := .selftest, selftest := if passed then 3 else 4, selftestAsked := false })).modPlacement
    (fun p => { p with shellOk := shells.foldl (fun w k => w &&& (0xFFFF ^^^ 2 ^ (k % 16))) p.shellOk })
  let u := shells.foldl (fun v k => v.occur (96 + k % 16) (k % 16)) t
  let w := boathouse.foldl (fun v k => v.occur (112 + k % 8) (k % 8)) u
  let x := lp5.foldl (fun v k => v.occur (120 + k % 8) (k % 8)) w
  if shells = [] then x else x.followShells

/-! ### The end of LAUNCH (14 R377, R386, 15 R396 step 6) -/

/-- Lanes, cameras and host ports that RUN needs are on; every enabled lane starts (15 R402). -/
def State.startLanes (s : State) : State :=
  let t := (List.range 8).foldl (fun u n => if u.laneOn n ∧ (u.lane n).mode = .off then u.launchLane n else u) s
  (List.range 8).foldl (fun u p => if u.num (camIx p 0) 1 = 1 then u.setDomain (72 + p) true else u) t

/-- An image that sets raise_min has reached RUN: the minimum version rises (14 R377). -/
def State.raiseMinimum (s : State) : State :=
  s.modSec (fun c => { c with fuses := { c.fuses with minVersion := max c.fuses.minVersion ((c.raiseMin).getD 0) }, raiseMin := none })

/-- Entry to RUN (15 R396 step 6, R397): lane d keeps the limp composer until its first catch. -/
def State.enterRun (s : State) : State :=
  ((s.setMode .run).modModes (fun m => { m with step := .ready })).raiseMinimum.startLanes

/-- LIMP entered without an occurrence: by request or as LAUNCH's target; a path that is not intact disables every port (12 R341,
15 R393). -/
def State.goLimp (s : State) : State :=
  let t := s.modModes (fun m => { m with step := .ready })
  if s.limpIntact then t.enterLimp else t.disablePorts

/-- The device enters its target mode (15 R396 step 6). FACTORY stays. -/
def State.enterTarget (s : State) : State :=
  if s.modes.mode = .factory then (s.modModes (fun m => { m with step := .ready })).startLanes
  else if s.num 0x2000 2 = 4 then s.goLimp
  else s.enterRun

def State.launchReady (s : State) : Bool :=
  s.coxUp && decide (s.modes.mode = .launch ∨ s.modes.mode = .factory) &&
  (decide (s.modes.step = .selftest) || (decide (s.modes.step = .planned) && !s.modes.selftestAsked))

/-- The steps before the last are done: with key RAM erased LAUNCH holds for a provisioning package, or goes to LIMP (14 R386). -/
def State.launchDone (s : State) : State :=
  if s.modes.mode = .factory ∨ s.sec.keysErased = false then s.enterTarget
  else if s.sec.fuses.keyKill ∨ s.sec.provisionWindow = 0 then s.goLimp
  else (s.modModes (fun m => { m with step := .hold })).modSec (fun c => { c with holdSince := s.now })

/-- LAUNCH holds for a provisioning package (14 R386). -/
def State.holding (s : State) : Bool := s.coxUp && decide (s.modes.mode = .launch) && decide (s.modes.step = .hold)

def State.holdOver (s : State) : Bool := s.holding && decide (s.sec.holdSince + s.sec.provisionWindow * 1_000_000_000 ≤ s.now)

/-- A provisioning package written: it ends a hold (14 R386, R389). -/
def State.provisioned (s : State) (data : List Byte) : State × Option Abort :=
  match s.provision data with
  | (t, none) => (if t.holding then t.enterTarget else t, none)
  | r => r

/-! ### Mode requests (15 R394, R395, 12 R342, R343) -/

/-- Entry to LAUNCH from RUN or LIMP (15 R395): lane d stays under a limp composer that drives it; what is not kept returns to its
documented default; the request's acceptance counts as reset release. It resets the cox, after a lockstep mismatch with that cause (03 R69,
notes/assumptions/77). -/
def State.relaunch (s : State) : State :=
  let d := s.limp.lane
  let keep := s.limp.driving && decide (s.modes.mode = .limp) && !s.modes.portsDisabled
  let s1 := s.setMode .launch
  let s2 := (List.range 8).foldl (fun t n => if keep ∧ n = d then t else t.stopLane n) s1
  let s3 := (s2.stopUnits.discardCrews).setPower (launchDomains ||| (if keep then 2 ^ (64 + d) else 0) |||
    (if bitOf s2.modes.straps 3 then 2 ^ 93 else 0))
  { s3 with
    objs := s3.objs.filter (fun p => within 0x7800 0x78FF (p.1 / 256) || (keep && decide (p.1 / 0x1_0000 = (laneIx d 0) / 0x100)))
    regions := []
    early := none
    limp := { s3.limp with record := none, driving := keep }
    smu := s3.smu.unplaced
    sec := { s3.sec with keys := none, raiseMin := none, debugOpen := false, scope := 0, challenge := none }
    placement := { blankPlacement with generation := s3.placement.generation }
    clocks := { s3.clocks with active := 0, noRef := false }
    modes := { s3.modes with
      step := .begun, portsDisabled := false, targetSet := false, releasedAt := s.now,
      cause := if bitOf s3.modes.causePending 3 then 8 else s3.modes.cause,
      causePending := if bitOf s3.modes.causePending 3 then s3.modes.causePending - 8 else s3.modes.causePending } }

/-- The target mode set by a request (15 R394). -/
def State.setTarget (s : State) (v : Nat) : State := (s.setNum 0x2000 2 v).modModes (fun m => { m with targetSet := true })

/-- A mode request: 2 LAUNCH, 3 RUN, 4 LIMP (15 R394, 14 R386). -/
def State.modeRequest (s : State) (v : Nat) : State × Option Abort :=
  if v ≠ 2 ∧ v ≠ 3 ∧ v ≠ 4 then (s, some .valueRange)
  else if s.modes.sleeping.isSome ∨ (v = 3 ∧ s.sec.keysErased) then (s, some .wrongMode)
  else match s.modes.mode with
    | .launch =>
      if s.modes.step = .hold then (s, some .wrongMode)
      else if v = 2 then (s, none) else (s.setTarget v, none)
    | .run => (if v = 2 then s.relaunch else if v = 4 then s.goLimp.setNum 0x2000 2 4 else s.setNum 0x2000 2 3, none)
    | .limp =>
      if v = 4 then (s, none)
      else if s.latchedAt 2 then (s, some .wrongMode)
      else (if v = 3 then s.relaunch.setTarget 3 else s.relaunch, none)
    | _ => (s, some .wrongMode)

/-- A mode request through SYS.MODE_REQ: a refused one raises mode_req_refused (03 R69, 15 R394). -/
def State.registerMode (s : State) (v : Nat) : State :=
  match s.modeRequest v with
  | (t, none) => t
  | (_, some _) => s.raise sysStatus [1]

/-! ### Sleep and wake (15 R399, R400) -/

/-- A wake source is enabled in POWER.WAKE_SRC. -/
def State.wakeEnabled (s : State) (w : WakeSource) : Bool :=
  bitOf (s.reg 0x1_0040 3) (match w with | .wakePin => 0 | .smuPulse0 => 1)

/-- An enabled wake source is active now. -/
def State.wakeActive (s : State) : Bool :=
  (s.wakeEnabled .wakePin && decide (s.modes.wakePinAt = some s.now)) || (s.wakeEnabled .smuPulse0 && decide (s.modes.pulse0At = some s.now))

/-- POWER.SLEEP_REQ: refused, or the shutdown begins (15 R399, 13 R363). -/
def State.sleepRequest (s : State) (v : Nat) : State :=
  if v < 2 ∧ s.awake ∧ (s.modes.mode = .run ∨ s.modes.mode = .limp) ∧ s.modes.sleeping = none ∧ s.smu.journey.kind = 0 ∧
     s.smu.verifying = false ∧ s.wakeActive = false
  then s.modModes (fun m => { m with sleeping := some (decide (v = 1)), wakeDuringSleep := false })
  else s.raise powerStatus [3]

/-- A wake source acts on the sleeping device (15 R400). -/
def State.wakeUp (s : State) (pulse : Bool) : State :=
  if s.modes.mode = .watch then s.modModes (fun m => { m with inReset := true, causePending := m.causePending ||| 4 })
  else s.modModes (fun m =>
    { m with pwrReq := true, causePending := m.causePending ||| 4, counting := true,
             wakePulses := if m.counting then m.wakePulses else b2n pulse,
             seconds := m.seconds + (s.now - m.standbySince) / 1_000_000_000, standbySince := s.now })

/-- The device asleep: in STANDBY only the island lives, in WATCH the SMU too (15 R392, R399 steps 3 to 6, R402). -/
def State.asleep (s : State) (watch : Bool) : State :=
  let t := s.resetDomains 0
  { t with
    regs := s.regs.filter (fun p => decide (p.1 = 0x1_0040))
    smu := if watch then s.smu.unplaced else s.smu.powerOff
    umpire := { t.umpire with nfaultLow := false }
    power := { blankPower with on := if watch then 2 ^ 95 else 0 }
    modes := { t.modes with mode := if watch then .watch else .standby, inReset := false, pwrReq := watch, standbySince := s.now,
                            counting := false, wakePulses := 0, seconds := 0 } }

/-- Every running lane has completed its current frame: its last active line has ended (15 R399 step 2). -/
def State.sleepReady (s : State) : Bool :=
  s.modes.sleeping.isSome && (List.range 8).all (fun n =>
    !((s.lane n).scans || decide ((s.lane n).mode = .limp)) || (s.lane n).gated || decide (s.activeEnd n ≤ s.lineNow n))

/-- A lane goes to rest: its panel power-off sequence, then its port turns off and its BLPWM goes low (15 R399 step 2). -/
def State.restLane (s : State) (n : Nat) : State :=
  if (s.lane n).mode = .off then s
  else if s.laneNum n 1 0xA = 0 ∨ (s.lane n).link ≠ .up then s.stopLane n
  else (s.send (.panelOff n (s.laneNum n 1 0xA))).stopLane n

/-- The sleep steps are complete (15 R399). -/
def State.sleepDone (s : State) : State :=
  match s.modes.sleeping with
  | none => s
  | some watch =>
    let t := ((List.range 8).foldl State.restLane s).stopBlocks
    let u := t.writeRecord.asleep watch
    if s.modes.wakeDuringSleep then u.wakeUp (decide (s.modes.wakePinAt = none)) else u

/-- A wake source becomes active: recorded, and acted on where it is enabled and the device sleeps or is going to (15 R399, R400). -/
def State.wakeEvent (s : State) (w : WakeSource) : State :=
  let t := s.modModes (fun m => match w with
    | .wakePin => { m with wakePinAt := some s.now }
    | .smuPulse0 => { m with pulse0At := some s.now })
  if !s.wakeEnabled w then t
  else if s.modes.sleeping.isSome then t.modModes (fun m => { m with wakeDuringSleep := true })
  else if (s.modes.mode = .standby ∨ s.modes.mode = .watch) ∧ s.modes.inReset = false then t.wakeUp (decide (w = .smuPulse0))
  else t

/-! ### Supplies and reset (15 R400, R406, R412, 12 R344, 17 R441) -/

/-- The switched supplies are present. -/
def State.powered (s : State) : Bool := !decide (s.modes.mode = .unpowered ∨ s.modes.mode = .standby)

def State.releaseReady (s : State) : Bool := s.modes.inReset || !s.powered

/-- Levels that stand at reset release act on the fresh umpire (12 R332, 13 R362, 08 R220). -/
def State.standingLevels (s : State) : State :=
  let t := if s.smu.running then s.smuFault else s
  if s.clocks.xtal32Failed then t.lineOn 39 0 else t

/-- A C3 source still held repeats its reaction at once (12 R344). -/
def State.repeatC3 (s : State) : State :=
  match (List.range 128).find? (fun n => s.heldC3.testBit n) with
  | some n => s.react n 3 0
  | none => s

/-- Reset release (15 R393, R401, R406): bits [5:0] of `straps` are the strap balls, bit 6 is TEST_EN. -/
def State.releaseReset (s : State) (straps : Nat) : State :=
  let fresh := !s.powered
  let factory := if fresh then bitOf straps 6 && !s.sec.fuses.fieldLock else decide (s.modes.mode = .factory)
  let power := if fresh then 1 + 32 * b2n s.umpire.c3.isSome else 0
  let t := s.resetDomains 0
  let u := { t with
    umpire := { t.umpire with nfaultLow := true }
    modes := { t.modes with mode := if factory then .factory else .launch, inReset := false, releasedAt := s.now, resetAt := s.now, causePending := 0,
                            cause := s.modes.causePending ||| power, straps := straps % 64, pwrReq := true } }
  (u.followNfault.standingLevels).repeatC3

/-- RESET_N low for `lowNs`: under 100 ns nothing, from 1 µs a reset, between them either (15 R406). -/
def State.resetPin (s : State) (lowNs : Nat) : State :=
  if lowNs < 100 then s
  else if 1000 ≤ lowNs then s.resetDomains 2
  else if s.free % 2 = 0 then s.used else s.used.resetDomains 2

/-- The supplies with a reset threshold: VDD_CORE, VDD_SRAM, VDD_FS, VDD_IO (17 R441). -/
def resetSupply (supply : Nat) : Bool := decide (supply = 0 ∨ supply = 1 ∨ supply = 2 ∨ supply = 7)

/-- A supply leaves its range; a core supply below its reset threshold resets the device (17 R441). -/
def State.supplyFails (s : State) (supply : Nat) (belowReset : Bool) : State :=
  let t := s.occur 53 supply
  if belowReset && resetSupply supply then t.resetDomains 0 else t

/-- VSTBY applied: its first second has the RC oscillator; without VDD_CORE the device is in STANDBY (15 R393, R404). -/
def State.applyStandby (s : State) : State :=
  s.modModes (fun m => { m with vstby := true, vstbyAt := s.now, rcWindow := true, mode := if m.mode = .unpowered then .standby else m.mode,
                                standbySince := if m.mode = .unpowered then s.now else m.standbySince })

/-- VSTBY removed (15 R412). -/
def State.removeStandby (s : State) : State :=
  s.islandLost.modModes (fun m => { m with rcWindow := false, mode := if m.mode = .standby then .unpowered else m.mode })

/-- VDD_CORE absent for 10 ms (12 R344): a device that was asleep keeps its wake. -/
def State.cyclePower (s : State) : State :=
  let t := s.unpower (if s.modes.vstby then .standby else .unpowered)
  if s.powered then t.modModes (fun m => { m with standbySince := s.now })
  else t.modModes (fun m => { m with causePending := s.modes.causePending, pwrReq := s.modes.pwrReq })

/-! ### Thermal throttle and the crystal (08 R220, 15 R404, 17 R447) -/

/-- A further throttle step is due `ms` after the one before (17 R447). -/
def State.stepDue (s : State) (ms : Nat) : Bool := s.power.throttledAt.all (fun t => decide (t + ms * 1_000_000 ≤ s.now))

/-- POWER.THROTTLE changes; source 51 is active from step 4 on (12 R333). -/
def State.setThrottle (s : State) (k : Nat) : State :=
  let t := (s.modPower (fun p => { p with throttle := k, throttledAt := some s.now })).raise powerStatus [4]
  if 4 ≤ k then t.lineOn 51 0 else t.lineOff 51

/-- The crystal fails: the SMU's time is no longer valid (08 R220, 13 R354). -/
def State.crystalFails (s : State) : State :=
  if s.modes.rcWindow then s else s.xtal32Fail.modSmu (fun u => { u with timeValid := false })

/-- The first second of VSTBY is over (15 R404). -/
def State.rcWindowEnds (s : State) : State :=
  (s.modModes (fun m => { m with rcWindow := false })).modSmu (fun u => { u with timeValid := u.running && !s.clocks.xtal32Failed })

end Sys2Proof.Machine
end

