-- ==== Sys2Proof/Machine/Cascade.lean ====
section
/-! DEFINITION. The cascade as one of its devices sees it: Silith links, the reference and the frame-start marker, the loss of a link or of
the master, node summaries, events, spans (16 R413 to R427). -/

namespace Sys2Proof.Machine

open Sys2Proof

/-! ### Links and nodes (16 R413 to R415, R422) -/

def State.modLink (s : State) (k : Nat) (f : Link → Link) : State :=
  s.modCascade (fun c => { c with links := c.links.zipIdx.map (fun p => if p.2 = k then f p.1 else p.1) })
def State.modNode (s : State) (n : Nat) (f : Node → Node) : State := { s with nodes := tabMod blankNode s.nodes n f }

/-- CASC_EN is high (16 R414). -/
def State.cascEnabled (s : State) : Bool := bitOf s.modes.straps 3

/-- A subordinate of a cascade. -/
def State.subordinate (s : State) : Bool := s.cascEnabled && !s.cascMaster

/-- The cascade links are powered (15 R402). -/
def State.slkOn (s : State) : Bool := s.awake && s.cascEnabled && s.domainOn 93

/-- A link of casc.links_expected. -/
def State.linkExpected (s : State) (k : Nat) : Bool := (s.num 0x7C00 2).testBit k && decide (k < 2)

/-- Source 55 is active while an expected link is not up (16 R424). -/
def State.linkLevel (s : State) : State :=
  if s.slkOn && [0, 1].any (fun k => s.linkExpected k && !decide ((s.link k).mode = .up)) then s.lineOn 55 0 else s.lineOff 55

/-- Expected links that are off start their training; a link that is no longer expected turns off (16 R414). -/
def State.startLinks (s : State) : State :=
  ([0, 1].foldl (fun t k =>
    if !t.slkOn then t
    else if t.linkExpected k then (if (t.link k).mode = .off then t.modLink k (fun l => { l with mode := .training }) else t)
    else t.modLink k (fun _ => blankLink)) s).linkLevel

/-- A change of a node's summary: the generation advances, node_change is raised; a change of reachability, mode or umpire word is
posted to the manager crews (16 R422). -/
def State.nodeChanged (s : State) (n : Nat) (post : Bool) : State :=
  let t := (s.modNode n (fun x => { x with generation := (x.generation + 1) % 2 ^ 32 })).raise slkStatus [4]
  if post then t.postManagers (eventWord 0x1D 0xF n 0 (t.node n).generation) else t

/-- A node becomes reachable or unreachable. -/
def State.setReachable (s : State) (n : Nat) (r : Bool) : State :=
  if (s.node n).reachable = r then s else (s.modNode n (fun x => { x with reachable := r })).nodeChanged n s.cascMaster

/-- The reason a bring-up is refused with; 0 where it is not (16 R415, R427, 14 R385). -/
def State.linkRefusal (s : State) (peer : Nat) (peerMaster authentic loop : Bool) : Nat :=
  if peer % 4 = s.ownNode then 3
  else if peerMaster && s.cascMaster then 4
  else if loop then 5
  else if s.sec.keys.isNone then 2
  else if !authentic || s.sec.lock then 1
  else 0

/-- The cascade reference is the active one from now on; running lanes relock on it (16 R416, R425, 08 R223). -/
def State.takeCascadeRef (s : State) : State :=
  if s.clocks.active = 3 then s else s.switchRef 3

/-- The master is reachable again (16 R424, R425, R427). -/
def State.masterReturns (s : State) : State :=
  if s.cascade.masterLost then ((s.modCascade (fun c => { c with masterLost := false })).lineOff 56).raise slkStatus [7] else s

/-- A bring-up's outcome: up, or refused with a reason (16 R415). -/
def State.linkBringup (s : State) (k peer : Nat) (peerMaster towards authentic loop : Bool) (delay : Nat) : State :=
  let r := s.linkRefusal peer peerMaster authentic loop
  if r ≠ 0 then
    ((s.modLink k (fun l => { l with mode := .refused, peer := peer % 4, reason := r, delay := 0, refusedAt := s.now })).raise slkStatus [3]).linkLevel
  else
    let t := (((s.modLink k (fun l => { l with mode := .up, peer := peer % 4, towards := towards, reason := 0, delay := delay % 2 ^ 16 })).raise
      slkStatus [1]).setReachable (peer % 4) true).linkLevel
    if t.subordinate && towards then t.masterReturns.takeCascadeRef else t

def State.linkUpReady (s : State) (k : Nat) : Bool :=
  s.slkOn && s.linkExpected k && decide ((s.link k).mode = .training ∨ (s.link k).mode = .authenticating ∨ (s.link k).mode = .off)

/-- A refused link is tried again (16 R415). -/
def State.linkRetry (s : State) (k : Nat) : State := s.modLink k (fun l => { l with mode := .training, reason := 0 })

/-- The ROM's check with everything an accepted image's configuration starts (15 R396 steps 1 and 2). -/
def State.bootAll (s : State) (a b : BootImage) : State := (s.bootCheck a b).startLinks

/-! ### Loss (16 R424) -/

/-- Every running member of the cascade group loses its source (07 R189). -/
def State.loseCascade (s : State) : State :=
  (List.range 8).foldl (fun t n => if t.laneNum n 6 2 = 1 ∧ (t.lane n).mode = .running then t.genlockLoss n else t) s

/-- Spans whose partner is no longer reachable wait for their resynchronisation (16 R424, R425). -/
def State.holdSpans (s : State) : State :=
  s.modCascade (fun c => { c with spanHeld := (List.range 4).foldl (fun w j =>
    if s.num (spanIx j) 1 ≠ 0xFF ∧ (s.node (s.num (spanIx j) 2 % 4)).reachable = false then w ||| 2 ^ j else w) c.spanHeld })

/-- A link is lost: it trains again; nodes beyond it are unreachable; a subordinate that loses its master's side leaves the cascade
reference. -/
def State.linkLoss (s : State) (k : Nat) : State :=
  let l := s.link k
  let gone := (List.range 4).filter (fun n => decide (n ≠ s.ownNode) && decide (l.mode = .up) && s.behind k n)
  let t := (s.modLink k (fun x => { x with mode := .training, towards := false, delay := 0 })).raise slkStatus [2]
  let u := ((gone.foldl (fun v n => v.setReachable n false) t).holdSpans).linkLevel
  if u.subordinate && decide (l.mode = .up) && l.towards then
    (if u.clocks.active = 3 then u.failover else u).loseCascade
  else u

def State.linkLossReady (s : State) (k : Nat) : Bool :=
  s.slkOn && decide ((s.link k).mode = .up ∨ (s.link k).mode = .training ∨ (s.link k).mode = .authenticating) && s.linkExpected k

/-- The master is lost while its link is up: source 56 (16 R424). -/
def State.loseMaster (s : State) : State :=
  (((s.modCascade (fun c => { c with masterLost := true })).raise slkStatus [6]).loseCascade).lineOn 56 0

/-- A subordinate with its master in reach. -/
def State.masterHere (s : State) : Bool := s.slkOn && s.subordinate && s.markerPath

/-- A subordinate whose master was lost with its link still up. -/
def State.masterGone (s : State) : Bool :=
  s.slkOn && s.subordinate && s.cascade.masterLost && s.cascade.links.any (fun l => decide (l.mode = .up) && l.towards)

def State.masterBack (s : State) : State := s.masterReturns.takeCascadeRef

/-! ### Markers (16 R417, R420) -/

/-- A running lane of the cascade group. -/
def State.cascadeLane (s : State) (n : Nat) : Bool := decide (s.laneNum n 6 2 = 1) && decide ((s.lane n).mode = .running) && !(s.lane n).gated

/-- The master's catch comes first: it is the group's, and the linked commits of cascade lanes take effect (04 R89, 16 R417). -/
def State.catchLinked (s : State) : State :=
  let ms := (List.range 8).filter s.cascadeLane
  let first := ms.all (fun n => s.groupCatch n)
  if !s.applies || !first then s
  else
    let here := s.commits.filter (fun k => k.linked && (lanesIn k.lanes).all ms.contains)
    let s1 := (here.filter (fun k => !k.eligible && s.fenceExpired (((lanesIn k.lanes).head?).getD 0) k)).foldl
      (fun t k => t.expire (((lanesIn k.lanes).head?).getD 0) k) s
    let s2 := { s1 with commits := s1.commits.map (fun k =>
      if here.any (fun x => decide (x.seq = k.seq)) && !k.eligible then { k with deferred := true } else k) }
    ms.foldl (fun t n => t.modLane n (fun l => { l with groupAt := some s.now }))
      ((here.filter (fun k => k.eligible)).foldl State.applyCommit s2)

/-- A frame-start marker, compensated for its path's delay. -/
def State.takeMarker (s : State) (masterCatch : Bool) : State :=
  let t := if masterCatch then s.catchLinked else s
  t.modCascade (fun c => { c with markerAt := some s.now, catchAt := if masterCatch then some s.now else c.catchAt })

/-- A span catch that had to go on without its marker applies nothing (16 R420). -/
def State.lateMarker (s : State) (n : Nat) : State :=
  (((s.raise slkStatus [0]).markCatch n).bindIndication n).bindHeat n (s.frame n + 1)

/-! ### Summaries, events, spans (16 R422, R423, R425) -/

/-- A subordinate's summary reaches the master. -/
def State.takeSummary (s : State) (n mode : Nat) (nfaultLow : Bool) (links umpire : Nat) : State :=
  let x := s.node n
  let told := decide (x.reachable = false ∨ x.mode ≠ mode ∨ x.umpire ≠ umpire)
  let t := s.modNode n (fun y => { y with mode := mode, nfaultLow := nfaultLow, links := links, umpire := umpire, reachable := true,
                                          updatedAt := s.uptime })
  if told || decide (x.nfaultLow ≠ nfaultLow ∨ x.links ≠ links) then t.nodeChanged n told else t

def State.summaryReady (s : State) (n : Nat) : Bool :=
  s.slkOn && s.cascMaster && decide (n < 4) && decide (n ≠ s.ownNode) && [0, 1].any (fun k => decide ((s.link k).mode = .up))

/-- SLK.EVENT_TX written: a pulse to each named node that has a path. -/
def State.sendEvents (s : State) (mask : Nat) : State :=
  (List.range 4).foldl (fun t n => if mask.testBit n ∧ n ≠ s.ownNode ∧ (s.node n).reachable then t.send (.slkEvent n (20 + s.ownNode)) else t) s

/-- A span's surfaces have been copied again: its commits are accepted again (16 R425). -/
def State.spanCopied (s : State) (j : Nat) : State :=
  (s.modCascade (fun c => { c with spanHeld := c.spanHeld &&& (0xF ^^^ 2 ^ j) })).raise slkStatus [5]

def State.spanCopyReady (s : State) (j : Nat) : Bool :=
  s.slkOn && s.cascMaster && s.cascade.spanHeld.testBit j && decide (j < 4) && (s.node (s.num (spanIx j) 2 % 4)).reachable

/-- casc.reachable: the other nodes that have a path (16 R426). -/
def State.reachableMask (s : State) : Nat := (List.range 4).foldl (fun w n => if n ≠ s.ownNode ∧ (s.node n).reachable then w ||| 2 ^ n else w) 0

/-- casc.node: this node's number, master, CASC_EN (16 R426). -/
def State.nodeByte (s : State) : Nat := s.ownNode + 4 * b2n s.cascMaster + 8 * b2n s.cascEnabled

end Sys2Proof.Machine
end

