-- ==== Sys2Proof/Machine/CamSetup.lean ====
section
/-! DEFINITION. Writes of the camera port, stream and forwarding objects: checks and effects (09 R230, R231, R234, R235, R245, R246,
R252). -/

namespace Sys2Proof.Machine

open Sys2Proof

/-! ### Ports (09 R230, R231) -/

/-- The logical lanes in use name different physical lanes; C-PHY has no map (09 R231). -/
def laneMapOk (phy lanes map : Nat) : Bool :=
  decide (phy = 1) ||
  (List.range lanes).all (fun i => (List.range i).all (fun j => decide (bits map (4 * i + 1) (4 * i) ≠ bits map (4 * j + 1) (4 * j))))

/-- The values form a receiver configuration of the table (09 R230). -/
def State.receiverOk (s : State) (p : Nat) : Bool :=
  let phy := s.num (camIx p 0) 2
  let lanes := s.num (camIx p 0) 3
  let rate := s.num (camIx p 0) 4
  (if phy = 0 then within 1 4 lanes && within 80 4500 rate else within 1 3 lanes && within 80 6000 rate) &&
  laneMapOk phy lanes (s.num (camIx p 0) 5)

/-- What a write of a port object is refused with (09 R230, R235). -/
def State.portError (s : State) (p sub v : Nat) : Option Abort :=
  if sub = 1 then
    (if v = 1 then (if s.camOn p || s.receiverOk p then none else some .valueConflict)
     else if [0, 1, 2, 3].any (fun i => s.slotOn (p * 4 + i)) then some .valueConflict else none)
  else if within 2 5 sub && s.camOn p then some .busy
  else none

/-! ### Streams (09 R234, R235) -/

/-- Samples per second × 100 of a slot. -/
def State.slotLoad (s : State) (k : Nat) : Nat := s.streamW k * s.streamH k * s.slotNum k 5

/-- A slot may be enabled (09 R234). -/
def State.slotMayStart (s : State) (k : Nat) : Bool :=
  let w := s.streamW k
  let h := s.streamH k
  let others := s.enabledSlots.filter (fun j => decide (j ≠ k))
  decide (s.slotNum k 1 ≠ 0xFF) && !others.any (fun j => decide (s.slotNum j 1 = s.slotNum k 1)) &&
  !others.any (fun j => decide (j / 4 = k / 4) && decide (s.slotNum j 2 = s.slotNum k 2) && decide (s.slotNum j 3 = s.slotNum k 3)) &&
  s.camOn (k / 4) && decide (w % 2 = 0) && within 64 8192 w && within 32 8192 h && decide (w * h ≤ 8_300_000) &&
  decide (((k :: others).map s.slotLoad).sum ≤ 200_000_000_000)

/-- A slot is in use: shown, locked to, or forwarded (09 R235). -/
def State.slotUsed (s : State) (k : Nat) : Bool :=
  let stream := s.slotNum k 1
  (List.range 8).any (fun n => s.showsStream n stream) || !(s.lockedTo stream).isEmpty || s.fwdOn k

/-- What a write of a stream object is refused with. -/
def State.streamError (s : State) (k sub v : Nat) : Option Abort :=
  if sub = 6 then
    (if v = 1 then (if s.slotOn k || s.slotMayStart k then none else some .valueConflict)
     else if s.slotOn k && s.slotUsed k then some .valueConflict else none)
  else if s.slotOn k then some .busy
  else none

/-- cam.stream_enable written: a slot that starts waits for a frame start; one that stops has no ring (09 R235, R252). -/
def State.writeStream (s : State) (k v : Nat) : State :=
  let was := s.slotOn k
  let t := s.setNum (camIx (k / 4) (0x10 + k % 4)) 6 v
  if v = 1 ∧ was = false then (t.waitSlot k).modSlot k (fun q => { q with startedAt := none, isOpen := false })
  else if v = 0 then
    t.modSlot k (fun q => { blankSlot with frames := q.frames, lastFlags := q.lastFlags, fwdFrames := q.fwdFrames,
                                           fwdIncomplete := q.fwdIncomplete, channel := q.channel })
  else t

/-! ### Forwarding (09 R245, R246) -/

/-- The forwarding objects meet 09 R246. -/
def State.fwdOk (s : State) (k : Nat) : Bool :=
  let stream := s.slotNum k 1
  decide (s.fwdNum k 5 % 64 = 0) && decide (s.fwdNum k 6 % 64 = 0) && decide (s.fwdBytes k ≤ s.fwdNum k 6) &&
  decide (s.fwdNum k 6 * s.streamH k ≤ s.fwdNum k 7) && s.crewEnabled (s.fwdNum k 3) && s.crewRight (s.fwdNum k 3) 1 &&
  ((List.range 8).all (fun n => !(s.laneOn n && s.leadSet n && s.showsStream n stream)) || s.lineDone k)

/-- The highest-numbered idle MOVE channel (09 R245). -/
def State.idleChannel (s : State) : Option Nat :=
  ((List.range 64).map (fun i => 63 - i)).find? (fun k => decide ((s.channel k).mode = .idle) && (s.channel k).managed.isNone)

/-- fwd.enable = 1 (09 R245): checked, admitted as an adjustment of the plan, given a channel. -/
def State.startFwd (s : State) (c k : Nat) : State × Option Abort :=
  if s.fwdOn k then (s, none)
  else if !s.fwdOk k then (s, some .valueConflict)
  else
    let before := s.withPending []
    let g := before.setNum (camIx (k / 4) (0x30 + k % 4)) 1 1
    match g.planAdmission before, s.idleChannel with
    | some q, _ => (s.recordRefusal c (some q), some .oversubscribed)
    | none, none => (s, some .busy)
    | none, some ch =>
      let t := ((((s.setNum (camIx (k / 4) (0x30 + k % 4)) 1 1).modSlot k (fun q => { q with channel := some ch })).modChannel ch
        (fun x => { x with managed := some k, mode := .waiting, err := 0, pending := 0, outer := 0, middle := 0, inFlight := [] })).setDomain 92 true).lp5Wake g
      (if before.planOutputs ≠ g.planOutputs then t.replan else t, none)

/-- fwd.enable = 0: the channel is given back. -/
def State.stopFwd (s : State) (k : Nat) : State :=
  if !s.fwdOn k then s
  else
    let t := (s.setNum (camIx (k / 4) (0x30 + k % 4)) 1 0).modSlot k (fun q => { q with channel := none, fwd := [] })
    let u := match (s.slot k).channel with
      | some ch => t.modChannel ch (fun _ => { blankChannel with leftover := (s.channel ch).leftover, transfers := (s.channel ch).transfers })
      | none => t
    if (s.withPending []).planOutputs ≠ (u.withPending []).planOutputs then u.replan else u

/-- Whether a camera object's write is one of an enabled forwarding's other objects (09 R252). -/
def State.fwdError (s : State) (k sub : Nat) : Option Abort := if sub ≠ 1 ∧ s.fwdOn k then some .busy else none

/-! ### One write of a camera object -/

/-- A camera object written by a crew: block `b` of port `p`. The value is in its own range. -/
def State.writeCam (s : State) (c p b sub : Nat) (x : Val) : State × Option Abort :=
  let v := valNat x
  let set : State × Option Abort := (s.setObj (camIx p b) sub x, none)
  if b = 0 then
    (match s.portError p sub v with
     | some a => (s, some a)
     | none => (if sub = 1 ∧ v = 1 then (set.1.setDomain (72 + p) true).lp5Wake set.1 else set.1, none))
  else if b / 0x10 = 1 then
    (match s.streamError (p * 4 + b % 4) sub v with
     | some a => (s, some a)
     | none => if sub = 6 then (s.writeStream (p * 4 + b % 4) v, none) else (set.1.lp5Wake set.1, set.2))
  else if b / 0x10 = 3 then
    (match s.fwdError (p * 4 + b % 4) sub with
     | some a => (s, some a)
     | none => if sub ≠ 1 then set else if v = 1 then s.startFwd c (p * 4 + b % 4) else (s.stopFwd (p * 4 + b % 4), none))
  else set

end Sys2Proof.Machine
end

