-- ==== Sys2Proof/Machine/Hosts.lean ====
section
/-! DEFINITION. Host ports and what the hosts reach through them: links, functions, the surface aperture, translation invalidation,
completion time-outs (01 R10, 02 R26, 04 R73, 11 R286 to R294, R315 to R317). -/

namespace Sys2Proof.Machine

open Sys2Proof

/-! ### Links (11 R287, R289, R317) -/

/-- A host port that the launch configuration enables and that is not held in reset. -/
def State.portUp (s : State) (p : Nat) : Bool := s.configured && s.domainOn (86 + p) && !(s.port p).perst && decide (p < 4)

/-- The crews of a port. -/
def crewsOf (p : Nat) : List Nat := (List.range 128).map (fun f => p * 128 + f)

/-- The link goes down: link_down, the port's umpire source; a pop that waits has no one left to answer. -/
def State.linkDown (s : State) (p : Nat) : State :=
  let t := s.modPort p (fun x => { x with linkUp := false, l0 := false, lanes := 0, speed := 0, tags := 0 })
  let u := { t with crews := t.crews.map (fun (e : Nat × Crew) => if e.1 / 128 = p then (e.1, { e.2 with popSince := none }) else e) }
  (u.raise (hostStatus p) [0]).lineOn (32 + p) p

/-- The link comes up with its negotiated width and speed. -/
def State.linkUp (s : State) (p lanes speed : Nat) : State :=
  ((s.modPort p (fun x => { x with linkUp := true, l0 := true, lanes := lanes % 16, speed := speed % 8 })).raise (hostStatus p) [1]).lineOff (32 + p)

/-- A change of width or speed (06 R142, R148). -/
def State.retrain (s : State) (p lanes speed : Nat) : State :=
  if (s.port p).lanes = lanes % 16 ∧ (s.port p).speed = speed % 8 then s
  else
    let t := (s.modPort p (fun x => { x with lanes := lanes % 16, speed := speed % 8 })).raise (hostStatus p) [2]
    if (s.withPending []).planOutputs ≠ (t.withPending []).planOutputs then t.replan else t

/-- PERST asserted: the link and the configuration space are reset, the crews stay (11 R287). -/
def State.assertPerst (s : State) (p : Nat) : State :=
  let t := (s.modPort p (fun x => { x with perst := true, crs := false, vfEnable := false, numVfs := 0 })).raise (hostStatus p) [5]
  if (s.port p).linkUp then t.linkDown p else t

def State.deassertPerst (s : State) (p : Nat) : State := s.modPort p (fun x => { x with perst := false, crs := true })

/-- Functions leave or join the bus; their crews keep their state (11 R289). -/
def State.changeVfs (s : State) (p : Nat) (enable : Bool) (numVfs : Nat) : State :=
  s.modPort p (fun x => { x with vfEnable := enable, numVfs := min 127 numVfs })

/-- A host reaches a crew's function: it is on the bus and its port answers (11 R287, 15 R409). -/
def State.busOpen (s : State) (c : Nat) : Bool :=
  s.coxUp && s.functionPresent c && !(s.port (c / 128)).crs && s.domainOn (86 + c / 128)

/-! ### The surface aperture (04 R73, 11 R290) -/

/-- An access within the aperture. -/
def State.apertureOpen (s : State) (c offset n : Nat) : Bool := s.busOpen c && decide (offset + n ≤ 0x1000_0000) && decide (c < 512)

/-- The device address of the unit that holds a byte: 32 bytes in the boathouse, 8 in LP5X (11 R290). -/
def unitAddress (c offset : Nat) (lp5 : Bool) : Nat :=
  let u := if lp5 then 8 else 32
  (Config.granuleBase c (offset / 0x20_0000) / 0x20_0000 * 0x20_0000 + offset % 0x20_0000) / u * u

/-- A host read: the stored bytes, zeros where nothing is backed; an uncorrectable error at an aperture offset, or in a unit that a scrub has found
bad, poisons it. -/
def State.apertureRead (s : State) (c offset n : Nat) (bad : Option (Bool × Nat)) : State :=
  let unit := (bad.map (fun b => (b.1, unitAddress c b.2 b.1))).or (s.badRead c offset n)
  let t := s.send (.readBytes c (memReads s.aperture (apertureKey c offset) n) unit.isSome)
  match unit with
  | none => t
  | some (lp5, a) => t.unitError lp5 (a % 2 ^ 32)

/-- A host write: backed where needed, or discarded with a translation fault (04 R73). -/
def State.apertureWrite (s : State) (c offset : Nat) (data : List Byte) : State := (s.writeCrew c false offset data 7 0).1

/-! ### Translation invalidation (11 R292, R316) -/

/-- The crew's cached entries go; xlt_busy reads 1 until XLT_INVAL_DONE. -/
def State.xltInvalidate (s : State) (c : Nat) : State := s.modCrew c (fun k => { k with xltCache := [], xltBusy := true })

def State.xltDone (s : State) (c : Nat) : State := (s.modCrew c (fun k => { k with xltBusy := false })).raiseCrew c 1

/-! ### Completion time-outs (11 R315, R317) -/

/-- An outbound read timed out: cpl_timeout and the port's source; a mover or utility DMA burst that made it has a bus error
(10 R275, R280). -/
def State.cplTimeout (s : State) (p : Nat) (reader : Option BusError) : State :=
  let t := (s.raise (hostStatus p) [3]).occur (32 + p) p
  match reader with
  | none => t
  | some e =>
    if e.channel < 64 then (if t.mover.stopping.isNone ∧ t.mover.stoppedAll = false then t.busError e [] else t)
    else t.udmaFail e.channel

end Sys2Proof.Machine
end

