-- ==== Sys2Proof/Machine/Reading.lean ====
section
/-! DEFINITION. What a read of each object answers: its value in effect, or what its state comes to (02 R25, R30, R48 to R50, R52, 05 R131,
R136, 06 R159, R160, 07 R198, 08 R225, R226, 09 R252, 10 R283, 12 R331, R338, R349, 13 R367, R371, 14 R390, 16 R426). -/

namespace Sys2Proof.Machine

open Sys2Proof

/-! ### Codes of states -/

def LaneMode.code : LaneMode → Nat
  | .off => 0 | .running => 1 | .selfRefresh => 2 | .retiming => 3 | .limp => 4

def LinkMode.code : LinkMode → Nat
  | .off => 0 | .waitingHpd => 1 | .training => 2 | .up => 3 | .failed => 4 | .lowPower => 5

def SlotMode.code : SlotMode → Nat
  | .disabled => 0 | .waiting => 1 | .streaming => 2 | .lost => 3

/-- mover.state: running and waiting read as 1 (10 R283). -/
def ChMode.entry : ChMode → Nat
  | .idle => 0 | .running => 1 | .waiting => 1 | .stopped => 2 | .error => 3

/-- A 32-bit counter shown in the dictionary: the low bits of the live one (03 R63). -/
def State.low (s : State) (o : Nat) : Nat := s.counter o % 2 ^ 32

/-! ### Lanes -/

/-- lane.discipline. -/
def State.discipline (s : State) (n : Nat) : Nat := b2n (s.lead n)

/-- LANE.STATE.state: of an enabling lane, whose RETIME has no step 1 to 3, off until F0 and then running (07 R194, notes/assumptions/16). -/
def Lane.stateCode (l : Lane) : Nat :=
  if l.retime.any (fun r => r.enabling) then b2n (l.retime.any (fun r => r.f0)) else l.mode.code

/-- RETIMING is set: in step 1 of a RETIME (07 R192), which enabling a lane does not have (R194). -/
def Lane.isRetiming (l : Lane) : Bool := l.retime.any (fun r => !r.enabling)

/-- lane.flags (02 R50): LATE commit waiting, RETIMING, in a genlock group, variable blanking on. -/
def State.laneFlags (s : State) (n : Nat) : Nat :=
  b2n (s.commits.any (fun k => k.late && k.lanes.testBit n)) + 2 * b2n (s.lane n).isRetiming +
  4 * b2n (decide (s.laneNum n 6 1 ≠ 0)) + 8 * b2n (decide (s.laneNum n 2 1 = 1))

/-- lane.pending_seq: the latest pending commit (04 R93). -/
def State.pendingSeq (s : State) (n : Nat) : Nat :=
  ((s.commits.filter (fun k => k.lanes.testBit n)).getLast?.map Commit.seq).getD 0

/-- lane.line: none of a lane that is off; where the timing generator is stopped, the line it stopped at (07 R195, 08 R218). -/
def State.laneLine (s : State) (n : Nat) : Nat :=
  let l := s.lane n
  if l.mode = .off then 0
  else (if l.mode = .selfRefresh ∨ l.gated ∨ l.retime.any (fun r => r.idle && !r.f0) then l.heldLine else s.lineNow n) % 2 ^ 16

/-- A lane's objects that are no parameters: block `b`, subindex `sub`. -/
def State.readLane (s : State) (n b sub : Nat) : Option Val :=
  let l := s.lane n
  match b, sub with
  | 0, 0x01 => some (.num l.stateCode)
  | 0, 0x02 => some (.num (s.discipline n))
  | 0, 0x03 => some (.num (s.laneFlags n))
  | 0, 0x04 => some (.num (s.frame n % 2 ^ 32))
  | 0, 0x06 => some (.num (s.laneLine n))
  | 0, 0x12 => some (.num 0)
  | 0, 0x13 => some (.num 0)
  | 0, 0x16 => some (.num (s.pendingSeq n))
  | 0, 0x17 => some (.num l.appliedSeq)
  | 0, 0x18 => some (.num l.presentedSeq)
  | 2, 7 => some (.num l.reachDown)
  | 2, 8 => some (.num l.reachUp)
  | 3, 1 => some (.num (s.low (laneCount n 0x08)))
  | 3, 2 => some (.num (s.low (laneCount n 0x10)))
  | 3, 3 => some (.num (s.low (laneCount n 0x18)))
  | 3, 4 => some (.num (s.low (laneCount n 0x20)))
  | 3, 5 => some (.num (s.low (vrrCount n 0)))
  | 3, 6 => some (.num (s.low (vrrCount n 8)))
  | 3, 7 => some (.num (s.low (laneCount n 0x38)))
  | 5, 0xD => some (.num (l.wbFrames % 2 ^ 32))
  | 5, 0xE => some (.num (l.wbAbandoned % 2 ^ 32))
  | 7, 0x10 => some (.num l.link.code)
  | 7, 0x12 => some (.bytes l.dsiRsp)
  | _, _ => none

/-! ### Cameras, crews, layers, regions -/

def State.readCam (s : State) (p b sub : Nat) : Option Val :=
  let k := p * 4 + b % 4
  let q := s.slot k
  match b / 0x10, sub with
  | 0, 7 => some (.num (s.camState p))
  | 0, 8 => some (.num ((s.cam p).crcErrors % 2 ^ 32))
  | 0, 9 => some (.num ((s.cam p).headerErrors % 2 ^ 32))
  | 0, 0xA => some (.num ((s.cam p).headerCorrected % 2 ^ 32))
  | 0, 0xB => some (.num ((s.cam p).dtDrops % 2 ^ 32))
  | 1, 7 => some (.num (if s.camOn p ∧ s.slotOn k then q.mode.code else 0))
  | 1, 8 => some (.num (q.frames % 2 ^ 32))
  | 1, 9 => some (.num q.lastFlags)
  | 3, 9 => some (.num (q.channel.getD 0xFF))
  | 3, 0xA => some (.num (q.fwdFrames % 2 ^ 32))
  | 3, 0xB => some (.num (q.fwdIncomplete % 2 ^ 32))
  | _, _ => none

def State.readCrewObj (s : State) (c row sub : Nat) : Option Val :=
  match row, sub with
  | 0, 2 => some (.num (s.crewState c))
  | 1, 3 => some (.num (s.layersUsed c))
  | 3, 1 => some (.num (s.low (crewCount c 0)))
  | 3, 2 => some (.num (s.low (crewCount c 8)))
  | 3, 3 => some (.num (s.crew c).lastCommit)
  | 3, 4 => some (.num (s.low (crewCount c 0x18)))
  | _, _ => none

/-- layer.status (04 R78, 05 R130, 06 R166): 0 off, 1 composed, 2 flattened, 3 shed. -/
def State.layerStatus (s : State) (l : Nat) : Nat :=
  if (s.layer l).owner.isNone ∨ s.lyr l 6 = 0 ∨ s.laneOn (s.lyr l 2) = false then 0
  else if s.frozen l then 3
  else if s.isFlat (s.lyr l 2) l then 2 else 1

def State.readLayer (s : State) (l sub : Nat) : Option Val :=
  match sub with
  | 0x01 => some (.num ((s.layer l).owner.getD 0xFFFF))
  | 0x1D => some (.num 0)
  | 0x1E => some (.num (s.layerStatus l))
  | _ => none

def State.readRegion (s : State) (k sub : Nat) : Option Val :=
  let r := s.region k
  match sub with
  | 3 => some (.num r.expected)
  | 0x0F => some (.num ((r.crcs.head?.map Prod.snd).getD 0))
  | 0x10 => some (.num r.history)
  | 0x11 => some (.num (r.counts.getD 0 0))
  | 0x12 => some (.num (r.counts.getD 1 0))
  | 0x13 => some (.num (r.counts.getD 2 0))
  | 0x14 => some (.num (r.counts.getD 3 0))
  | _ => none

/-! ### The placement report (06 R160) -/

/-- A capacity in millions a second, rounded down, and a demand, rounded upward (06 R151, R160, notes/assumptions/32). -/
def millions (q : Rat) : Nat := (q / 1000000).floor.toNat
def millionsUp (n : Nat) : Nat := (n + 999_999) / 1_000_000

/-- A layer's residence code. -/
def State.residenceCode (s : State) (l : Nat) : Nat :=
  if s.lyr l 6 = 3 then 6
  else if s.lyr l 6 = 2 then (if s.lead (s.lyr l 2) ∧ s.lockStream (s.lyr l 2) = s.lyr l 0x18 then 4 else 5)
  else (s.layer l).residence

/-- The class that a layer's rating is admitted in (06 R149, R161). -/
def State.layerClass (s : State) (l : Nat) : Nat :=
  match s.lyr l 3 with
  | 0 => 0 | 1 => 1 | 2 => 2 | 3 => 2 | _ => 3

/-- The effective rate of a layer (06 R149, R166, notes/assumptions/32): none while it is frozen or shows nothing. -/
def State.effectiveRate (s : State) (l : Nat) : Rat :=
  let n := s.lyr l 2
  if s.layerStatus l = 0 ∨ s.layerStatus l = 3 then 0
  else if s.lyr l 3 = 1 then
    (match s.slotOf (s.lyr l 0x18) with
     | some k => if s.lyr l 6 = 2 then min (s.fps n) (s.camRate k) else 0
     | none => 0)
  else s.layerRate n l

/-- One resource entry. -/
def State.resourceEntry (s : State) (cs : List Charge) (r : Nat) : List Byte :=
  leBytes 1 r ++ leBytes 1 (s.shedStep r) ++ leBytes 1 (s.placement.shed.countP (fun e => e.1 == r)) ++ leBytes 1 0 ++
  leBytes 4 (millions (s.rated r)) ++ leBytes 4 (millions (s.capacityNow r)) ++
  (List.range 4).flatMap (fun cls => leBytes 4 (millionsUp (demandOf cs r cls)))

/-- One lane entry: its shells are those of its set and of its pins. -/
def State.laneEntry (s : State) (n : Nat) : List Byte :=
  let l := s.lane n
  leBytes 1 n ++ leBytes 1 (s.discipline n + 2 * b2n (!l.regionPins.isEmpty) + 4 * b2n (!l.suspended.isEmpty)) ++
  leBytes 2 (if s.laneOn n then (tabGet 0 s.placement.shellSets n ||| s.pinMask n) &&& s.placement.shellOk else 0) ++
  leBytes 4 (if s.laneOn n then s.frameBase n else 0) ++
  leBytes 4 (if s.laneOn n then tabGet 0 s.placement.allotments n / 1024 else 0) ++ leBytes 4 l.flat.length

/-- A layer is part of at least one valid flat tile of its lane (06 R160). -/
def State.flatSomewhere (s : State) (l : Nat) : Bool := (s.lane (s.lyr l 2)).flat.any (fun p => p.2.below.contains l)

/-- LP5X in use, MiB: its check bytes and frame rings, and the backed granules that lie in no boathouse surface (04 R73; which lies where is the
cox's, notes/assumptions/32). -/
def State.lp5Used (s : State) (inb : List Nat) : Nat :=
  let boat := s.boatGranules inb
  let backed := (s.crews.map (fun p => p.2.granules.countP (fun g => !boat.contains (p.1, g)))).sum
  min (s.placement.lp5Bytes / mib) (ceilDiv (s.placement.lp5Bytes - s.lp5Free) mib + 2 * backed)

/-- One layer entry. -/
def State.layerEntry (s : State) (l : Nat) : List Byte :=
  let n := s.lyr l 2
  let rate := s.effectiveRate l
  let tiles := (s.tilesIn n (s.shown n l)).length
  let flags := b2n (s.layer l).surfacePin.isSome + 2 * b2n (bitOf (s.lyr l 0x1B) 0) + 4 * b2n (decide (s.layerStatus l = 3)) +
    8 * b2n (s.flatSomewhere l) + 16 * b2n (s.layer l).copying.isSome
  leBytes 2 l ++ leBytes 1 (s.residenceCode l) ++ leBytes 1 (s.layerClass l) ++ leBytes 1 flags ++ leBytes 1 (s.halvings l) ++
  leBytes 2 ((rate * 100).floor.toNat) ++
  leBytes 4 ((rate * (tiles * s.layerClocks l : Nat) / 1000).ceil.toNat) ++
  leBytes 4 ((rate * (tiles * s.tileInput l : Nat) / 1000).ceil.toNat)

/-- The layers in use that a crew's report shows (06 R159). -/
def State.reportLayers (s : State) (c : Nat) : List Nat :=
  (s.layers.filter (fun p => p.2.owner.isSome && (decide (c = 0) || decide (p.1 / 512 = c / 128)))).map Prod.fst

/-- placement.report for a crew. -/
def State.report (s : State) (c : Nat) : List Byte :=
  let ls := s.reportLayers c
  let inb := s.inBoathouse
  let cs := s.chargesWith inb
  let held := (inb.map s.storageBytes).sum
  let flat := s.flatTotal
  leBytes 2 1 ++ leBytes 2 64 ++ leBytes 4 (64 + 308 + 128 + 16 * ls.length) ++ leBytes 4 s.placement.generation ++
  leBytes 4 s.modes.generation ++ leBytes 2 ls.length ++ leBytes 1 11 ++ leBytes 1 8 ++ leBytes 2 s.placement.shellOk ++
  leBytes 1 (s.placement.shellTest.getD 0xFF) ++ leBytes 1 0 ++ leBytes 4 (ceilDiv s.mandatory 1024) ++ leBytes 4 (ceilDiv held 1024) ++
  leBytes 4 (flat / 1024) ++ leBytes 4 ((512 * mib - s.mandatory - held - flat) / 1024) ++
  leBytes 4 (s.lp5Used inb) ++ leBytes 4 0 ++
  leBytes 8 s.placement.lastRefusal ++ leBytes 8 0 ++
  (List.range 11).flatMap (s.resourceEntry cs) ++ (List.range 8).flatMap s.laneEntry ++ ls.flatMap s.layerEntry

/-! ### The re-synchronisation record (02 R48 to R50) -/

/-- A crew's sight of lane `n` and of the cameras in its record. -/
def State.seesLane (s : State) (c n : Nat) : Bool := decide (c % 128 = 0) || s.crewLane c n
def State.seesCams (s : State) (c : Nat) : Bool := decide (c % 128 = 0) || s.crewRight c 1

def State.recordLane (s : State) (c n : Nat) : List Byte :=
  if !s.seesLane c n then leBytes 32 0xFF
  else
    let l := s.lane n
    leBytes 1 l.stateCode ++ leBytes 1 (s.discipline n) ++ leBytes 2 (s.laneFlags n) ++ leBytes 4 l.appliedSeq ++ leBytes 4 l.presentedSeq ++
    leBytes 4 (s.pendingSeq n) ++ leBytes 4 (s.counter (laneCount n 0x08)) ++ leBytes 4 (s.counter (laneCount n 0x10)) ++
    leBytes 4 (s.counter (laneCount n 0x18)) ++ leBytes 4 (s.frame n)

def State.recordCam (s : State) (c p : Nat) : List Byte :=
  if !s.seesCams c then leBytes 16 0xFF
  else
    let ks := ((List.range 4).map (fun v => p * 4 + v)).filter s.slotOn
    let active := ks.countP (fun k => decide ((s.slot k).mode = .streaming))
    let flags := ks.foldl (fun w k => w ||| (s.slot k).lastFlags % 4) 0
    leBytes 1 (s.camState p) ++ leBytes 1 active ++ leBytes 2 flags ++ leBytes 4 (s.counter (camCount p 0)) ++
    leBytes 4 (s.counter (camCount p 8)) ++ leBytes 4 (s.counter (camCount p 0x10) + s.counter (camCount p 0x18))

def State.recordCrew (s : State) (c : Nat) : List Byte :=
  let k := s.crew c
  leBytes 2 c ++ leBytes 1 (s.crewState c) ++ leBytes 1 (b2n ((s.statusAt (crewStatus c)).has 0)) ++ leBytes 2 k.cqWords ++
  leBytes 2 k.eq.length ++ leBytes 4 (s.counter (crewCount c 0)) ++ leBytes 4 (s.counter (crewCount c 8)) ++ leBytes 4 k.lastCommit ++
  leBytes 4 (s.counter (crewCount c 0x10)) ++ leBytes 2 (s.layersUsed c) ++ leBytes 2 (s.num (crewIx c 1) 2) ++
  leBytes 4 (s.counter (crewCount c 0x18))

def State.recordMover (s : State) (k : Nat) : List Byte :=
  let x := s.channel k
  leBytes 1 k ++ leBytes 1 x.mode.entry ++
  leBytes 2 (b2n ((s.statusAt (channelStatus k)).has 1) + 2 * b2n s.mover.stoppedAll + 4 * b2n (decide (x.err = 3))) ++
  leBytes 4 (s.counter (chanCount k))

/-- The mover channels that a crew's record holds: those assigned to it, and those that forward a stream to it (02 R49, 09 R245). -/
def State.channelsFor (s : State) (c : Nat) : List Nat :=
  (List.range 64).filter (fun k => decide (s.chOwner k = some c))

/-- The summary record captured for a crew with a token. -/
def State.record (s : State) (c token : Nat) : List Byte :=
  let manager := decide (c % 128 = 0)
  let crews := if c = 0 then List.range 512 else if manager then (List.range 128).map (· + c) else [c]
  let movers := if c = 0 then List.range 64 else if manager then [] else s.channelsFor c
  let body := (List.range 8).flatMap (s.recordLane c) ++ (List.range 8).flatMap (s.recordCam c) ++ crews.flatMap s.recordCrew ++
    movers.flatMap s.recordMover
  leBytes 2 1 ++ leBytes 2 80 ++ leBytes 4 (80 + body.length) ++ leBytes 4 token ++ leBytes 2 c ++
  leBytes 1 (if c = 0 then 0 else if manager then 1 else 2) ++ leBytes 1 (if manager then 3 else 0) ++ leBytes 8 s.uptime ++
  leBytes 4 s.modes.generation ++ leBytes 4 s.placement.generation ++ leBytes 1 s.modes.mode.code ++ leBytes 1 8 ++ leBytes 1 8 ++
  leBytes 1 movers.length ++ leBytes 2 crews.length ++ leBytes 2 0 ++ leBytes 4 (s.smu.view.getD 0 0) ++ leBytes 4 (s.smu.view.getD 1 0) ++
  leBytes 16 (if manager then s.umpire.latched else 0) ++ leBytes 4 (if manager then s.sec.stateWord % 2 ^ 16 else 0) ++
  leBytes 12 0 ++ body

/-- The capture: nothing but the crew's record changes (02 R48). -/
def State.capture (s : State) (c token : Nat) : State := s.modCrew c (fun k => { k with resync := some (s.record c token) })

/-! ### The sealed unit, security, umpire, cascade -/

/-- An entry of the audit log (13 R367). -/
def Audit.bytes (a : Audit) : List Byte :=
  leBytes 4 a.counter ++ leBytes 4 a.time ++ leBytes 2 a.index ++ leBytes 1 a.sub ++ leBytes 1 a.kind ++ leBytes 4 0 ++ leBytes 8 a.old ++
  leBytes 8 a.new

def State.readSmu (s : State) (sub : Nat) : Option Val :=
  let v (i : Nat) : Nat := s.smu.view.getD i 0
  let pair (i : Nat) : Val := .num (v i + v (i + 1) * 2 ^ 32)
  match sub with
  | 1 => some (.num (v 0)) | 2 => some (.num (v 1)) | 3 => some (pair 2) | 4 => some (pair 4) | 5 => some (pair 6)
  | 6 => some (.num (v 8)) | 7 => some (.num (v 13)) | 8 => some (.num (v 9)) | 9 => some (.num (v 10)) | 0xA => some (.num (v 11))
  | 0xB => some (.num (v 12)) | 0xC => some (pair 15)
  | 0xD => some (.bytes ((Config.smuFwId s.smu.fwHash).take 255))
  | 0xE => some (.bytes (leBytes 48 s.smu.fwHash))
  | 0xF => some (.bytes (leBytes 16 s.smu.challenge))
  | _ => none

/-- An entry of sec.alarm_log (14 R390): the alarms of R383, newest first; an unused one reads 0. -/
def AlarmEntry.bytes (a : AlarmEntry) : List Byte := leBytes 1 a.alarm ++ leBytes 1 a.policy ++ leBytes 6 0 ++ leBytes 8 a.time

def State.alarmBytes (s : State) : List Byte :=
  s.sec.alarmLog.flatMap AlarmEntry.bytes ++ leBytes (256 - 16 * s.sec.alarmLog.length) 0

/-- umpire.c3_record (12 R349). -/
def State.c3Bytes (s : State) : List Byte :=
  match s.umpire.c3 with
  | none => leBytes 32 0
  | some r => leBytes 1 r.source ++ leBytes 1 (1 + 2 * b2n r.limpEntered) ++ leBytes 2 0 ++ leBytes 4 r.detail ++ leBytes 8 r.time ++
      leBytes 16 r.word

/-- casc.node_summary (16 R426); this node's own is its present state. -/
def State.summary (s : State) (k : Nat) : List Byte :=
  let ups := (s.cascade.links.zipIdx.map (fun p => if p.1.mode = .up then 2 ^ p.2 else 0)).sum
  let x : Node := if k = s.ownNode then
      { s.node k with mode := s.modes.mode.code, nfaultLow := s.umpire.nfaultLow, links := ups, umpire := s.umpire.latched, updatedAt := s.uptime }
    else s.node k
  leBytes 1 x.mode ++ leBytes 1 (b2n x.reachable + 2 * b2n x.nfaultLow + 4 * (x.links % 4)) ++ leBytes 2 0 ++ leBytes 4 x.generation ++
  leBytes 16 x.umpire ++ leBytes 8 x.updatedAt

/-! ### One read -/

/-- An object of no repeated block whose value is no parameter. -/
def State.readFixed (s : State) (c i sub : Nat) : Option Val :=
  match i, sub with
  | 0x1000, 5 => some (.num (Config.fwVersion % 2 ^ 32))
  | 0x2000, 1 => some (.num s.modes.mode.code)
  | 0x2002, 1 => some (.num s.clocks.active)
  | 0x2002, 2 => some (.num (unsignedOf 32 s.clocks.drift))
  | 0x2100, 1 => some (.num s.placement.generation)
  | 0x2100, 2 => some (.bytes (s.report c))
  | 0x2100, 3 => some (.num (s.placement.shedSteps % 2 ^ 32))
  | 0x2100, 4 => some (.num (s.placement.shedReturns % 2 ^ 32))
  | 0x2100, 6 => some (.num s.placement.lastRefusal)
  | 0x2240, 1 => some (.num (b2n s.mover.stoppedAll))
  | 0x2240, 3 => some (.num s.mover.syndrome)
  | 0x7000, 1 => some (.bytes (leBytes 16 s.umpire.latched))
  | 0x7000, 4 => some (.bytes ((List.range 8).flatMap (fun k => leBytes 4 (s.classWord k))))
  | 0x7000, 5 => some (.bytes (leBytes 16 s.umpire.active))
  | 0x7000, 6 => some (.bytes s.c3Bytes)
  | 0x7001, 2 => some (.num s.modes.selftest)
  | 0x7003, 1 => some (.num s.limp.lane)
  | 0x7003, 2 => some (.num (b2n s.limpIntact))
  | 0x7400, 1 => some (.num s.sec.stateWord)
  | 0x7400, 2 => some (.num s.sec.bootStatus)
  | 0x7400, 3 => some (.num s.sec.policy)
  | 0x7400, 6 => some (.bytes s.alarmBytes)
  | 0x7400, 7 => some (.num s.sec.provisionWindow)
  | 0x7802, 1 => some (.bytes (s.smu.audit.flatMap Audit.bytes))
  | 0x7C00, 1 => some (.num s.nodeByte)
  | 0x7C00, 3 => some (.num s.reachableMask)
  | _, _ => none

/-- The value of a readable object for crew `c`: what its state comes to, else the parameter held. -/
def State.value (s : State) (c i sub : Nat) : Val :=
  let special : Option Val :=
    if within 0x2200 0x223F i then (if sub = 2 then some (.num (s.channel (i - 0x2200)).mode.entry) else none)
    else if within 0x3000 0x37FF i then s.readLane ((i - 0x3000) / 256) (i % 256) sub
    else if within 0x3800 0x3FFF i then s.readCam ((i - 0x3800) / 256) (i % 256) sub
    else if within 0x4000 0x5FFF i then s.readCrewObj ((i - 0x4000) / 16) (i % 16) sub
    else if within 0x6000 0x67FF i then s.readLayer (i - 0x6000) sub
    else if within 0x7100 0x71FF i then s.readRegion (i - 0x7100) sub
    else if i = 0x7800 then s.readSmu sub
    else if within 0x7C10 0x7C13 i then some (.bytes (s.summary (i - 0x7C10)))
    else s.readFixed c i sub
  special.getD (s.obj i sub)

/-- A read carried out: the record of umpire.status's instant is all that it changes; resync.record needs a record (02 R48, 12 R338). -/
def State.readObj (s : State) (c i sub : Nat) : State × Except Abort Val :=
  if i = 0x7F00 ∧ sub = 2 then
    (match (s.crew c).resync with
     | none => (s, .error .noRecord)
     | some r => (s, .ok (.bytes r)))
  else if i = 0x7000 ∧ sub = 1 then
    (s.modCrew c (fun k => { k with statusRead := some s.umpire.occurrences }), .ok (s.value c i sub))
  else (s, .ok (s.value c i sub))

end Sys2Proof.Machine
end

