-- ==== Sys2Proof/Machine/Writing.lean ====
section
/-! DEFINITION. What a write of each object does: encodings, write rights, staging, confirmed objects, restore, and the objects that act
when they are written (02 R21, R24, R27, R29 to R35, 04 R93, 08 R210, 12 R329, R331, R338, 14 R385 to R389, 16 R426). -/

namespace Sys2Proof.Machine

open Sys2Proof

/-! ### Encoded values (02 R29) -/

/-- An object's value as it travels. -/
def encodeVal (t : Ty) (v : Val) : List Byte :=
  match t with
  | .str => leBytes 1 (valContent v).length ++ valContent v
  | .blob => leBytes 2 (valContent v).length ++ valContent v
  | _ => leBytes t.size (valNat v)

/-- The layout of a BLOB's content: whole entries, at most as many as the object allows, each in its range (02 R29). -/
def blobError (index sub : Nat) (bs : List Byte) : Option Abort :=
  let n := bs.length
  if within 0x3800 0x3FFF index then
    if sub = 4 then (if n = 36 then none else some .typeLength)
    else if n ≠ 4611 then some .typeLength
    else if (List.range 1537).all (fun i => decide (((bs.getD (3 * i + 2) 0)).toNat < 16)) then none else some .valueRange
  else if within 0x1200 0x1201 index then (if n % 4 = 0 ∧ n ≤ 32 then none else some .typeLength)
  else if index = 0x7000 then (if n = 16 then none else some .typeLength)
  else if within 0x3000 0x37FF index then (if 2 ≤ n ∧ n ≤ 60 then none else some .typeLength)
  else if n ≤ 8192 then none else some .typeLength

/-- The value that an encoding spells for an object, or what it is refused with (02 R29). -/
def decodeVal (r : ObjRow) (index : Nat) (enc : List Byte) : Except Abort Val :=
  match r.ty with
  | .str => if enc.length = 0 ∨ leNat (enc.take 1) + 1 ≠ enc.length then .error .typeLength else .ok (.bytes (enc.drop 1))
  | .blob =>
    if enc.length < 2 ∨ leNat (enc.take 2) + 2 ≠ enc.length then .error .typeLength
    else
      (match blobError index r.sub (enc.drop 2) with
       | some a => .error a
       | none => .ok (.bytes (enc.drop 2)))
  | t =>
    if enc.length ≠ t.size then .error .typeLength
    else if !t.fits (leNat enc) || !r.ok (leNat enc) then .error .valueRange
    else .ok (.num (leNat enc))

/-! ### Rights (02 R21, R24, 04 R93, 05 R136, 12 R329, R331) -/

/-- The crew of a crew object's index. -/
def crewOf (index : Nat) : Nat := (index - 0x4000) / 16

/-- crew.enable: a crew never writes its own, so R22 exempts it, and R24 limits it. -/
def isEnable (index sub : Nat) : Bool := within 0x4000 0x5FFF index && decide (index % 16 = 0) && decide (sub = 1)

/-- A crew holds an object's write right. -/
def State.holds (s : State) (c index : Nat) (r : ObjRow) : Bool :=
  match r.right with
  | .none => false
  | .sealed => false
  | .anyCrew => true
  | .restore => true
  | .owner => s.ownsLayer c (index - 0x6000)
  | .portManager =>
    if within 0x6000 0x67FF index then true
    else portManager c (crewOf index / 128) && (!isEnable index r.sub || (enableError c (crewOf index) 1).isNone)
  | .system => decide (c = 0) && !(within 0x7100 0x71FF index && s.sealedRegion ((index - 0x7100) / 32) (index % 32))
  | .photoOwner =>
    (decide (c = 0) || decide (c = s.num index 0xD)) && !s.sealedRegion ((index - 0x7100) / 32) (index % 32)
  | .laneCommit => s.mayCommit c ((index - 0x3000) / 256)
  | .writeback => s.mayCommit c ((index - 0x3000) / 256) && s.crewRight c 3

/-- An abort that the manual does not name: any code (notes/assumptions/33). -/
def openAbort (v : Nat) : Abort :=
  [Abort.protocol, .segSequence, .segTimeout, .segReplaced, .segmentRequired, .noRoom, .cancelled, .noObject, .noSubindex, .readOnly,
   .writeOnly, .noRight, .sealed, .securityLocked, .typeLength, .valueRange, .valueConflict, .confirmFailed, .booting, .wrongMode, .busy,
   .noRecord, .quota, .oversubscribed, .pinInfeasible, .nodeAbsent, .nodeUnreachable, .internal].getD (v % 28) .internal

/-! ### Confirmed objects (02 R34) -/

/-- The subindex of the first write of a confirmed object. -/
def isConfirmed (index sub : Nat) : Bool :=
  decide (index = 0x2000 ∧ sub = 2) || decide (index = 0x2002 ∧ sub = 3) || decide (index = 0x7400 ∧ sub = 3)

/-- The subindex of a confirmation. -/
def isConfirmation (index sub : Nat) : Bool := decide (0 < sub) && isConfirmed index (sub - 1)

/-- What a confirmed object's write brings about. -/
def State.confirmedWrite (s : State) (index v : Nat) : State × Option Abort :=
  if index = 0x2000 then s.modeRequest v
  else if index = 0x2002 then
    let t := s.setNum 0x2002 3 v
    if v ≠ 1 then (t, none)
    else if s.clocks.primaryGood then (t.restoreRef, none) else (s.used.restoreRef, some (openAbort s.free))
  else if v < 2 ^ 21 ∧ notWeaker s.sec.policy v then (s.writePolicy v, none)
  else (s.used.writePolicy v, some (openAbort s.free))

/-- A confirmation: the complement of the first write's encoded value, within 10 ms, by the same requester. `attempt` is the requester's
first write, which this request has ended. -/
def State.confirmWrite (s : State) (attempt : Option Confirm) (index sub : Nat) (data : List Byte) : State × Except Abort Nat :=
  match attempt, objRow index (sub - 1) with
  | some k, some r =>
    let size := r.ty.size
    if k.key = objKey index (sub - 1) ∧ s.now ≤ k.at_ + 10_000_000 ∧ data = leBytes size (2 ^ (8 * size) - 1 - k.value) then
      (match s.confirmedWrite index k.value with
       | (t, none) => (t, .ok 0)
       | (t, some a) => (t, .error a))
    else (s, .error .confirmFailed)
  | _, _ => (s, .error .confirmFailed)

/-! ### Commits (02 R35, 04 R93) -/

/-- lane.commit and lane.commit_linked written: the result is the commit's number. -/
def State.commitWrite (s : State) (c mask : Nat) (linked : Bool) : State × Except Abort Nat :=
  s.acceptCommit c { mask := mask, linked := linked, fences := [], cookie := 0, register := none } false

/-- A mask of lane.commit_linked: more than one lane, lane `n` among them. -/
def State.commitLinked (s : State) (c n mask : Nat) : State × Except Abort Nat :=
  if !mask.testBit n then (s, .error .valueRange)
  else if (lanesIn mask).length < 2 then (s, .error .valueConflict)
  else s.commitWrite c mask true

/-! ### One write, its right and value accepted -/

/-- A write of a lane's object that acts at once. -/
def State.writeLane (s : State) (c n b : Nat) (r : ObjRow) (v : Val) : State × Except Abort Nat :=
  if b = 0 ∧ r.sub = 0x0F then s.commitWrite c (2 ^ n) false
  else if b = 0 ∧ r.sub = 0x11 then s.commitLinked c n (valNat v)
  else if b = 7 ∧ r.sub = 0x11 then
    if s.laneNum n 7 1 = 0 then (s, .error .wrongMode)
    else if (s.lane n).dsiCmd.isSome then (s, .error .busy)
    else (s.modLane n (fun l => { l with dsiCmd := some (valContent v) }), .ok 0)
  else (s.setObj (laneIx n b) r.sub v, .ok 0)

/-- A write of a crew's object. -/
def State.writeCrewObj (s : State) (c w row sub : Nat) (v : Val) : State × Option Abort :=
  if row = 0 then
    (match enableError c w (valNat v) with
     | some a => (s, some a)
     | none => (s.writeEnable w (valNat v), none))
  else if row = 1 ∧ sub = 5 then
    (match s.rightsError c w (valNat v) with
     | some a => (s, some a)
     | none => (s.setObj (crewIx w row) sub v, none))
  else if row = 2 then ((s.clipChange w).setObj (crewIx w row) sub v, none)
  else (s.setObj (crewIx w row) sub v, none)

/-- A write of an object outside the repeated blocks. -/
def State.writeFixed (s : State) (c index sub : Nat) (v : Val) : State × Except Abort Nat :=
  match index, sub with
  | 0x7000, 2 => ((s.setObj index sub v).followNfault, .ok 0)
  | 0x7000, 3 =>
    (match (s.crew c).statusRead with
     | none => (s, .error .valueConflict)
     | some t => (s.clearObject (valNat v) t, .ok 0))
  | 0x7001, 1 => (s.askSelftest, .ok 0)
  | 0x7401, 1 =>
    (match s.provisioned (valContent v) with
     | (t, none) => (t, .ok 0)
     | (t, some a) => (t, .error a))
  | 0x7C00, 2 => ((s.setObj index sub v).startLinks, .ok 0)
  | 0x7F00, 1 => (s.capture c (valNat v), .ok (s.record c (valNat v)).length)
  | _, _ => (s.setObj index sub v, .ok 0)

/-- Objects that a whole write of `v` by crew `c` changes at once, stages, or acts through. -/
def State.putObj (s : State) (c index : Nat) (r : ObjRow) (v : Val) : State × Except Abort Nat :=
  let done (x : State × Option Abort) : State × Except Abort Nat := match x with | (t, none) => (t, .ok 0) | (t, some a) => (t, .error a)
  if within 0x6000 0x67FF index then done (s.stageLayer c (index - 0x6000) r.sub (valNat v))
  else if r.access = .rwc then (s.stage c (objKey index r.sub) v, .ok 0)
  else if within 0x2200 0x223F index then
    (match s.ownerError (index - 0x2200) (valNat v) with
     | some a => (s, .error a)
     | none => (s.setObj index r.sub v, .ok 0))
  else if within 0x3000 0x37FF index then s.writeLane c ((index - 0x3000) / 256) (index % 256) r v
  else if within 0x3800 0x3FFF index then done (s.writeCam c ((index - 0x3800) / 256) (index % 256) r.sub v)
  else if within 0x4000 0x5FFF index then done (s.writeCrewObj c (crewOf index) (index % 16) r.sub v)
  else if within 0x7100 0x71FF index then
    (if r.sub = 0xE then (if valNat v = 1 then s.rearm ((index - 0x7100) / 32) (index % 32) else s, .ok 0) else (s.setObj index r.sub v, .ok 0))
  else s.writeFixed c index r.sub v

/-! ### Restore (02 R32) -/

/-- The communication objects, which a restore changes only after its response. -/
def isComm (index : Nat) : Bool := within 0x1100 0x12FF index

/-- An object's documented default put back for crew `c`: RW at once, RWC staged; RO, WO and confirmed objects stay (notes/assumptions/34). -/
def State.putDefault (s : State) (c index : Nat) (r : ObjRow) : State :=
  match docDefault index r.sub with
  | none => s
  | some v => if (r.access = .rw ∨ r.access = .rwc) ∧ isConfirmed index r.sub = false then (s.putObj c index r v).1 else s

/-- The same, where a write of the object by `c` would not be refused for want of its right. -/
def State.restoreOne (s : State) (c index : Nat) (r : ObjRow) : State :=
  if s.holds c index r then s.putDefault c index r else s

def State.restoreIndex (s : State) (c index : Nat) : State := (rowsAt index).foldl (fun t r => t.restoreOne c index r) s

/-- A crew's block. -/
def State.restoreCrew (s : State) (c w : Nat) : State := (List.range 4).foldl (fun (t : State) row => t.restoreIndex c (crewIx w row)) s

/-- The requester's own crew block, which scope 3 gives to every OWNER; but a crew never writes its own enable (02 R22, R32,
notes/assumptions/34). -/
def State.restoreOwn (s : State) (c : Nat) : State :=
  (List.range 4).foldl (fun (t : State) row =>
    (rowsAt (crewIx c row)).foldl (fun u r => if isEnable (crewIx c row) r.sub then u else u.putDefault c (crewIx c row) r) t) s

/-- A lane's block and its regions. -/
def State.restoreLane (s : State) (c n : Nat) : State :=
  (List.range 32).foldl (fun (t : State) i => t.restoreIndex c (regionIx n i)) ((List.range 8).foldl (fun (t : State) b => t.restoreIndex c (laneIx n b)) s)

/-- The layers of a list of crews. -/
def State.restoreLayers (s : State) (c : Nat) (crews : List Nat) : State :=
  (crews.flatMap s.layersOf).foldl (fun (t : State) l => t.restoreIndex c (layerIx l)) s

/-- A region pin ends on a restore of the whole device (06 R156). -/
def State.dropPins (s : State) : State := { s with lanes := s.lanes.map (fun p => (p.1, { p.2 with regionPins := [] })) }

/-- The camera blocks: forwarding and streams are turned off before their parameters. -/
def State.restoreCam (s : State) (c p : Nat) : State :=
  let blocks := (List.range 4).map (· + 0x30) ++ (List.range 4).map (· + 0x10) ++ (List.range 4).map (· + 0x20) ++ [0]
  let off (t : State) (b sub : Nat) : State := (t.writeCam c p b sub (.num 0)).1
  let stopped := (List.range 4).foldl (fun (t : State) v => off (off t (0x30 + v) 1) (0x10 + v) 6) s
  blocks.foldl (fun (t : State) b => t.restoreIndex c (camIx p b)) (off stopped 0 1)

/-- Every object of the device but the communication objects. -/
def State.restoreDevice (s : State) (c : Nat) : State :=
  let s1 := [0x2240, 0x7000, 0x7400, 0x7C00].foldl (fun (t : State) i => t.restoreIndex c i) s
  let s2 := ((List.range 64).map (· + 0x2200) ++ (List.range 4).map (· + 0x7C20)).foldl (fun (t : State) i => t.restoreIndex c i) s1
  let s3 := (List.range 8).foldl (fun (t : State) n => (t.restoreLane c n).restoreCam c n) s2
  let crews := List.range 512
  (crews.foldl (fun (t : State) w => t.restoreCrew c w) (s3.restoreLayers c crews)).dropPins

/-- dict.restore_defaults written with a scope. -/
def State.restore (s : State) (c code : Nat) : State × Except Abort Nat :=
  let port := (List.range 128).map (· + c / 128 * 128)
  if code = 1 then (if c = 0 then (s.restoreDevice c, .ok 0) else (s, .error .noRight))
  else if code = 2 then
    (if c % 128 = 0 then (port.foldl (fun (t : State) w => t.restoreCrew c w) (s.restoreLayers c port), .ok 0) else (s, .error .noRight))
  else if code = 3 then ((s.restoreLayers c [c]).restoreOwn c, .ok 0)
  else if 0x100 ≤ code ∧ code < 0x108 then (if c = 0 then (s.restoreLane c (code - 0x100), .ok 0) else (s, .error .noRight))
  else (s, .error .valueRange)

/-- What a restore of the whole device changes after its response: the communication objects. -/
def State.restoreComm (s : State) : State := [0x1100, 0x1101, 0x1200, 0x1201].foldl (fun (t : State) i => t.restoreIndex 0 i) s

/-! ### One write -/

/-- The encoded value that a write with an offset comes to: a byte range of the present one replaced; a WO object starts empty (02 R43). -/
def State.spliced (s : State) (c index : Nat) (r : ObjRow) (offset : Nat) (data : List Byte) : Except Abort (List Byte) :=
  if offset = 0 then .ok data
  else if r.ty ≠ .str ∧ r.ty ≠ .blob then .error .protocol
  else
    let cur := if r.access = .wo then [] else encodeVal r.ty (s.value c index r.sub)
    if cur.length < offset then .error .protocol else .ok (cur.take offset ++ data ++ cur.drop (offset + data.length))

/-- A write of an object that exists, by an enabled crew: its result or its abort, in the order of notes/assumptions/35. `attempt` is the crew's
confirmed first write, which this request has ended. -/
def State.writeObj (s : State) (c : Nat) (attempt : Option Confirm) (index sub offset : Nat) (data : List Byte) : State × Except Abort Nat :=
  match objRow index sub with
  | none => (s, .error .noSubindex)
  | some r =>
    if s.holding ∧ ¬ (within 0x7400 0x74FF index ∧ c = 0) then (s, .error .wrongMode)
    else if within 0x7800 0x78FF index then (s, .error .sealed)
    else if r.access = .ro then (s, .error .readOnly)
    else if !s.holds c index r then (s, .error .noRight)
    else if s.sec.lock ∧ within 0x7400 0x74FF index then (s, .error .securityLocked)
    else if isConfirmation index sub then s.confirmWrite attempt index sub data
    else
      match s.spliced c index r offset data with
      | .error a => (s, .error a)
      | .ok enc =>
        match decodeVal r index enc with
        | .error a => (s, .error a)
        | .ok v =>
          if index = 0x1010 then s.restore c (valNat v)
          else if isConfirmed index sub then
            (s.modCrew c (fun k => { k with confirm := some { key := objKey index sub, value := valNat v, at_ := s.now } }), .ok 1)
          else s.putObj c index r v

end Sys2Proof.Machine
end

