-- ==== Sys2Proof/Machine/Requests.lean ====
section
/-! DEFINITION. The dictionary server and its transports: CAN FD frames, segmented transfers, UDP datagrams, the mailbox, forwarding in a cascade
(02 R31, R33, R36 to R47). -/

namespace Sys2Proof.Machine

open Sys2Proof

/-! ### One request -/

/-- A response (02 R40). -/
inductive Rsp where
  | read (b : List Byte)
  | wrote (n : Nat)
  | described (b : List Byte)
  | abort (a : Abort)
  deriving DecidableEq, Repr, Inhabited

def Rsp.code : Rsp → Nat
  | .read _ => 9 | .wrote _ => 0xA | .described _ => 0xB | .abort _ => 0xF

def Rsp.data : Rsp → List Byte
  | .read b => b | .wrote n => leBytes 4 n | .described b => b | .abort a => leBytes 4 a.code

/-- An object lies within a crew's visibility (02 R31). -/
def State.sees (s : State) (c index : Nat) : Bool :=
  if c = 0 then true
  else if c % 128 = 0 then
    (if within 0x4000 0x5FFF index then decide (crewOf index / 128 = c / 128)
     else if within 0x6000 0x67FF index then decide ((index - 0x6000) / 512 = c / 128) else true)
  else if index = 0x1000 ∨ index = 0x2000 ∨ index = 0x7F00 ∨ within 0x7800 0x78FF index then true
  else if within 0x3000 0x37FF index then s.crewLane c ((index - 0x3000) / 256)
  else if within 0x7100 0x71FF index then s.crewLane c ((index - 0x7100) / 32)
  else if within 0x3800 0x3FFF index then s.crewRight c 1
  else if within 0x4000 0x5FFF index then decide (crewOf index = c)
  else if within 0x6000 0x67FF index then decide ((s.layer (index - 0x6000)).owner = some c)
  else false

/-- The largest encoded size of an object. -/
def ObjRow.largest (r : ObjRow) : Nat := if r.ty = .str ∨ r.ty = .blob then r.maxBytes else r.ty.size

/-- An object has a documented default (02 R40, 13 R371). -/
def hasDefault (index sub : Nat) : Bool :=
  if within 0x7800 0x78FF index then decide (index = 0x7801 ∧ sub = 9) else (docDefault index sub).isSome

/-- The 8 bytes of DESCRIBE_RSP (02 R40). -/
def describe (index : Nat) (r : ObjRow) : List Byte :=
  leBytes 1 r.ty.code ++ leBytes 1 r.access.code ++ leBytes 1 r.right.code ++
  leBytes 1 (b2n (isConfirmed index r.sub) + 2 * b2n (hasDefault index r.sub)) ++ leBytes 4 r.largest

/-- An object that exists, or what its absence answers: spans exist only on a master (02 R28, R46, 16 R426). -/
def State.lookup (s : State) (index sub : Nat) : Except Abort ObjRow :=
  if 0x8000 ≤ index ∨ (within 0x7C20 0x7C23 index && !s.cascMaster) ∨ (rowsAt index).isEmpty then .error .noObject
  else
    match objRow index sub with
    | some r => .ok r
    | none => .error .noSubindex

/-- A READ with the byte range of its offset and length; length 0 runs to the end (02 R43, notes/assumptions/37). -/
def State.readRange (s : State) (c : Nat) (r : ObjRow) (q : Req) : State × Rsp :=
  match s.readObj c q.index q.sub with
  | (t, .error a) => (t, .abort a)
  | (t, .ok v) =>
    let enc := encodeVal r.ty v
    if (q.offset ≠ 0 ∧ r.ty ≠ .str ∧ r.ty ≠ .blob) ∨ enc.length < q.offset then (t, .abort .protocol)
    else (t, .read (if q.length = 0 then enc.drop q.offset else (enc.drop q.offset).take q.length))

/-- The crew's confirmed first write, which any other request of the crew ends (02 R34). -/
def State.endAttempt (s : State) (c : Nat) : State := s.modCrew c (fun k => { k with confirm := none })

/-- One request for this node, carried out as crew `c`: command 1 READ, 2 WRITE, 3 DESCRIBE (02 R33). `attempt` is the crew's confirmed first
write, which this request has ended. The order of checks is notes/assumptions/35; that DESCRIBE is held to visibility as READ is,
notes/assumptions/101. -/
def State.carryOut (s : State) (c cmd : Nat) (attempt : Option Confirm) (q : Req) : State × Rsp :=
  match s.lookup q.index q.sub with
  | .error a => (s, .abort a)
  | .ok r =>
    if cmd = 2 then
      (match s.writeObj c attempt q.index q.sub q.offset q.data with
       | (u, .ok n) => (u, .wrote n)
       | (u, .error a) => (u, .abort a))
    else if !s.sees c q.index then (s, .abort .noRight)
    else if cmd = 3 then (s, .described (describe q.index r))
    else if r.access = .wo then (s, .abort .writeOnly)
    else s.readRange c r q

/-- A request of a disabled crew, refused unless it names crew.enable (02 R22); a proxy that is disabled is held to it too
(notes/assumptions/101). -/
def State.barredCrew (s : State) (c : Nat) (q : Req) : Bool := !s.crewEnabled c && !isEnable q.index q.sub

/-- A request on a transport, or none where the master forwards it (02 R34, R38, R47, 16 R424); `deny` is a WRITE that its transport does not let
through (02 R44). Every request of the crew ends its confirmed first write. -/
def State.serve (s : State) (via : Via) (c cmd : Nat) (deny : Bool) (q : Req) : State × Option Rsp :=
  let t := s.endAttempt c
  if !t.planned then (t, some (.abort .booting))
  else if q.dir ∨ q.unknown ∨ cmd = 0 ∨ 3 < cmd then (t, some (.abort .protocol))
  else if deny ∨ t.barredCrew c q then (t, some (.abort .noRight))
  else if q.node ≠ t.ownNode then
    if !t.cascMaster ∨ 4 ≤ q.node then (t, some (.abort .nodeAbsent))
    else if !(t.node q.node).reachable then (t, some (.abort .nodeUnreachable))
    else
      ((t.modCascade (fun k => { k with forwarded := k.forwarded ++ [{ at_ := t.now, node := q.node, via := via, req := q }] })).send
        (.forwarded q.node c cmd q), none)
  else
    let (u, r) := t.carryOut c cmd (s.crew c).confirm q
    (u, some r)

/-- A request that restored the whole device: the communication objects change after its response (02 R32). -/
def State.restoresComm (s : State) (q : Req) (r : Rsp) : Bool :=
  decide (q.index = 0x1010 ∧ q.sub = 1 ∧ r = .wrote 0 ∧ q.data = leBytes 4 1 ∧ q.node = s.ownNode)

/-- What follows the responses of a message. -/
def State.afterAll (s : State) (rs : List (Req × Rsp)) : State := if rs.any (fun x => s.restoresComm x.1 x.2) then s.restoreComm else s

/-! ### The queues of start-up (02 R38) -/

/-- A transport's key among the queues: CAN FD and Ethernet have one each, and each crew's mailbox its own. -/
def viaKey : Via → Nat
  | .can _ _ => 0
  | .eth _ _ _ => 1
  | .mailbox c => 16 + c

/-- `n` dropped requests or messages are counted in comm.drops; a mailbox has no such object. -/
def State.drop (s : State) (n : Nat) : Via → State
  | .can k _ => s.setNum (0x1100 + k) 5 ((s.num (0x1100 + k) 5 + n) % 2 ^ 32)
  | .eth k _ _ => s.setNum (0x1200 + k) 7 ((s.num (0x1200 + k) 7 + n) % 2 ^ 32)
  | .mailbox _ => s

/-- How many of `n` requests are taken: all once the dictionary answers normally; before that, what room there is for up to 32 at one instant,
and the others are dropped (02 R38, notes/assumptions/38). -/
def State.admitRequests (s : State) (via : Via) (n : Nat) : State × Nat :=
  if s.planned then (s, n)
  else
    let e := tabGet (0, 0) s.bootQueues (viaKey via)
    let waiting := if e.1 = s.now then e.2 else 0
    let taken := min n (32 - waiting)
    let t := { s with bootQueues := tabSet s.bootQueues (viaKey via) (s.now, waiting + taken) }
    (if taken < n then t.drop (n - taken) via else t, taken)

/-! ### CAN FD frames (02 R39, R40) -/

/-- The content lengths of CAN FD frames. -/
def frameLengths : List Nat := [0, 1, 2, 3, 4, 5, 6, 7, 8, 12, 16, 20, 24, 32, 48, 64]

/-- A frame's bytes with their padding. -/
def padFrame (bs : List Byte) : List Byte :=
  bs ++ leBytes (((frameLengths.find? (fun n => decide (bs.length ≤ n))).getD bs.length) - bs.length) 0

/-- A frame to a client: bits [28:11] of comm.can_base, dir 1, the client and the node (02 R39). -/
def State.canSend (s : State) (k client node : Nat) (bs : List Byte) : State :=
  s.send (.canFrame k (s.num (0x1100 + k) 1 % 2 ^ 29 / 2 ^ 11 * 2 ^ 11 + 0x400 + client % 256 * 4 + node % 4) (padFrame bs))

/-- A response frame that is no segment: command and tag, subindex, index, data. -/
def State.canRsp (s : State) (k client : Nat) (q : Req) (code : Nat) (data : List Byte) : State :=
  s.canSend k client q.node (leBytes 1 (code * 16 + q.tag % 16) ++ leBytes 1 q.sub ++ leBytes 2 q.index ++ data)

/-- A WRITE's value without the padding of its frame, or SEGMENT_REQUIRED for a value that does not fit (02 R40). -/
def canValue (index sub : Nat) (data : List Byte) : Except Abort (List Byte) :=
  if 60 < data.length then .error .segmentRequired
  else
    match objRow index sub with
    | none => .ok data
    | some r =>
      let n := match r.ty with
        | .str => 1 + leNat (data.take 1)
        | .blob => 2 + leNat (data.take 2)
        | t => t.size
      if 60 < n then .error .segmentRequired else .ok (data.take n)

/-- The proxy crew of a CAN FD controller or an Ethernet MAC (02 R37). -/
def State.canCrew (s : State) (k : Nat) : Nat := s.num (0x1100 + k) 3
def State.ethCrew (s : State) (k : Nat) : Nat := s.num (0x1200 + k) 5

/-- Whether the cox and its network controllers are still there to answer after a request's effect (12 R339 step 4, 15 R395). -/
def State.canAnswer (s : State) : Bool := s.configured

/-- One expedited request on CAN FD. -/
def State.canRequest (s : State) (k client cmd : Nat) (q : Req) : State :=
  let via := Via.can k client
  let (s1, taken) := s.admitRequests via 1
  let c := s1.canCrew k
  if taken = 0 then s1
  else
    match (if cmd = 2 then canValue q.index q.sub q.data else .ok q.data) with
    | .error a => (s1.endAttempt c).canRsp k client q 0xF (leBytes 4 (if s1.planned then a else .booting).code)
    | .ok data =>
      let q := { q with data := data, offset := 0, length := 0 }
      match s1.serve via c cmd false q with
      | (t, none) => t
      | (t, some r) =>
        if !t.canAnswer then t
        else
          let r := match r with | .read b => if 60 < b.length then Rsp.abort .segmentRequired else .read b | x => x
          (t.canRsp k client q r.code r.data).afterAll [(q, r)]

/-! ### Segmented transfers (02 R41) -/

/-- Each client on each node of each controller may have one. -/
def segKey (k node client : Nat) : Nat := k * 1024 + node % 4 * 256 + client % 256

/-- A segmented transfer's frame that carries no object: command, tag and sequence number. -/
def State.segSend (s : State) (k client node cmd tag seq : Nat) (data : List Byte) : State :=
  s.canSend k client node (leBytes 1 (cmd * 16 + tag % 16) ++ leBytes 1 seq ++ data)

/-- A transfer ends with an abort. -/
def State.segAbort (s : State) (k client node : Nat) (x : Segment) (a : Abort) : State :=
  ({ s with segments := tabErase s.segments (segKey k node client) }).canRsp k client
    { node := node, tag := x.tag, index := x.index, sub := x.sub, dir := false, offset := 0, length := 0, data := [] } 0xF (leBytes 4 a.code)

/-- The client's older transfer ends. -/
def State.segReplace (s : State) (k client node : Nat) : State :=
  match tabFind s.segments (segKey k node client) with
  | some x => s.segAbort k client node x .segReplaced
  | none => s

/-- Segments of a read go out while at most 16 are unacknowledged. -/
def State.segPump (s : State) (k client node : Nat) (x : Segment) : Nat → State
  | 0 => { s with segments := tabSet s.segments (segKey k node client) x }
  | fuel + 1 =>
    if x.data.isEmpty ∨ 16 ≤ x.unacked then { s with segments := tabSet s.segments (segKey k node client) x }
    else
      (s.segSend k client node 0xD x.tag (x.nextSeq % 256) (x.data.take 62)).segPump k client node
        { x with data := x.data.drop 62, nextSeq := x.nextSeq + 1, unacked := x.unacked + 1 } fuel

/-- SEG_READ_INIT: a READ whose value goes out in segments. -/
def State.segRead (s : State) (k client : Nat) (q : Req) : State :=
  let via := Via.can k client
  let (s1, taken) := s.admitRequests via 1
  if taken = 0 then s1
  else
    let s2 := if s1.planned then s1.segReplace k client q.node else s1
    match s2.serve via (s2.canCrew k) 1 false { q with offset := 0, length := 0 } with
    | (t, none) => t
    | (t, some (.read b)) =>
      (t.canRsp k client q 0xC (leBytes 4 b.length)).segPump k client q.node
        { write := false, tag := q.tag % 16, index := q.index, sub := q.sub, total := b.length, data := b, nextSeq := 0, unacked := 0,
          at_ := t.now } 16
    | (t, some r) => t.canRsp k client q r.code r.data

/-- SEG_WRITE_INIT: every check of the write itself waits for the last segment; a total length of 0 has none. -/
def State.segWrite (s : State) (k client : Nat) (q : Req) : State :=
  let (s1, taken) := s.admitRequests (.can k client) 1
  let s0 := s1.endAttempt (s1.canCrew k)
  if taken = 0 then s1
  else if !s0.planned then s0.canRsp k client q 0xF (leBytes 4 Abort.booting.code)
  else if q.dir ∨ q.unknown ∨ q.data.length < 4 then s0.canRsp k client q 0xF (leBytes 4 Abort.protocol.code)
  else
    let s2 := s0.segReplace k client q.node
    if q.node ≠ s2.ownNode ∧ (s2.cascMaster = false ∨ (s2.node q.node).reachable = false) then
      s2.canRsp k client q 0xF (leBytes 4 (if s2.cascMaster then Abort.nodeUnreachable else Abort.nodeAbsent).code)
    else
      let total := leNat (q.data.take 4)
      let t := s2
      if total = 0 then t.canRsp k client q 0xF (leBytes 4 Abort.typeLength.code)
      else
        let x : Segment := { write := true, tag := q.tag % 16, index := q.index, sub := q.sub, total := total, data := [], nextSeq := 0,
                             unacked := 0, at_ := t.now }
        ({ t with segments := tabSet t.segments (segKey k q.node client) x }).canRsp k client q 0xC []

/-- The last segment of a write: the whole value is written and answered. -/
def State.segFinish (s : State) (k client node : Nat) (x : Segment) (data : List Byte) : State :=
  let q : Req := { node := node, tag := x.tag, index := x.index, sub := x.sub, dir := false, offset := 0, length := 0, data := data }
  let t := { s with segments := tabErase s.segments (segKey k node client) }
  match t.serve (.can k client) (t.canCrew k) 2 false q with
  | (u, none) => u
  | (u, some r) => if !u.canAnswer then u else (u.canRsp k client q r.code r.data).afterAll [(q, r)]

/-- A SEG_DATA, SEG_ACK or CANCEL frame before its own effect: it is a request, so it waits in the queue of start-up and answers BOOTING
there, and with dir 1 it is refused PROTOCOL and acts on nothing (02 R38, R40). The ABORT names no object, which the frame does not. -/
def State.segFrame (s : State) (k client node tag : Nat) (dir : Bool) (f : State → State) : State :=
  let (s1, taken) := s.admitRequests (.can k client) 1
  let q : Req := { node := node, tag := tag, index := 0, sub := 0, dir := dir, offset := 0, length := 0, data := [] }
  if taken = 0 then s1
  else if !s1.planned then s1.canRsp k client q 0xF (leBytes 4 Abort.booting.code)
  else if dir then s1.canRsp k client q 0xF (leBytes 4 Abort.protocol.code)
  else f s1

/-- A request segment (02 R41). One of no open transfer or of another tag is out of sequence, and one that is shorter than its place in the
transfer asks is malformed (notes/assumptions/39). -/
def State.segData (s : State) (k client node tag seq : Nat) (data : List Byte) : State :=
  match tabFind s.segments (segKey k node client) with
  | none =>
    s.canRsp k client { node := node, tag := tag, index := 0, sub := 0, dir := false, offset := 0, length := 0, data := [] } 0xF
      (leBytes 4 Abort.segSequence.code)
  | some x =>
    if !x.write ∨ x.tag ≠ tag % 16 ∨ x.nextSeq % 256 ≠ seq then s.segAbort k client node x .segSequence
    else
      let want := min 62 (x.total - x.data.length)
      if data.length < want then s.segAbort k client node x .protocol
      else
        let all := x.data ++ data.take want
        if x.total ≤ all.length then s.segFinish k client node x all
        else
          let y := { x with data := all, nextSeq := x.nextSeq + 1, at_ := s.now }
          let t := { s with segments := tabSet s.segments (segKey k node client) y }
          if (x.nextSeq + 1) % 16 = 0 then t.segSend k client node 0xE x.tag seq [] else t

/-- An acknowledgement of segment `seq`: those after it stay unacknowledged; the transfer ends with its last (02 R41). One that names no
segment in flight is ignored (notes/assumptions/39). -/
def State.segAck (s : State) (k client node tag seq : Nat) : State :=
  match tabFind s.segments (segKey k node client) with
  | none => s
  | some x =>
    let left := (x.nextSeq + 255 - seq % 256) % 256
    if x.write ∨ x.tag ≠ tag % 16 ∨ x.unacked ≤ left then s
    else if x.data.isEmpty ∧ left = 0 then { s with segments := tabErase s.segments (segKey k node client) }
    else s.segPump k client node { x with unacked := left, at_ := s.now } 16

/-- CANCEL ends the open transfer with its tag. -/
def State.segCancel (s : State) (k client node tag : Nat) : State :=
  match tabFind s.segments (segKey k node client) with
  | some x => if x.tag = tag % 16 then s.segAbort k client node x .cancelled else s
  | none => s

/-- A segment or acknowledgement has been absent for 100 ms. -/
def State.segDue (s : State) (k client node : Nat) : Bool :=
  s.configured && (tabFind s.segments (segKey k node client)).any (fun x => decide (x.at_ + 100_000_000 ≤ s.now))

def State.segTimeout (s : State) (k client node : Nat) : State :=
  match tabFind s.segments (segKey k node client) with
  | some x => s.segAbort k client node x .segTimeout
  | none => s

/-! ### Datagrams (02 R42, R43) -/

/-- Bytes up to a multiple of 4. -/
def round4 (n : Nat) : Nat := (n + 3) / 4 * 4

/-- Whether an entry of a request carries data: all but READ and DESCRIBE and the bare segment commands (02 R40). -/
def carriesData (cmd : Nat) : Bool := decide (cmd = 2 ∨ cmd = 5 ∨ cmd = 6 ∨ 9 ≤ cmd)

/-- The entries of a datagram; none where it is shorter than they require. -/
def parseEntries (node seq : Nat) : Nat → List Byte → Option (List (Nat × Req))
  | 0, _ => some []
  | n + 1, bs =>
    let cmd := leNat (bs.take 1)
    let len := leNat ((bs.drop 6).take 2)
    let size := if carriesData cmd then len else 0
    if bs.length < 8 + round4 size then none
    else
      let q : Req := { node := node, tag := seq, index := leNat ((bs.drop 2).take 2), sub := leNat ((bs.drop 1).take 1), dir := false,
                       offset := leNat ((bs.drop 4).take 2), length := if carriesData cmd then 0 else len,
                       data := (bs.drop 8).take size }
      (parseEntries node seq n (bs.drop (8 + round4 size))).map (fun l => (cmd, q) :: l)

/-- A datagram's node, sequence and entries; none where it is dropped: for its magic or version, for its length, and for a count that R42 does
not allow or a payload beyond 1,472 bytes (these two: notes/assumptions/101). -/
def parseDatagram (bs : List Byte) : Option (List (Nat × Req)) :=
  let count := leNat ((bs.drop 6).take 1)
  if bs.length < 8 ∨ 1472 < bs.length ∨ leNat (bs.take 3) ≠ 0x01444F ∨ !within 1 32 count then none
  else parseEntries (leNat ((bs.drop 3).take 1)) (leNat ((bs.drop 4).take 2)) count (bs.drop 8)

/-- A response datagram. -/
def buildDatagram (node seq : Nat) (es : List (Req × Rsp)) : List Byte :=
  leBytes 3 0x01444F ++ leBytes 1 node ++ leBytes 2 seq ++ leBytes 1 es.length ++ leBytes 1 0 ++
  es.flatMap (fun e =>
    leBytes 1 e.2.code ++ leBytes 1 e.1.sub ++ leBytes 2 e.1.index ++ leBytes 2 e.1.offset ++ leBytes 2 e.2.data.length ++ e.2.data ++
    leBytes (round4 e.2.data.length - e.2.data.length) 0)

/-- What an entry counts for in the test of NO_ROOM (02 R43); a READ to the end counts its object's largest size. -/
def entryRoom (e : Nat × Req) : Nat :=
  if e.1 ≠ 1 then 12
  else if e.2.length ≠ 0 then 8 + round4 e.2.length
  else 8 + round4 (((objRow e.2.index e.2.sub).map ObjRow.largest).getD 0 - e.2.offset)

/-- The response could exceed 1,472 bytes. -/
def noRoom (es : List (Nat × Req)) : Bool := decide (1472 < 8 + (es.map entryRoom).sum)

/-- The entries of a message carried out in order, each with its response; forwarded ones have none yet. -/
def State.serveAll (s : State) (via : Via) (c : Nat) (allow : Bool) : List (Nat × Req) → State × List (Req × Rsp)
  | [] => (s, [])
  | (cmd, q) :: rest =>
    let (t, r) := s.serve via c cmd (decide (cmd = 2) && !allow) q
    let (u, rs) := t.serveAll via c allow rest
    (u, (match r with | some x => [(q, x)] | none => []) ++ rs)

/-- A message's entries carried out, or none of them for want of room. -/
def State.serveMessage (s : State) (via : Via) (c : Nat) (allow : Bool) (es : List (Nat × Req)) : State × List (Req × Rsp) :=
  match es with
  | [] => (s, [])
  | (_, q) :: _ =>
    if s.planned && noRoom es then (s.endAttempt c, [(q, .abort .noRoom)]) else s.serveAll via c allow es

/-- A source address of comm.eth_write_allow: four bytes in network order (02 R29, R44). -/
def State.mayWriteFrom (s : State) (k ip : Nat) : Bool :=
  let bs := valContent (s.obj (0x1200 + k) 4)
  (List.range (bs.length / 4)).any (fun i => decide (((bs.drop (4 * i)).take 4).reverse = leBytes 4 ip))

/-- A datagram's entries, answered to their source. -/
def State.udpServe (s : State) (k ip port : Nat) (es : List (Nat × Req)) : State :=
  let via := Via.eth k ip port
  let (s1, taken) := s.admitRequests via es.length
  if taken = 0 then s1
  else
    let (t, rs) := s1.serveMessage via (s1.ethCrew k) (s1.mayWriteFrom k ip) (es.take taken)
    match rs with
    | [] => t
    | (q, _) :: _ => if !t.canAnswer then t else (t.send (.udp k ip port (buildDatagram q.node q.tag rs))).afterAll rs

/-- A datagram on the dictionary's port. -/
def State.udpTake (s : State) (k ip port : Nat) (payload : List Byte) : State :=
  match parseDatagram payload with
  | none => s.drop 1 (.eth k ip port)
  | some es => s.udpServe k ip port es

/-! ### The mailbox (02 R45) -/

/-- A response is ready: it fills the response buffer, done is raised and MBX_DONE posted; what a restore leaves for after it follows
(02 R32). -/
def State.mbxFinish (s : State) (c : Nat) : State :=
  let k := s.crew c
  let t := ((s.modCrew c (fun k => { k with mbxResp := k.mbxReply, mbxReply := [], mbxBusy := false, mbxRestore := false })).send
    (.mailbox c k.mbxReply)).raise (mbxStatus c) [0]
  let u := if k.mbxNotify then t.post c (eventWord 0x10 0xF 0 0 0) else t
  if k.mbxRestore then u.restoreComm else u

/-- A mailbox request's entries carried out; the response waits for MBX_DONE. -/
def State.mbxServe (s : State) (c : Nat) (es : List (Nat × Req)) : State :=
  let (s1, taken) := s.admitRequests (.mailbox c) es.length
  if taken = 0 then s1.modCrew c (fun k => { k with mbxBusy := false })
  else
    let (t, rs) := s1.serveMessage (.mailbox c) c true (es.take taken)
    match rs with
    | [] => t
    | (q, _) :: _ =>
      if !t.canAnswer then t
      else t.modCrew c (fun k => { k with mbxReply := buildDatagram q.node q.tag rs, mbxRestore := rs.any (fun x => t.restoresComm x.1 x.2) })

/-- The request buffer's bytes. -/
def Crew.request (k : Crew) : List Byte := (List.range 1472).map (fun i => tabGet 0 k.mbxReq i)

/-- The request that the buffer holds: its entries, as many bytes as they take. -/
def State.mbxGo (s : State) (c : Nat) : State :=
  if (s.crew c).mbxBusy then s.raise (mbxStatus c) [2]
  else
    let bs := (s.crew c).request
    let t := s.modCrew c (fun k => { k with mbxBusy := true, mbxReply := [] })
    match parseDatagram bs with
    | some es => t.mbxServe c es
    | none =>
      let q : Req := { node := leNat ((bs.drop 3).take 1), tag := leNat ((bs.drop 4).take 2), index := 0, sub := 0, dir := false, offset := 0,
                       length := 0, data := [] }
      (t.endAttempt c).modCrew c (fun k => { k with mbxReply := buildDatagram q.node q.tag [(q, .abort .protocol)] })

/-- Whether a mailbox request has been carried out. -/
def State.mbxReady (s : State) (c : Nat) : Bool := s.configured && (s.crew c).mbxBusy && !(s.crew c).mbxReply.isEmpty

/-- A word written into the request buffer; discarded while busy (02 R45). -/
def State.mbxWrite (s : State) (c offset v : Nat) : State :=
  if (s.crew c).mbxBusy then s.raise (mbxStatus c) [1]
  else s.modCrew c (fun k => { k with mbxReq := (List.range 4).foldl (fun t i => tabSet t (offset + i) ((leBytes 4 v).getD i 0)) k.mbxReq })

/-! ### One request on any transport -/

/-- A READ, WRITE or DESCRIBE; one on Ethernet or in a mailbox is a message of one entry. -/
def State.request1 (s : State) (cmd : Nat) (via : Via) (q : Req) : State :=
  match via with
  | .can k client => s.canRequest k client cmd q
  | .eth k ip port => s.udpServe k ip port [(cmd, q)]
  | .mailbox c => ((s.modCrew c (fun k => { k with mbxBusy := true, mbxReply := [] })).mbxServe c [(cmd, q)])

/-- A mailbox request answered at once. -/
def State.answerNow (s : State) : Via → State
  | .mailbox c => if s.mbxReady c then s.mbxFinish c else s
  | _ => s

/-- A transport can take a request: the launch configuration has taken effect and its controller, or the crew's mailbox, can be reached
(02 R26, 15 R409). -/
def State.viaOpen (s : State) : Via → Bool
  | .can k _ => s.configured && decide (k < 2)
  | .eth k _ _ => s.configured && decide (k < 2)
  | .mailbox c => s.configured && decide (c < 512) && s.busOpen c && !(s.crew c).mbxBusy

/-! ### Forwarding (02 R47, 16 R421) -/

/-- The oldest request in flight to a node has gone unanswered for 50 ms: it and the other entries of its message answer NODE_UNREACHABLE. -/
def State.forwardFails (s : State) (node : Nat) : State :=
  match s.cascade.forwarded.find? (fun f => f.node == node) with
  | none => s
  | some g =>
    let mine := s.cascade.forwarded.filter (fun f => f.node == node && decide (f.via = g.via) && f.req.tag == g.req.tag && f.at_ == g.at_)
    let t := s.modCascade (fun k => { k with forwarded := k.forwarded.filter (fun f => !mine.contains f) })
    let rs := mine.map (fun f => (f.req, Rsp.abort .nodeUnreachable))
    match g.via with
    | .can k client => rs.foldl (fun u r => u.canRsp k client r.1 0xF r.2.data) t
    | .eth k ip port => t.send (.udp k ip port (buildDatagram node g.req.tag rs))
    | .mailbox c => t.modCrew c (fun k => { k with mbxReply := buildDatagram node g.req.tag rs })

def State.forwardDue (s : State) (node : Nat) : Bool :=
  s.configured && s.cascade.forwarded.any (fun f => f.node == node && decide (f.at_ + 50_000_000 ≤ s.now))

end Sys2Proof.Machine
end

