-- ==== Sys2Proof/Machine/RegView.lean ====
section
/-! DEFINITION. What every register reads (03 R69 to R71, 06 R171, 07 R199, 08 R227, R228, 09 R253, 10 R284, R285, 11 R316, R317, 12 R347,
R348, 13 R372, 14 R391, 16 R427). -/

namespace Sys2Proof.Machine

open Sys2Proof

/-! ### Fields that show an object -/

/-- A register field [hi:lo] that shows an object. `part` is the object's lowest bit shown; none shows the whole value as
(value − base) / scale. -/
structure RegField where
  hi : Nat
  lo : Nat
  index : Nat
  sub : Nat
  part : Option Nat
  base : Nat
  scale : Nat
  staged : Bool
  deriving DecidableEq, Repr, Inhabited

/-- A staged field, one that takes effect at once, a staged part of an object, and a staged code. -/
def stg (hi lo index sub : Nat) : RegField :=
  { hi := hi, lo := lo, index := index, sub := sub, part := none, base := 0, scale := 1, staged := true }
def imm (hi lo index sub : Nat) : RegField := { stg hi lo index sub with staged := false }
def prt (hi lo index sub bit : Nat) : RegField := { stg hi lo index sub with part := some bit }
def cod (hi lo index sub base scale : Nat) : RegField := { stg hi lo index sub with base := base, scale := scale }

/-- LANE[n] (07 R199). -/
def laneFields (n o : Nat) : List RegField :=
  let x (b : Nat) : Nat := laneIx n b
  match o with
  | 0x00 => [stg 25 21 (x 2) 3, stg 20 20 (x 6) 2, stg 19 17 (x 6) 1, stg 14 14 (x 6) 5, stg 13 13 (x 6) 3, stg 12 12 (x 2) 1,
             stg 11 11 (x 2) 2, stg 0 0 (x 0) 5]
  | 0x1C => [imm 27 16 (x 0) 0x15, stg 12 0 (x 0) 0x10]
  | 0x20 => [stg 29 16 (x 1) 4, stg 13 0 (x 1) 1]
  | 0x24 => [prt 31 31 (x 1) 9 0, stg 29 16 (x 1) 3, stg 13 0 (x 1) 2]
  | 0x28 => [stg 29 16 (x 2) 4, stg 13 0 (x 1) 5]
  | 0x2C => [prt 31 31 (x 1) 9 1, stg 29 16 (x 1) 6, stg 13 0 (x 1) 7]
  | 0x30 => [stg 13 0 (x 2) 5]
  | 0x34 => [stg 7 0 (x 2) 6]
  | 0x38 => [stg 31 0 (x 1) 8]
  | 0x40 => [stg 7 0 (x 6) 4]
  | 0x44 => [stg 15 8 (x 1) 0xA, stg 7 0 (x 1) 0xB]
  | 0x50 => [imm 15 8 (x 4) 2, stg 6 6 (x 4) 3, prt 5 5 (x 4) 9 1, prt 4 4 (x 4) 9 0, cod 3 2 (x 4) 8 6 2, stg 1 0 (x 4) 5]
  | 0x54 => [stg 28 16 (x 4) 7, stg 11 0 (x 4) 6]
  | 0x58 => [prt 31 0 (x 4) 1 0]
  | 0x5C => [prt 31 0 (x 4) 1 32]
  | 0x60 => [prt 31 0 (x 4) 4 0]
  | 0x64 => [prt 31 0 (x 4) 4 32]
  | 0x200 => [prt 20 20 (x 7) 5 3, prt 19 19 (x 7) 5 2, prt 18 18 (x 7) 5 1, prt 17 17 (x 7) 5 0, stg 16 16 (x 7) 6,
              stg 12 10 (x 7) 3, stg 7 5 (x 7) 2, stg 1 0 (x 7) 1]
  | 0x204 => [stg 12 0 (x 7) 4]
  | 0x210 => [stg 23 20 (x 7) 0xA, stg 17 8 (x 7) 9, stg 3 3 (x 7) 0xFE, cod 2 1 (x 7) 8 8 2, stg 0 0 (x 7) 7]
  | 0x214 => [stg 12 0 (x 7) 0xB]
  | 0x220 => [imm 31 18 (x 7) 0xD, { prt 17 17 (x 7) 0xF 1 with staged := false }, { prt 16 16 (x 7) 0xF 0 with staged := false },
              imm 12 0 (x 7) 0xE]
  | 0x230 => [stg 4 0 (x 7) 0xC]
  | _ => []

/-- CAM[p] (09 R253). -/
def camFields (p o : Nat) : List RegField :=
  if o < 0x100 then
    match o with
    | 0x00 => [imm 0 0 (camIx p 0) 1, imm 1 1 (camIx p 0) 2, imm 4 2 (camIx p 0) 3, imm 6 5 (camIx p 0) 6]
    | 0x04 => [imm 12 0 (camIx p 0) 4]
    | 0x08 => [imm 15 0 (camIx p 0) 5]
    | _ => []
  else
    let x := camIx p (0x10 + (o - 0x100) / 0x20)
    match (o - 0x100) % 0x20 with
    | 0x00 => [imm 16 16 x 6, imm 7 0 x 1, imm 11 8 x 2, { cod 15 12 x 3 0x30 1 with staged := false }]
    | 0x04 => [imm 31 0 x 4]
    | 0x08 => [imm 15 0 x 5]
    | _ => []

/-- The region window of lane `n` (12 R347); the rectangle of photo.rect is x0, y0, x1, y1 from its low half-word up. -/
def photoFields (n o : Nat) : List RegField :=
  if o < 0x1000 then []
  else
    let x := regionIx n ((o - 0x1000) / 0x40)
    match (o - 0x1000) % 0x40 with
    | 0x00 => [stg 27 24 x 5, stg 19 16 x 6, stg 15 14 x 7, stg 11 8 x 8, stg 2 0 x 1]
    | 0x04 => [prt 29 16 x 2 32, prt 13 0 x 2 0]
    | 0x08 => [prt 28 16 x 2 48, prt 12 0 x 2 16]
    | 0x0C => [stg 31 0 x 3]
    | 0x10 => [stg 15 0 x 4]
    | 0x14 => [imm 8 0 x 0xD]
    | 0x18 => [stg 31 0 x 9]
    | 0x1C => [stg 31 0 x 0xA]
    | 0x20 => [stg 31 0 x 0xB]
    | 0x24 => [stg 31 0 x 0xC]
    | _ => []

/-- PHOTO.LANE_SEL. -/
def State.laneSel (s : State) : Nat := s.reg Block.photo.base 0 % 8

/-- The fields of a register that show objects. -/
def State.fieldsAt (s : State) (b : Block) (o : Nat) : List RegField :=
  match b with
  | .lane n => laneFields n o
  | .cam p => camFields p o
  | .photo => photoFields s.laneSel o
  | _ => []

/-- A field's bits for an object's value. -/
def RegField.code (f : RegField) (v : Nat) : Nat :=
  match f.part with
  | some b => bits v (b + f.hi - f.lo) b
  | none => (v - f.base) / f.scale

/-- The object's value with a field's bits put into `old`. -/
def RegField.put (f : RegField) (old c : Nat) : Nat :=
  match f.part with
  | some b => old - bits old (b + f.hi - f.lo) b * 2 ^ b + c * 2 ^ b
  | none => f.base + f.scale * c

/-- The value in effect that a field shows: a region's expected CRC is the one its frames are judged by (02 R30, 12 R323). -/
def State.fieldNum (s : State) (f : RegField) : Nat :=
  if within 0x7100 0x71FF f.index && decide (f.sub = 3) then (s.region (f.index - 0x7100)).expected else s.num f.index f.sub

def State.fieldWord (s : State) (fs : List RegField) : Nat := (fs.map (fun f => f.code (s.fieldNum f) * 2 ^ f.lo)).sum

/-! ### Registers without an object -/

/-- Halves of a 64-bit quantity. -/
def lo32 (n : Nat) : Nat := n % 2 ^ 32
def hi32 (n : Nat) : Nat := n / 2 ^ 32 % 2 ^ 32

/-- A word of a wide quantity. -/
def wordAt (n k : Nat) : Nat := n / 2 ^ (32 * k) % 2 ^ 32

def State.sysReg (s : State) (o : Nat) : Nat :=
  let a := s.access
  match o with
  | 0x00 => sysId
  | 0x04 => Config.fwVersion % 2 ^ 32
  | 0x08 => s.modes.previous * 2 ^ 8 + b2n s.modes.portsDisabled * 8 + s.modes.mode.code
  | 0x10 => s.num 0x2000 2
  | 0x20 => a.dkAddr
  | 0x24 => a.dkInfo
  | 0x28 => a.unimplAddr
  | 0x2C => a.unimplInfo
  | 0x30 => a.accessAddr
  | 0x34 => a.accessInfo
  | 0x38 => a.pvAddr
  | 0x3C => a.pvMask
  | 0x40 => a.seqRejectAddr
  | 0x44 => s.modes.cause
  | 0x48 => s.modes.straps % 64
  | 0x50 => lo32 s.uptime
  | 0x54 => hi32 s.uptime
  | _ => 0

/-- POWER.VCORE and TJ follow what no command tells: free values in their ranges (03 R70). -/
def State.powerReg (s : State) (o : Nat) : Nat :=
  match o with
  | 0x00 => wordAt s.power.on 0
  | 0x04 => wordAt s.power.on 1
  | 0x08 => wordAt s.power.on 2
  | 0x38 => s.reg 0x1_0038 0
  | 0x44 => 650 + s.free % 201
  | 0x48 => s.free % 2 ^ 16
  | 0x4C => s.power.throttle
  | _ => 0

def State.clkReg (s : State) (o : Nat) : Nat :=
  match o with
  | 0x08 => s.clocks.active
  | 0x0C => unsignedOf 32 s.clocks.drift
  | 0x10 => s.clocks.watchHz % 2 ^ 32
  | 0x18 => s.num 0x2002 3
  | _ => 0

def State.laneReg (s : State) (n o : Nat) : Nat :=
  let l := s.lane n
  match o with
  | 0x04 => s.laneLine n * 2 ^ 16 + b2n l.commitBusy * 2 ^ 8 + b2n l.cameraLock * 2 ^ 7 + b2n l.genlockAligned * 2 ^ 6 +
      b2n l.isRetiming * 2 ^ 5 + b2n l.porchExtended * 2 ^ 4 + s.discipline n * 2 ^ 3 + l.stateCode
  | 0x08 => lo32 (s.frame n)
  | 0x14 => l.commitResult
  | 0x18 => l.commitAbort
  | 0x34 => l.reachUp * 2 ^ 24 + l.reachDown * 2 ^ 16
  | 0x3C => unsignedOf 16 l.trackOffset * 2 ^ 16 + b2n l.tracking * 2 + b2n l.locked
  | 0x90 => s.low (laneCount n 0x08)
  | 0x94 => s.low (laneCount n 0x10)
  | 0x98 => s.low (laneCount n 0x18)
  | 0x9C => s.low (laneCount n 0x20)
  | 0xA0 => l.underrunInfo
  | 0xA4 => l.stallInfo
  | 0xB0 => s.pendingSeq n
  | 0xB4 => l.appliedSeq
  | 0xB8 => l.presentedSeq
  | 0x234 => l.synthRef * 2 ^ 30 + l.synthN * 2 ^ 12 + l.synthP
  | 0x238 => l.synthF
  | 0x284 => l.failReason * 2 ^ 16 + l.trainedRate * 2 ^ 10 + l.trainedLanes * 2 ^ 5 + l.link.code
  | _ => 0

def State.camReg (s : State) (p o : Nat) : Nat :=
  let c := s.cam p
  if o < 0x100 then
    match o with
    | 0x0C => (s.slot (p * 4 + s.num (camIx p 0) 6)).linePeriod * 2 ^ 8 + s.camState p
    | 0x20 => lo32 c.crcErrors
    | 0x24 => lo32 c.headerErrors
    | 0x28 => lo32 c.dtDrops
    | _ => 0
  else
    let k := p * 4 + (o - 0x100) / 0x20
    let q := s.slot k
    match (o - 0x100) % 0x20 with
    | 0x0C => lo32 q.frames
    | 0x10 => (if s.camOn p ∧ s.slotOn k then q.mode.code else 0) * 2 ^ 30 + q.linesReceived % 2 ^ 14 * 2 ^ 16 + q.lastFlags % 16
    | _ => 0

/-- CH.STATE (10 R284). -/
def ChMode.code : ChMode → Nat
  | .idle => 0 | .running => 1 | .waiting => 2 | .stopped => 3 | .error => 4

/-- A channel's registers of state; `k` counts utility DMA channels from 64. -/
def State.channelReg (s : State) (k r : Nat) : Nat :=
  let c := s.channel k
  let owned := decide (k < 64) && decide (s.num (0x2200 + k) 1 ≠ 0xFFFF)
  match r with
  | 0x44 => b2n c.managed.isSome * 2 ^ 26 + b2n owned * 2 ^ 25 + (if k < 64 then (s.chOwner k).getD 0 else 0) * 2 ^ 16 + c.err * 2 ^ 8 +
      c.pending * 2 ^ 4 + c.mode.code
  | 0x4C => c.outer % 2 ^ 16 * 2 ^ 16 + c.middle % 2 ^ 16
  | 0x50 => lo32 c.desc
  | 0x54 => hi32 c.desc
  | 0x58 => c.leftover
  | 0x5C => if k < 64 then s.low (chanCount k) else 0
  | 0x60 => c.hops % 2 ^ 16
  | _ => 0

/-- The channels in a state, as a word of 32 from `first` on. -/
def State.channelsIn (s : State) (m : ChMode) (first n : Nat) : Nat :=
  ((List.range n).map (fun i => if (s.channel (first + i)).mode = m then 2 ^ i else 0)).sum

def State.moveReg (s : State) (o : Nat) : Nat :=
  match o with
  | 0xC4 => b2n s.mover.stoppedAll
  | 0xC8 => s.mover.syndrome
  | 0xCC => lo32 s.mover.errAddr
  | 0xD0 => hi32 s.mover.errAddr
  | 0xE0 => s.channelsIn .stopped 0 32
  | 0xE4 => s.channelsIn .stopped 32 32
  | _ => s.channelReg (o / 0x100) (o % 0x100)

def State.udmaReg (s : State) (o : Nat) : Nat :=
  if o = 0x800 then s.channelsIn .error 64 8 * 2 ^ 16 else s.channelReg (64 + o / 0x100) (o % 0x100)

/-- An entry of the umpire's log by its place (12 R348): entry j of the 16 that are written in turn. -/
def State.logAt (s : State) (j : Nat) : Option LogEntry :=
  if s.umpire.logCount = 0 then none else s.umpire.log[((s.umpire.logCount - 1) % 16 + 16 - j) % 16]?

def LogEntry.word (e : LogEntry) (k : Nat) : Nat :=
  match k with
  | 0 => b2n e.setBit * 2 ^ 12 + e.cls * 2 ^ 8 + e.source
  | 1 => e.detail % 2 ^ 32
  | 2 => lo32 e.time
  | _ => hi32 e.time

def C3Record.reg (r : C3Record) (o : Nat) : Nat :=
  match o with
  | 0x200 => b2n r.limpEntered * 2 ^ 9 + 2 ^ 8 + r.source
  | 0x204 => r.detail % 2 ^ 32
  | 0x208 => lo32 r.time
  | 0x20C => hi32 r.time
  | _ => wordAt r.word ((o - 0x210) / 4)

def State.umpireReg (s : State) (o : Nat) : Nat :=
  let u := s.umpire
  if o < 0x10 then (if o = 8 then u.snapSeq else 0)
  else if o < 0x20 then wordAt u.snap ((o - 0x10) / 4)
  else if o < 0x30 then wordAt u.active ((o - 0x20) / 4)
  else if o < 0x40 then wordAt u.clearSel ((o - 0x30) / 4)
  else if o = 0x40 then
    s.limp.pair % 4 * 2 ^ 20 + s.limp.lane % 8 * 2 ^ 16 + b2n s.limpIntact * 2 ^ 13 + b2n s.limp.record.isSome * 2 ^ 12 + b2n u.nfaultLow * 2 ^ 8 +
      s.num 0x7000 2
  else if o = 0x44 then u.logCount % 2 ^ 24 * 2 ^ 8 + (u.logCount + 15) % 16 * b2n (decide (0 < u.logCount))
  else if o < 0x100 then s.classWord ((o - 0x80) / 8)
  else if o < 0x200 then ((s.logAt ((o - 0x100) / 0x10)).map (fun e => e.word (o % 0x10 / 4))).getD 0
  else if o < 0x220 then (u.c3.map (fun r => r.reg o)).getD 0
  else if o = 0x220 then s.reg (Block.umpire.base + 0x220) 0
  else if o = 0x300 then b2n u.injectHold * 2 ^ 8 + u.injectSource
  else 0

def State.photoReg (s : State) (o : Nat) : Nat :=
  if o < 0x1000 then
    (if 0x40 ≤ o then ((List.range 32).map (fun i => if (s.region ((o - 0x40) / 4 * 32 + i)).failed then 2 ^ i else 0)).sum else 0)
  else
    let r := s.region (s.laneSel * 32 + (o - 0x1000) / 0x40)
    match (o - 0x1000) % 0x40 with
    | 0x28 => (r.crcs.head?.map Prod.snd).getD 0
    | 0x2C => r.history * 2 ^ 16 + r.frame % 256 * 2 ^ 8 + min r.run 15 * 2 ^ 4 + b2n r.window.isSome * 2
    | 0x30 => r.counts.getD 0 0
    | 0x34 => r.counts.getD 1 0
    | 0x38 => r.counts.getD 2 0
    | 0x3C => r.counts.getD 3 0
    | _ => 0

def State.coxReg (s : State) (o : Nat) : Nat :=
  match o with
  | 0x08 => lo32 s.placement.generation
  | 0x10 => ((List.range 8).map (fun i => s.shedStep i * 16 ^ i)).sum
  | 0x14 => ((List.range 3).map (fun i => s.shedStep (8 + i) * 16 ^ i)).sum
  | 0x18 => s.reg (Block.cox.base + 0x18) 0
  | 0x20 => s.modes.selftest
  | 0x24 => s.placement.shellOk
  | 0x28 => (s.placement.shellTest.map (fun k => 16 + k)).getD 0
  | _ => 0

/-- SEC.DBG_CHALLENGE reads 0 here: no row of register accesses comes from JTAG (14 R391). -/
def State.secReg (s : State) (o : Nat) : Nat :=
  match o with
  | 0x00 => s.sec.stateWord
  | 0x08 => s.sec.bootStatus
  | 0x0C => s.sec.fuses.minVersion
  | 0x10 => s.sec.policy
  | 0x18 => s.reg (Block.sec.base + 0x18) 0
  | 0x40 => s.sec.fusesWord
  | _ => 0

def SlkMode.code : SlkMode → Nat
  | .off => 0 | .training => 1 | .authenticating => 2 | .up => 3 | .refused => 4

def State.slkReg (s : State) (o : Nat) : Nat :=
  let k := s.link ((o - 0x10) / 0x10)
  match o with
  | 0x04 => s.reachableMask * 2 ^ 8 + s.nodeByte
  | 0x10 | 0x20 => k.reason * 2 ^ 8 + b2n k.towards * 2 ^ 6 + k.peer * 2 ^ 4 + k.mode.code
  | 0x14 | 0x24 => k.delay % 2 ^ 16
  | 0x18 | 0x28 => k.retries % 2 ^ 32
  | _ => 0

def State.hostReg (s : State) (p o : Nat) : Nat :=
  let q := s.port p
  match o with
  | 0x00 => b2n q.linkUp * 2 ^ 9 + b2n q.l0 * 2 ^ 8 + q.speed * 2 ^ 4 + q.lanes
  | 0x10 => q.tags
  | _ => 0

def State.matrixReg (s : State) (o : Nat) : Nat :=
  match o with
  | 0x08 => lo32 s.access.matrixAddr
  | 0x0C => hi32 s.access.matrixAddr
  | 0x10 => s.access.matrixInfo
  | _ => 0

/-- The counter behind a holding register's offset (03 R71): the crew window shows the port that CREW_SEL names. -/
def State.heldKey (s : State) (o : Nat) : Nat :=
  if o < 0x2000 then o / 8 * 8
  else crewCount (s.reg (Block.counts.base + 0x10) 0 % 4 * 128 + (o - 0x2000) / 0x20) (o % 0x20 / 8 * 8)

def State.countsReg (s : State) (o : Nat) : Nat :=
  if o = 0 then 0
  else if o = 4 then lo32 s.counts.snapSeq
  else if o = 8 then lo32 s.counts.snapTime
  else if o = 0xC then hi32 s.counts.snapTime
  else
    let v := tabGet 0 s.counts.held (s.heldKey o)
    if o % 8 = 0 then lo32 v else hi32 v

/-- A word of the response buffer (02 R45). -/
def bufferWord (bs : List Byte) (o : Nat) : Nat := leNat ((bs.drop o).take 4)

/-- A register of a crew's page that has no object; the request buffer of the mailbox, whose reads R45 does not give, reads 0
(notes/assumptions/101). -/
def State.crewReg (s : State) (c o : Nat) : Nat :=
  let k := s.crew c
  if 0x2800 ≤ o ∧ o < 0x3000 then bufferWord k.mbxResp (o - 0x2800)
  else
    match o with
    | 0x08 => b2n k.inItem * 2 ^ 8 + k.cqWords
    | 0x10 => s.low (crewCount c 0)
    | 0x14 => s.low (crewCount c 8)
    | 0x20 => ((k.eq.head?).map (fun w => w % 2 ^ 32)).getD 0x000F_FFFF
    | 0x24 => k.eqPopHi
    | 0x28 => k.eq.length
    | 0x2C => k.eqDrops % 2 ^ 32
    | 0x44 => c % 128 * 2 ^ 24 + c / 128 * 2 ^ 16 + c
    | 0x48 => k.lastCommit
    | 0x68 => b2n k.xltBusy * 2
    | 0x70 => lo32 k.xltFaultAddr
    | 0x74 => hi32 k.xltFaultAddr
    | 0x78 => k.xltFaultInfo
    | 0x7C => k.xltFaultCount
    | 0x1800 => b2n s.mover.stoppedAll
    | 0x3000 => b2n k.mbxNotify * 4 + b2n k.mbxBusy * 2
    | 0x3C00 => k.msixPending
    | _ => 0

/-- A register's bits that have no object and no word of their own in `State.regs`. -/
def State.blockReg (s : State) (b : Block) (o : Nat) : Nat :=
  match b with
  | .sys => s.sysReg o
  | .power => s.powerReg o
  | .clk => s.clkReg o
  | .lane n => s.laneReg n o
  | .cam p => s.camReg p o
  | .shell _ => 0
  | .move => s.moveReg o
  | .udma => s.udmaReg o
  | .matrix => s.matrixReg o
  | .umpire => s.umpireReg o
  | .photo => s.photoReg o
  | .cox => s.coxReg o
  | .sec => s.secReg o
  | .smu => s.smu.view.getD (o / 4) 0
  | .slk => s.slkReg o
  | .host p => s.hostReg p o
  | .counts => s.countsReg o
  | .crew c => s.crewReg c o

/-! ### One register -/

/-- A register that an address names: the block and offset that hold it, its row, the page whose accesses it counts among, which of
the four address ranges was used (0 itself, 1 set, 2 clear, 3 toggle, 03 R56), and the power domain it needs (R67). -/
structure Reg where
  block : Block
  off : Nat
  row : RegRow
  page : Nat
  range : Nat
  domain : Option Nat
  deriving DecidableEq, Repr, Inhabited

/-- A register's address in crew 0's window. -/
def Reg.addr (r : Reg) : Nat := r.block.base + r.off

/-- Where a register's stored bits lie: the region window shows another lane's at each LANE_SEL. -/
def State.regKey (s : State) (r : Reg) : Nat :=
  if r.block = .photo ∧ 0x1000 ≤ r.off then r.addr + s.laneSel * 2 ^ 32 else r.addr

/-- The register at an address of crew 0's window; none is unimplemented (03 R54 to R56). A crew's j-th channel is at its place in
MOVE (10 R265). -/
def State.regAt (s : State) (a : Nat) : Option Reg :=
  match blockAt a with
  | none => none
  | some b =>
    let o := a % 0x4000
    let range := a % 0x1_0000 / 0x4000
    let own (c : Nat) : List Nat := s.channelsOf c
    match b with
    | .crew c =>
      (regRow b o (own c).length).map (fun row =>
        if 0x1000 ≤ o ∧ o < 0x1800 then
          let off := (own c).getD ((o - 0x1000) / 0x100) 0 * 0x100 + o % 0x100
          { block := .move, off := off, row := { row with off := off }, page := a / 0x1_0000, range := range, domain := some 92 }
        else { block := b, off := o, row := row, page := a / 0x1_0000, range := range, domain := blockDomain b })
    | .photo =>
      (regRow b o 0).map (fun row =>
        { block := b, off := o, row := row, page := a / 0x1_0000, range := range,
          domain := if 0x1000 ≤ o then some (64 + s.laneSel) else blockDomain b })
    | _ => (regRow b o 0).map (fun row =>
        { block := b, off := o, row := row, page := a / 0x1_0000, range := range, domain := blockDomain b })

/-- The register that an access names. -/
def State.regOf (s : State) (acc : Acc) : Option Reg := (globalOf acc).bind s.regAt

/-- What a register reads, without any effect of the read. PV bits read as they are held (03 R64). -/
def State.peek (s : State) (r : Reg) : Nat :=
  match r.row.kind with
  | .plain => s.reg (s.regKey r) r.row.reset
  | .keyB => 0
  | .status => (s.statusAt r.addr).word + s.blockReg r.block r.off + (s.reg (s.regKey r) 0 &&& r.row.pv)
  | .keyA => s.blockReg r.block r.off
  | _ => s.fieldWord (s.fieldsAt r.block r.off) + s.blockReg r.block r.off + (s.reg (s.regKey r) 0 &&& r.row.pv)

/-! ### The latch of 64-bit registers (03 R62) -/

/-- The low half of a 64-bit register, its _HI half at the next offset, where both lie in one aligned 8 bytes (03 R55). The two addresses of
a dual-key register and the status words are no such pair. -/
def Reg.isLow (r : Reg) : Bool :=
  let o := r.off
  decide (o % 8 = 0) &&
  (match r.block with
   | .sys => decide (o = 0x50)
   | .power => decide (o = 0) || decide (o = 0x10) || decide (o = 0x20)
   | .lane _ => decide (o = 0x58) || decide (o = 0x60)
   | .cox => decide (o = 0x10)
   | .move =>
     if 0xC0 ≤ o ∧ o < 0x100 then decide (o = 0xD8) || decide (o = 0xE0)
     else decide (o % 0x100 = 0) || decide (o % 0x100 = 8) || decide (o % 0x100 = 0x50)
   | .udma => decide (o < 0x800) && (decide (o % 0x100 = 0) || decide (o % 0x100 = 8))
   | .matrix => decide (o = 8)
   | .umpire => decide (o = 0x208) || (decide (0x100 ≤ o) && decide (o < 0x200) && decide (o % 0x10 = 8))
   | .smu => decide (o = 8) || decide (o = 0x10) || decide (o = 0x18)
   | .counts => decide (o = 8) || isCounterOff o
   | .crew _ => decide (o = 0) || decide (o = 0x20) || decide (o = 0x60) || decide (o = 0x70)
   | _ => false)

/-- Registers that are the low half of a live 64-bit register, at their own address: a read through an alias fills no latch
(notes/assumptions/40). -/
def isLiveLow (r : Reg) : Bool :=
  let o := r.off
  decide (r.range = 0) &&
  (match r.block with
   | .sys => decide (o = 0x50)
   | .power => decide (o = 0)
   | .cox => decide (o = 0x10)
   | .move => decide (o = 0xCC) || decide (o = 0xE0) || (!(decide (0xC0 ≤ o) && decide (o < 0x100)) && decide (o % 0x100 = 0x50))
   | .matrix => decide (o = 8)
   | .umpire => decide (o = 0x208) || (decide (0x100 ≤ o) && decide (o < 0x200) && decide (o % 0x10 = 8))
   | .smu => decide (o = 8) || decide (o = 0x10) || decide (o = 0x18)
   | _ => false)

/-- SYS.DK_INFO.source (03 R69). -/
def masterCode : Master → Nat
  | .host p => p | .spi => 4 | .cox => 5 | .cascade => 6

/-- The latch of a master and crew for the high half at an address. -/
def latchKey (m : Master) (crew a : Nat) : Nat := (masterCode m * 512 + crew) * 2 ^ 32 + a

/-- A register read by a master in a crew's window: its value, and the read's effect — a latch filled or used (03 R62), a completion item
taken (11 R300), a free reading used up. -/
def State.readReg (s : State) (m : Master) (crew : Nat) (r : Reg) : State × Nat :=
  let v := s.peek r
  match r.block with
  | .crew c =>
    if r.off = 0x20 ∧ r.range = 0 then
      (s.modCrew c (fun k => { k with eq := k.eq.drop 1, eqPopHi := (k.eq.head?.map (fun w => w / 2 ^ 32)).getD 0 }), v)
    else (s, v)
  | _ =>
    if isLiveLow r then
      let high : Nat := match s.regAt (r.addr + 4) with | some h => s.peek h | none => 0
      ({ s with latches := tabSet s.latches (latchKey m crew (r.addr + 4)) high }, v)
    else if r.block = .power ∧ (r.off = 0x44 ∨ r.off = 0x48) then (s.used, v)
    else (s, tabGet v s.latches (latchKey m crew r.addr))

end Sys2Proof.Machine
end

