-- ==== Sys2Proof/Machine/Registers.lean ====
section
/-! DEFINITION. Register accesses: shapes, aliases, the sequence clear, dual keys, PV, power gating, the SPI port, and what a write of each
register does (03 R53 to R71 and the map of each block). -/

namespace Sys2Proof.Machine

open Sys2Proof

/-! ### Who may access what -/

/-- The page that an access reaches: dual-key attempts are counted by it. An address outside its window reaches none. -/
def pageOf (acc : Acc) : Nat :=
  match globalOf acc with
  | some a => a / 0x1_0000
  | none => 0x400

/-- 256 cox clocks at 800 MHz (03 R60). -/
def keyTime : Nat := 320

/-- Another master than the cox has a dual-key attempt open in a block (03 R61). -/
def State.keyOpen (s : State) (page : Nat) : Bool :=
  (tabFind s.keys page).any (fun k => decide (k.master ≠ .cox) && decide (s.now ≤ k.openedAt + keyTime))

/-- The SPI port still answers with booting set: for at most 1 ms after reset release (03 R66, 15 R406). -/
def State.fabricBoots (s : State) : Bool :=
  decide (s.now < s.modes.resetAt + 1_000_000) && decide (s.now < s.modes.resetAt + Config.fabricTime)

/-- The master reaches the window: a host port its own functions' crews, a crew's page while no pop of it waits (11 R301), the SPI port crew 0's window, the cox any but a block with another
master's dual-key attempt, the cascade master any (03 R53, R61, R66, 11 R287). -/
def State.accOpen (s : State) (acc : Acc) : Bool :=
  s.awake && decide (acc.crew < 512) &&
  (match acc.master with
   | .host p => decide (acc.crew / 128 = p) && s.busOpen acc.crew &&
       !((s.crew acc.crew).popSince.isSome && (s.regOf acc).any (fun r => decide (r.block = .crew acc.crew)))
   | .spi => decide (acc.crew = 0) && !s.fabricBoots
   | .cox => !s.keyOpen (pageOf acc)
   | .cascade => true)

/-- Crew and source as the records of SYS hold them (03 R69). -/
def sourceBits (m : Master) (crew : Nat) : Nat := crew % 512 * 2 ^ 16 + masterCode m * 2 ^ 4

/-! ### Irregular accesses (03 R61, R64, R65, R67) -/

/-- An access to an unimplemented address, or of a shape that no register takes. -/
def State.unimpl (s : State) (acc : Acc) (write part shape : Bool) : State :=
  (((s.modAccess (fun x =>
      { x with unimplAddr := acc.addr % 2 ^ 32,
               unimplInfo := sourceBits acc.master acc.crew + b2n shape * 4 + b2n part * 2 + b2n write })).count 0x30 1).raise
    sysStatus [3]).occur 46 acc.addr

/-- An access ended by a syndrome: 1 DOMAIN_ASLEEP, 2 STALL_TIMEOUT. -/
def State.accessEnds (s : State) (acc : Acc) (domain : Option Nat) (syndrome : Nat) : State :=
  (((s.modAccess (fun x =>
      { x with accessAddr := acc.addr % 2 ^ 32, accessInfo := domain.getD 0xFF * 2 ^ 8 + masterCode acc.master * 2 ^ 4 + syndrome })).count
    0x38 1).raise sysStatus [4]).occur 46 acc.addr

/-- A dual-key abort with its reason: recorded, counted, and on a SEC register a security alarm. -/
def State.keyAbort (s : State) (page : Nat) (m : Master) (crew addr reason : Nat) : State :=
  let t := (((s.modAccess (fun x => { x with dkAddr := addr % 2 ^ 32, dkInfo := sourceBits m crew + reason })).count 0x28 1).raise
    sysStatus [2]).occur 46 addr
  if page = 0x80 then t.alarm 6 else t

/-- The open attempt of a block ends with a reason, if there is one. -/
def State.disturb (s : State) (page reason : Nat) : State :=
  match tabFind s.keys page with
  | some k => ({ s with keys := tabErase s.keys page }).keyAbort page k.master k.crew k.addr reason
  | none => s

/-- An attempt whose time has passed is aborted before anything that follows it. -/
def State.expireKey (s : State) (page : Nat) : State :=
  match tabFind s.keys page with
  | some k => if k.openedAt + keyTime < s.now then s.disturb page 3 else s
  | none => s

/-- An attempt's time-out. -/
def State.keyDue (s : State) (page : Nat) : Bool :=
  s.awake && (tabFind s.keys page).any (fun k => decide (k.openedAt + keyTime ≤ s.now))

/-! ### Power gating (03 R67) -/

/-- AUTOWAKE of a domain; PD[94] and PD[95] never wake on access. -/
def State.autowake (s : State) (d : Nat) : Bool :=
  if d < 32 then bitOf (s.reg 0x1_0010 all32) d
  else if d < 64 then bitOf (s.reg 0x1_0014 all32) (d - 32)
  else if d < 94 then bitOf (s.reg 0x1_0018 0x3FFF_FFFF) (d - 64) else false

/-- Whether an access to a register of a domain can complete, as the domain is or as AUTOWAKE brings it up. -/
def State.reachable (s : State) (d : Option Nat) : Bool :=
  match d with
  | none => true
  | some k => s.domainOn k || s.autowake k

/-- The domain of a completing access comes up. -/
def State.wakeFor (s : State) (d : Option Nat) : State :=
  match d with
  | none => s
  | some k => if s.domainOn k then s else (s.setDomain k true).raise powerStatus [1]

/-! ### PV bits and write-backs (03 R58, R64) -/

/-- The held word with some bits replaced. -/
def merged (old v mask : Nat) : Nat := (old &&& (all32 ^^^ mask)) ||| (v &&& mask)

/-- The PV bits of a whole write: taken in FACTORY, else compared and recorded. Status registers ignore what is written there (R58). -/
def State.pvCheck (s : State) (acc : Acc) (r : Reg) (v : Nat) : State :=
  let held := s.reg (s.regKey r) (if r.row.kind = .plain then r.row.reset else 0)
  let differ := (held ^^^ v) &&& r.row.pv
  if r.row.kind = .status ∨ differ = 0 then s
  else if s.modes.mode = .factory then s.setReg (s.regKey r) (merged held v r.row.pv)
  else
    (((s.modAccess (fun x => { x with pvAddr := acc.addr % 2 ^ 32, pvMask := differ })).count 0x40 1).raise sysStatus [5]).occur 47 acc.addr

/-- A write-back of a status register: events up to the sequence clear, or a value not yet issued is counted. -/
def State.writeBack (s : State) (acc : Acc) (r : Reg) (v : Nat) : State :=
  let sq := bits v 31 24
  if (s.statusAt r.addr).valid sq then s.modStatus r.addr (fun st => st.cleared sq)
  else ((s.modAccess (fun x => { x with seqRejectAddr := acc.addr % 2 ^ 32 })).count 0x20 1).raise sysStatus [6]

/-! ### Dual-key values (03 R60, R61) -/

/-- A dual-key register's value takes effect: `r` is its KEY_A. -/
def State.keyEffect (s : State) (r : Reg) (v : Nat) : State :=
  let kept := s.setReg r.addr v
  match r.block, r.off with
  | .sys, _ => s.registerMode v
  | .power, _ => kept.sleepRequest v
  | .clk, _ => if bitOf v 0 then (s.setNum 0x2002 3 1).restoreRef else s.setNum 0x2002 3 0
  | .cox, _ => if v = 1 then kept.askSelftest else kept
  | .umpire, o => if o = 0x220 then kept.ackC3 v else s.writeClass ((o - 0x80) / 8) v
  | .sec, o => if o = 0x10 then s.writePolicy v else kept.revokeSlot v
  | _, _ => s

/-- A KEY_A write opens an attempt and ends the one that was open in its block. -/
def State.keyA (s : State) (acc : Acc) (page v : Nat) : State :=
  let t := s.disturb page 5
  let k : KeyAttempt :=
    { master := acc.master, crew := acc.crew, addr := acc.addr, value := BitVec.ofNat 32 v, openedAt := t.now }
  if t.awake then { t with keys := tabSet t.keys page k } else t

/-- A KEY_B write completes its owner's attempt with the complement; any other ends the attempt, or is recorded where none is open. -/
def State.keyB (s : State) (acc : Acc) (page v : Nat) : State :=
  match tabFind s.keys page with
  | none => s.keyAbort page acc.master acc.crew (acc.addr - 4) 4
  | some k =>
    if k.master = acc.master ∧ k.crew = acc.crew ∧ k.addr + 4 = acc.addr then
      if v = k.value.toNat ^^^ all32 then
        (match s.regOf { acc with addr := k.addr } with
         | some a => ({ s with keys := tabErase s.keys page }).keyEffect a k.value.toNat
         | none => s)
      else s.disturb page 2
    else s.disturb page 1

/-! ### Fields that write objects -/

/-- The value that a field of a write wants: the bits written, or for an alias those of its AL bit written as 1 (03 R56). The present value is
the one in effect. -/
def State.wanted (s : State) (r : Reg) (v : Nat) (f : RegField) : Option Nat :=
  if r.range = 0 then some (bits v f.hi f.lo)
  else if f.hi = f.lo ∧ bitOf r.row.al f.lo ∧ bitOf v f.lo then
    some (if r.range = 1 then 1 else if r.range = 2 then 0 else 1 - f.code (s.num f.index f.sub))
  else none

/-- A value fits its object. -/
def fieldOk (f : RegField) (v : Nat) : Bool :=
  match objRow f.index f.sub with
  | some row => row.ty.fits v && row.ok v
  | none => true

/-- One field written: staged for crew 0 or put into effect; false where it is refused. -/
def State.putField (s : State) (f : RegField) (c : Nat) : State × Bool :=
  let key := objKey f.index f.sub
  let held := s.num f.index f.sub
  let v := f.put (if f.staged then (stagedVal (s.crew 0).staged key).getD held else held) c
  if !fieldOk f v then (s, false)
  else if f.staged then (s.stage 0 key (.num v), true) else (s.setKey key (.num v), true)

/-- The fields of a write in turn; false where one was refused. -/
def State.putFields (s : State) (r : Reg) (v : Nat) : List RegField → State × Bool
  | [] => (s, true)
  | f :: rest =>
    match s.wanted r v f with
    | none => s.putFields r v rest
    | some c =>
      let (t, ok) := s.putField f c
      let (u, all) := t.putFields r v rest
      (u, ok && all)

/-- A camera field written with the checks of its object (09 R253); one that keeps its value is no write. -/
def State.putCam (s : State) (p : Nat) (f : RegField) (c : Nat) : State × Bool :=
  let held := s.num f.index f.sub
  let v := f.put held c
  if v = held then (s, true)
  else if !fieldOk f v then (s, false)
  else
    match s.writeCam 0 p (f.index % 256) f.sub (.num v) with
    | (t, none) => (t, true)
    | (_, some _) => (s, false)

/-- A camera register written: an enable that turns off comes first, one that turns on last. -/
def State.camWrite (s : State) (p : Nat) (r : Reg) (v : Nat) : State :=
  let fs := s.fieldsAt r.block r.off
  let isOn (f : RegField) : Bool := decide (f.hi = f.lo ∧ (f.sub = 1 ∧ f.index % 256 = 0 ∨ f.sub = 6 ∧ f.index % 256 ≠ 0)) && decide (s.wanted r v f = some 1)
  let ordered := fs.filter (fun f => !isOn f) ++ fs.filter isOn
  let (t, ok) := ordered.foldl (fun (x : State × Bool) f =>
    match x.1.wanted r v f with
    | none => x
    | some c => let (u, good) := x.1.putCam p f c; (u, x.2 && good)) (s, true)
  if ok then t else t.raise (camStatus p) [11]

/-- A region register written (12 R347): on the sealed unit's region it is refused. -/
def State.photoWrite (s : State) (r : Reg) (v : Nat) : State :=
  let n := s.laneSel
  let i := (r.off - 0x1000) / 0x40
  if s.sealedRegion n i then s.raise (photoStatus n) [3]
  else
    let (t, ok) := s.putFields r v (s.fieldsAt r.block r.off)
    let u := if ok then t else t.raise (photoStatus n) [3]
    if (r.off - 0x1000) % 0x40 = 0 ∧ r.range = 0 ∧ bitOf v 3 then u.rearm n i else u

/-! ### Writes of a whole register -/

/-- An alias write's word: AL bits written as 1 are set, cleared or inverted (03 R56). -/
def aliased (range old v al : Nat) : Nat :=
  let m := v &&& al
  if range = 1 then old ||| m else if range = 2 then old &&& (all32 ^^^ m) else old ^^^ m

/-- A plain register's next word. -/
def Reg.next (r : Reg) (old v : Nat) : Nat := if r.range = 0 then merged old v r.row.rw else aliased r.range old v r.row.al

/-- A write of LANE[n].COMMIT (07 R199): a request of crew 0, or ignored while one is busy. -/
def State.laneCommit (s : State) (n v : Nat) : State :=
  if (s.lane n).commitBusy then s.raise (laneStatus n) [14]
  else
    let req : CommitReq :=
      { mask := if v = 0 then 2 ^ n else v, linked := decide (v ≠ 0), fences := [], cookie := 0, register := some n }
    (s.modLane n (fun l => { l with commitBusy := true })).modCrew 0 (fun k => { k with accepting := k.accepting ++ [req] })

/-- MOVE.SW_LINE: a pulse on each line named (10 R284). -/
def State.swLines (s : State) (v : Nat) : State :=
  (List.range 32).foldl (fun (t : State) i => if bitOf v i then t.pulse (32 + i) else t) s

/-- COUNTS.SNAPSHOT (03 R63). -/
def State.countsSnapshot (s : State) : State :=
  { s with counts := { s.counts with held := s.counts.live, snapSeq := s.counts.snapSeq + 1, snapTime := s.uptime } }

/-- Messages that a vector unmasked by a write of the MSI-X table sends at last (11 R302). -/
def State.msixUnmask (s : State) (c : Nat) : State :=
  [0, 1].foldl (fun (t : State) v =>
    if bitOf (t.crew c).msixPending v && !t.msixMasked c v then
      (t.modCrew c (fun k => { k with msixPending := k.msixPending ^^^ 2 ^ v })).send (.msix c v)
    else t) s

/-- A write of a command register of a crew page. -/
def State.crewCommand (s : State) (c o v : Nat) : State :=
  if 0x2000 ≤ o then s.mbxWrite c (o - 0x2000) v
  else
    match o with
    | 0x00 => s.modCrew c (fun k => { k with pushLo := v })
    | 0x04 => s.cqPush c v
    | 0x0C => s.flushCq c
    | 0x30 => s.eqArm c v
    | 0x4C => s.doorbell c
    | 0x68 => if bitOf v 0 then s.xltInvalidate c else s
    | _ => s

/-- A write of a command register. -/
def State.command (s : State) (crew : Nat) (r : Reg) (v : Nat) : State :=
  match r.block with
  | .lane n => s.laneCommit n v
  | .move => if r.off = 0xC4 then (if bitOf v 1 then s.stopClear else s) else s.swLines v
  | .umpire => if r.off = 4 then s.snapshot else s.umpireClear v
  | .cox => s.capture crew v
  | .slk => s.sendEvents (v % 16)
  | .counts => s.countsSnapshot
  | .crew c => s.crewCommand c r.off v
  | _ => s

/-- The channel of a register of MOVE or UDMA. -/
def Reg.channel (r : Reg) : Nat := if r.block = .udma then 64 + r.off / 0x100 else r.off / 0x100

/-- The controls of CH.CTRL in the order abort, start, resume, request. -/
def State.controls (s : State) (k v : Nat) : State :=
  let a := if bitOf v 2 then s.moverAbort k else s
  let b := if bitOf v 0 then a.moverStart k else a
  let c := if bitOf v 1 then b.moverResume k else b
  if bitOf v 3 ∧ k < 64 then c.request k else c

/-- A channel's register written (10 R265, R282): configuration only while the channel is idle or in error; a managed channel's only by the
cox. Configuration fields of CH.CTRL that keep their value are no write of them. -/
def State.channelWrite (s : State) (r : Reg) (v : Nat) : State :=
  let k := r.channel
  let c := s.channel k
  let old := s.reg r.addr r.row.reset
  let next := r.next old v
  let ctrl := decide (r.off % 0x100 = 0x40)
  let t := if ctrl ∧ next = old then s
    else if c.mode = .idle ∨ c.mode = .error then s.setReg r.addr next else s.chRefuse k
  if ctrl ∧ r.range = 0 then t.controls k v else t

/-- A plain register written, with what follows from it: WAKE_SRC keeps a source, a new translation root drops the cached entries, an unmasked
vector is sent. -/
def State.plainWrite (s : State) (r : Reg) (v : Nat) : State :=
  let next := r.next (s.reg (s.regKey r) r.row.reset) v
  match r.block with
  | .power => s.setReg r.addr (if r.off = 0x40 ∧ next % 4 = 0 then next + 1 else next)
  | .move => if 0xC0 ≤ r.off ∧ r.off < 0x100 then s.setReg r.addr next else s.channelWrite r v
  | .udma => s.channelWrite r v
  | .crew c =>
    let t := s.setReg r.addr next
    if r.off = 0x60 ∨ r.off = 0x64 then t.xltInvalidate c
    else if 0x3800 ≤ r.off then t.msixUnmask c else t
  | _ => s.setReg (s.regKey r) next

/-- A register written that shows state with a home of its own. -/
def State.viewWrite (s : State) (r : Reg) (v : Nat) : State :=
  match r.block with
  | .lane _ => (s.putFields r v (s.fieldsAt r.block r.off)).1
  | .cam p => s.camWrite p r v
  | .photo => s.photoWrite r v
  | .umpire =>
    if r.off < 0x40 then
      let k := (r.off - 0x30) / 4
      let old := wordAt s.umpire.clearSel k
      s.modUmpire (fun u => { u with clearSel := u.clearSel - old * 2 ^ (32 * k) + r.next old v * 2 ^ (32 * k) })
    else if r.range ≠ 0 then s
    else if r.off = 0x40 then (s.setNum 0x7000 2 (v % 4)).followNfault
    else s.inject v
  | .crew c =>
    let old := b2n (s.crew c).mbxNotify * 4
    let t := s.modCrew c (fun k => { k with mbxNotify := bitOf (r.next old v) 2 })
    if r.range = 0 ∧ bitOf v 0 then t.mbxGo c else t
  | _ => s

/-- A register of a managed mover channel, written by anyone but the cox (10 R265). -/
def State.managedReg (s : State) (acc : Acc) (r : Reg) : Bool :=
  decide (r.block = .move) && !within 0xC0 0xFF r.off && (s.channel r.channel).managed.isSome && decide (acc.master ≠ .cox)

/-- A register written at its own address or through an alias, its domain on and no attempt of its block open. An alias write acts only on AL
bits written as 1 (03 R56). -/
def State.writeReg (s : State) (acc : Acc) (r : Reg) (v : Nat) : State :=
  let t := if r.range = 0 then s.pvCheck acc r v else s
  if r.range ≠ 0 ∧ v &&& r.row.al = 0 then s
  else if s.managedReg acc r then s.chRefuse r.channel
  else
  match r.row.kind with
  | .plain => t.plainWrite r v
  | .view => t.viewWrite r v
  | .readOnly => t
  | .command => if r.range = 0 then t.command acc.crew r v else t
  | .status => if r.range = 0 then t.writeBack acc r v else t
  | .keyA => t
  | .keyB => t

/-! ### Whole accesses -/

/-- A register that accepts writes: the SMU block takes none (13 R372). -/
def Reg.writable (r : Reg) : Bool := decide (r.block ≠ .smu)

/-- A 32-bit write by a master in a crew's window (03 R55 to R67); one whose bytes cross a register's boundary has a forbidden shape. -/
def State.writeAccess (s : State) (acc : Acc) (v : Nat) : State :=
  let page := pageOf acc
  let t := s.expireKey page
  match (t.regOf acc).filter Reg.writable with
  | none => (t.disturb page 1).unimpl acc true false (decide (acc.addr % 4 ≠ 0))
  | some r =>
    if !t.reachable r.domain then (t.disturb page 1).accessEnds acc r.domain 1
    else
      let u := t.wakeFor r.domain
      if r.row.kind = .keyA ∧ r.range = 0 then u.keyA acc page v
      else if r.row.kind = .keyB ∧ r.range = 0 then u.keyB acc page v
      else
        let w := u.disturb page 1
        if w.awake then w.writeReg acc r v else w

/-- A 32-bit read: the value where it completes, else none. -/
def State.readAccess (s : State) (acc : Acc) : State × Option Nat :=
  let page := pageOf acc
  let t := (s.expireKey page).disturb page 1
  match t.regOf acc with
  | none => (t.unimpl acc false false (decide (acc.addr % 4 ≠ 0)), none)
  | some r =>
    if !t.reachable r.domain then (t.accessEnds acc r.domain 1, none)
    else
      let (u, v) := (t.wakeFor r.domain).readReg acc.master acc.crew r
      (u, some v)

/-- What a master is answered for a read: a host gets the data or a Completer Abort. -/
def State.answerRead (s : State) (acc : Acc) (v : Option Nat) : State :=
  match acc.master with
  | .host _ => s.send (match v with | some x => .readData acc.crew x | none => .completerAbort acc.crew)
  | .spi => s.send (.spi (if v.isSome then 0x80 else 0x84) (leBytes 4 (v.getD 0)))
  | _ => s

/-! ### The width of an access (03 R55) -/

/-- The register that holds the first byte of an access. -/
def firstAcc (acc : Acc) : Acc := { acc with addr := acc.addr / 4 * 4 }

/-- The second half of an 8-byte access. -/
def secondAcc (acc : Acc) : Acc := { acc with addr := acc.addr + 4 }

/-- An 8-byte access covers a _LO register and its own _HI register, aligned to 8 bytes. -/
def State.isPair (s : State) (acc : Acc) (size : Nat) : Bool :=
  decide (size = 8) && decide (acc.addr % 8 = 0) && (s.regOf acc).any Reg.isLow && (s.regOf (secondAcc acc)).isSome

/-- An access lies within one register, or is such a pair. -/
def State.fitsShape (s : State) (acc : Acc) (size : Nat) : Bool :=
  (decide (0 < size) && decide (acc.addr % 4 + size ≤ 4)) || s.isPair acc size

/-- A write of one register, or of a pair, _LO before _HI; an 8-byte write of anything else has a forbidden shape. -/
def State.writeWide (s : State) (acc : Acc) (v : Nat) (hi : Option Nat) : State :=
  match hi with
  | none => s.writeAccess acc v
  | some h =>
    if s.isPair acc 8 then
      let t := s.writeAccess acc v
      if t.accOpen (secondAcc acc) then t.writeAccess (secondAcc acc) h else t
    else ((s.expireKey (pageOf acc)).disturb (pageOf acc) 1).unimpl acc true false true

/-- A read of `size` bytes that `fitsShape` allows: the bytes asked for of one register, or of a pair, _LO before _HI. -/
def State.readWide (s : State) (acc : Acc) (size : Nat) : State × Option Nat :=
  let (t, lo) := s.readAccess (firstAcc acc)
  if size ≤ 4 then (t, lo.map (fun x => x / 2 ^ (8 * (acc.addr % 4)) % 2 ^ (8 * size)))
  else
    match lo with
    | none => (t, none)
    | some x =>
      if t.accOpen (secondAcc acc) then
        let (u, hi) := t.readAccess (secondAcc acc)
        (u, hi.map (fun y => x + y * 2 ^ 32))
      else (t, none)

/-! ### The SPI port (03 R66) -/

def spiAcc (addr : Nat) : Acc := { master := .spi, crew := 0, addr := addr }

/-- The status byte of an access without its dk_abort bit: ready, asleep, unimpl. -/
def State.spiFlags (s : State) (addr : Nat) (write : Bool) : Nat :=
  match (s.regOf (spiAcc addr)).filter (fun r => !write || r.writable) with
  | none => 0x81
  | some r => if s.reachable r.domain then 0x80 else 0x84

/-- The dk_abort bit of an SPI write: the abort counter advanced. -/
def dkFlag (before after : State) : Nat := b2n (decide (before.counter 0x28 < after.counter 0x28)) * 8

/-- While the register fabric is not yet up, no access is carried out (notes/assumptions/41). -/
def State.spiReads (s : State) (addr : Nat) : State :=
  if s.fabricBoots then s.send (.spi 0x90 (leBytes 4 0))
  else
    let (t, v) := s.readAccess (spiAcc addr)
    t.send (.spi (s.spiFlags addr false) (leBytes 4 (v.getD 0)))

def State.spiWrites (s : State) (addr v : Nat) : State :=
  if s.fabricBoots then s.send (.spi 0x90 [])
  else
    let t := s.expireKey (pageOf (spiAcc addr))
    let u := t.writeAccess (spiAcc addr) v
    u.send (.spi (t.spiFlags addr true + dkFlag t u) [])

/-! ### Irregular accesses as commands -/

/-- A write enables fewer than all bytes of what it covers. -/
def partWrite (write : Bool) (size enables : Nat) : Bool := write && (decide (size < 4) || decide (enables < size))

/-- An access of `size` bytes, `enables` of them enabled, that no register takes: by its shape, its enables, or its address (03 R55, R65). SPI
accesses are whole registers. -/
def State.irregular (s : State) (acc : Acc) (write : Bool) (size enables : Nat) : Bool :=
  let ok := s.fitsShape acc size
  s.accOpen acc && decide (0 < size) && decide (enables ≤ size) && (decide (acc.master ≠ .spi) || (decide (size = 4) && decide (enables = 4))) &&
  (!ok || partWrite write size enables || ((s.regOf (firstAcc acc)).filter (fun r => !write || r.writable)).isNone)

/-- The end of an access that is recorded and answers nothing: a host read ends in a Completer Abort, the SPI port answers with its status
byte, `t` the state before the access and `flags` the byte without dk_abort. -/
def State.endsEmpty (u t : State) (acc : Acc) (write : Bool) (flags : Nat) : State :=
  match acc.master with
  | .host _ => if write then u else u.send (.completerAbort acc.crew)
  | .spi => u.send (.spi (flags + b2n write * dkFlag t u) (if write then [] else leBytes 4 0))
  | _ => u

/-- The access is recorded and ends. -/
def State.endIrregular (s : State) (acc : Acc) (write : Bool) (size enables : Nat) : State :=
  let page := pageOf acc
  let t := s.expireKey page
  let shape := !s.fitsShape acc size
  ((t.disturb page 1).unimpl acc write (!shape && partWrite write size enables) shape).endsEmpty t acc write 0x81

/-- An access that exceeds 64 µs (03 R67): of a domain that is off, AUTOWAKE powers it up and else it ends with DOMAIN_ASLEEP; a read ends in a
Completer Abort or as zero, a write is discarded. -/
def State.stalls (s : State) (acc : Acc) (write : Bool) : State :=
  let page := pageOf acc
  let t := s.expireKey page
  let u := t.disturb page 1
  let d := (u.regOf acc).bind Reg.domain
  if u.reachable d then ((u.wakeFor d).accessEnds acc d 2).endsEmpty t acc write 0x82
  else (u.accessEnds acc d 1).endsEmpty t acc write 0x84

end Sys2Proof.Machine
end

