-- ==== Sys2Proof/Machine/DictionaryRows.lean ====
section
/-! DEFINITION. The commands of the dictionary and its transports (02). -/

namespace Sys2Proof.Machine

open Sys2Proof

/-- A crew's own access to a register of its page: crew 0 sees its page within the whole window (03 R53). -/
def pageAcc (crew off : Nat) : Acc :=
  { master := .host (crew / 128), crew := crew, addr := if crew = 0 then 0x0200_0000 + off else off }

/-- READ (02 R40, R43). -/
def execRead (dt : Nat) (via : Via) (req : Req) (s : State) : Host.Outcome State Fault Refusal :=
  happen dt (fun t => t.viaOpen via)
    (fun t => (t.request1 1 via req).answerNow via) s

/-- WRITE (02 R29 to R35). -/
def execWrite (dt : Nat) (via : Via) (req : Req) (s : State) : Host.Outcome State Fault Refusal :=
  happen dt (fun t => t.viaOpen via)
    (fun t => (t.request1 2 via req).answerNow via) s

/-- DESCRIBE (02 R40). -/
def execDescribe (dt : Nat) (via : Via) (req : Req) (s : State) : Host.Outcome State Fault Refusal :=
  happen dt (fun t => t.viaOpen via)
    (fun t => (t.request1 3 via req).answerNow via) s

/-- SEG_READ_INIT (02 R41). -/
def execSegReadInit (dt k client : Nat) (req : Req) (s : State) : Host.Outcome State Fault Refusal :=
  happen dt (fun t => t.viaOpen (.can k client))
    (fun t => t.segRead k client req) s

/-- SEG_WRITE_INIT (02 R41). -/
def execSegWriteInit (dt k client : Nat) (req : Req) (s : State) : Host.Outcome State Fault Refusal :=
  happen dt (fun t => t.viaOpen (.can k client))
    (fun t => t.segWrite k client req) s

/-- SEG_DATA (02 R41). -/
def execSegData (dt k client : Nat) (dest : CanDest) (tag seq : Nat) (data : List Byte) (s : State) : Host.Outcome State Fault Refusal :=
  happen dt (fun t => t.viaOpen (.can k client))
    (fun t => t.segFrame k client dest.node tag dest.dir (fun u => u.segData k client dest.node tag seq data)) s

/-- SEG_ACK (02 R41). -/
def execSegAck (dt k client : Nat) (dest : CanDest) (tag seq : Nat) (s : State) : Host.Outcome State Fault Refusal :=
  happen dt (fun t => t.viaOpen (.can k client))
    (fun t => t.segFrame k client dest.node tag dest.dir (fun u => u.segAck k client dest.node tag seq)) s

/-- CANCEL (02 R40). -/
def execCancel (dt k client : Nat) (dest : CanDest) (tag : Nat) (s : State) : Host.Outcome State Fault Refusal :=
  happen dt (fun t => t.viaOpen (.can k client))
    (fun t => t.segFrame k client dest.node tag dest.dir (fun u => u.segCancel k client dest.node tag)) s

/-- SEG_TIMEOUT: 100 ms without the other side (02 R41). -/
def execSegTimeout (dt k client node : Nat) (s : State) : Host.Outcome State Fault Refusal :=
  happen dt (fun t => t.segDue k client node)
    (fun t => t.segTimeout k client node) s

/-- A datagram on the port of the dictionary (02 R42, R43). -/
def execUdpDatagram (dt k srcIp srcPort : Nat) (payload : List Byte) (s : State) : Host.Outcome State Fault Refusal :=
  happen dt (fun t => t.viaOpen (.eth k srcIp srcPort))
    (fun t => t.udpTake k srcIp srcPort payload) s

/-- CREW.MBX_CTRL written by the crew (02 R45). -/
def execMbxGo (dt crew : Nat) (value : Word) (s : State) : Host.Outcome State Fault Refusal :=
  happen dt (fun t => t.accOpen (pageAcc crew 0x3000))
    (fun t => t.writeAccess (pageAcc crew 0x3000) value.toNat) s

/-- A word of the request buffer written by the crew (02 R45). -/
def execMbxRequestBufferWrite (dt crew offset : Nat) (value : Word) (s : State) : Host.Outcome State Fault Refusal :=
  happen dt (fun t => t.accOpen (pageAcc crew (0x2000 + offset)) && decide (offset < 0x800) && decide (offset % 4 = 0))
    (fun t => t.writeAccess (pageAcc crew (0x2000 + offset)) value.toNat) s

/-- The mailbox request has been carried out (02 R45). -/
def execMbxDone (dt crew : Nat) (s : State) : Host.Outcome State Fault Refusal :=
  happen dt (fun t => t.mbxReady crew)
    (fun t => t.mbxFinish crew) s

/-- A function-level reset (02 R24, 11 R289). -/
def execFunctionLevelReset (dt port fn : Nat) (s : State) : Host.Outcome State Fault Refusal :=
  happen dt (fun t => decide (port < 4) && decide (fn < 128) && t.busOpen (port * 128 + fn))
    (fun t => t.functionReset (port * 128 + fn)) s

/-- A token written to resync.request or COX.RESYNC by a crew (02 R48). -/
def execResyncRequest (dt crew token : Nat) (s : State) : Host.Outcome State Fault Refusal :=
  happen dt (fun t => t.planned && t.coxUp && decide (crew < 512) && t.crewEnabled crew)
    (fun t => t.capture crew (token % 2 ^ 32)) s

end Sys2Proof.Machine
end

