-- ==== Sys2Proof/Machine/RegisterRows.lean ====
section
/-! DEFINITION. The commands of register accesses (03). -/

namespace Sys2Proof.Machine

open Sys2Proof

/-- The register that an access names is one of a kind, at its own address. -/
def State.isKind (s : State) (acc : Acc) (k : RegKind) : Bool :=
  s.accOpen acc && (s.regOf acc).any (fun r => decide (r.row.kind = k) && decide (r.range = 0))

/-- The register that an access names is the one at an offset of a block, at its own address. -/
def State.isReg (s : State) (acc : Acc) (b : Block) (off : Nat) : Bool :=
  s.accOpen acc && (s.regOf acc).any (fun r => decide (r.block = b) && decide (r.off = off) && decide (r.range = 0))

/-- The access uses an alias of an implemented register (03 R56). -/
def State.isRange (s : State) (acc : Acc) (range : Nat) : Bool :=
  s.accOpen acc && (s.regOf acc).any (fun r => decide (r.range = range))

/-- The two stores of a dual-key write, with nothing between them (03 R60). -/
def State.dualKey (s : State) (acc : Acc) (v : Nat) : State :=
  (s.writeAccess acc v).writeAccess { acc with addr := acc.addr + 4 } (v ^^^ all32)

/-- The controls of CH.CTRL: the utility DMA has no request (10 R284, R285). -/
def controlBits (b : Block) : Nat := if b = .udma then 7 else 0xF

/-- A write of CH.CTRL that keeps its fields and sets a control. -/
def State.controlWrite (s : State) (acc : Acc) (bit : Nat) : State :=
  match s.regOf acc with
  | some r => s.writeAccess acc ((s.peek r &&& (0xFFFF_FFFF ^^^ controlBits r.block)) ||| 2 ^ bit)
  | none => s.writeAccess acc (2 ^ bit)

/-- A write to the set alias (03 R56). -/
def execSetAliasWrite (dt : Nat) (acc : Acc) (value : Word) (s : State) : Host.Outcome State Fault Refusal :=
  happen dt (fun t => t.isRange acc 1)
    (fun t => t.writeAccess acc value.toNat) s

/-- A write to the clear alias (03 R56). -/
def execClearAliasWrite (dt : Nat) (acc : Acc) (value : Word) (s : State) : Host.Outcome State Fault Refusal :=
  happen dt (fun t => t.isRange acc 2)
    (fun t => t.writeAccess acc value.toNat) s

/-- A write to the toggle alias (03 R56). -/
def execToggleAliasWrite (dt : Nat) (acc : Acc) (value : Word) (s : State) : Host.Outcome State Fault Refusal :=
  happen dt (fun t => t.isRange acc 3)
    (fun t => t.writeAccess acc value.toNat) s

/-- A write-back of a status register (03 R58, R59). -/
def execStatusWriteBack (dt : Nat) (acc : Acc) (value : Word) (s : State) : Host.Outcome State Fault Refusal :=
  happen dt (fun t => t.isKind acc .status)
    (fun t => t.writeAccess acc value.toNat) s

/-- A write of a KEY_A address (03 R60, R61). -/
def execKeyAWrite (dt : Nat) (acc : Acc) (value : Word) (s : State) : Host.Outcome State Fault Refusal :=
  happen dt (fun t => t.isKind acc .keyA)
    (fun t => t.writeAccess acc value.toNat) s

/-- A write of a KEY_B address (03 R60, R61). -/
def execKeyBWrite (dt : Nat) (acc : Acc) (value : Word) (s : State) : Host.Outcome State Fault Refusal :=
  happen dt (fun t => t.isKind acc .keyB)
    (fun t => t.writeAccess acc value.toNat) s

/-- 256 cox clocks have passed since KEY_A; `block` is the number of the block's 64 KiB page (03 R61). -/
def execDualKeyTimeout (dt block : Nat) (s : State) : Host.Outcome State Fault Refusal :=
  happen dt (fun t => t.keyDue block)
    (fun t => t.disturb block 3) s

/-- A read of `size` bytes of the low half of a live 64-bit register, or of the pair (03 R55, R62). -/
def execLoReadLatch (dt : Nat) (span : WideRead) (s : State) : Host.Outcome State Fault Refusal :=
  happen dt (fun t => t.accOpen span.acc && (t.regOf (firstAcc span.acc)).any isLiveLow && t.fitsShape span.acc span.size)
    (fun t => (t.readWide span.acc span.size).1.answerRead span.acc (t.readWide span.acc span.size).2) s

/-- COUNTS.SNAPSHOT written (03 R63). -/
def execCountsSnapshot (dt : Nat) (acc : Acc) (s : State) : Host.Outcome State Fault Refusal :=
  happen dt (fun t => t.isReg acc .counts 0)
    (fun t => t.writeAccess acc 0) s

/-- A 32-bit write of any register, or with `hi` an 8-byte write (03 R55, R64). -/
def execRegisterWrite (dt : Nat) (acc : Acc) (value : WideWrite) (s : State) : Host.Outcome State Fault Refusal :=
  happen dt (fun t => t.accOpen acc)
    (fun t => t.writeWide acc value.low.toNat (value.high.map BitVec.toNat)) s

/-- An access to an unimplemented address, of partial width or of a forbidden shape (03 R55, R65). -/
def execUnimplAccess (dt : Nat) (acc : Acc) (write : Bool) (size enables : Nat) (s : State) : Host.Outcome State Fault Refusal :=
  happen dt (fun t => t.irregular acc write size enables)
    (fun t => t.endIrregular acc write size enables) s

/-- An access still incomplete after 64 µs (03 R67). -/
def execStallTimeout (dt : Nat) (acc : Acc) (write : Bool) (s : State) : Host.Outcome State Fault Refusal :=
  happen dt (fun t => t.accOpen acc && (t.regOf acc).isSome)
    (fun t => t.stalls acc write) s

/-- SPI command 0x03 (03 R66). -/
def execSpiRead (dt addr : Nat) (s : State) : Host.Outcome State Fault Refusal :=
  happen dt (fun t => t.awake && decide (addr < 2 ^ 32))
    (fun t => t.spiReads addr) s

/-- SPI command 0x02 (03 R66). -/
def execSpiWrite (dt addr : Nat) (value : Word) (s : State) : Host.Outcome State Fault Refusal :=
  happen dt (fun t => t.awake && decide (addr < 2 ^ 32))
    (fun t => t.spiWrites addr value.toNat) s

/-- Any other SPI command byte (03 R66). -/
def execSpiBadCommand (dt command : Nat) (s : State) : Host.Outcome State Fault Refusal :=
  happen dt (fun t => t.awake && decide (command ≠ 2) && decide (command ≠ 3))
    (fun t => t.send (.spi (if t.fabricBoots then 0x90 else 0xA0) [])) s

/-- A domain turned on did not report power-good within 64 µs (03 R70). -/
def execWakeFailed (dt domain : Nat) (s : State) : Host.Outcome State Fault Refusal :=
  happen dt (fun t => t.awake && t.domainOn domain)
    (fun t => t.raise powerStatus [2]) s

end Sys2Proof.Machine
end

