-- ==== Sys2Proof/Machine/CommitRows.lean ====
section
/-! DEFINITION. The commands of layers, commits, fences and catches (04, 01 R12, R16, 07 R192, R199). -/

namespace Sys2Proof.Machine

open Sys2Proof

/-- An SMU request whose code is none of 13 R369's. -/
def State.oddSmu (s : State) (c : Nat) : Bool := s.headIs c 0x0A && !smuCode (bits ((s.head c).word 0) 55 48)

/-- The fences of one pending commit read: the value read decides (04 R90). -/
def State.readFence (s : State) (k : Commit) : State :=
  let (t, fs) := k.fences.foldl (fun (x : State × List Fence) f =>
    let (u, v) := x.1.fenceValue k.crew f.host f.addr
    (u, x.2 ++ [{ f with met := v.any (fun n => decide (f.target ≤ n)) }])) (s, [])
  let ready := fs.all Fence.met
  let u := { t with commits := t.commits.map (fun x => if x.seq = k.seq then { x with fences := fs, eligible := ready } else x) }
  if !ready || k.eligible then u
  else if u.enabling (u.withPending []) k.lanes && u.applies then u.applyCommit { k with fences := fs, eligible := true }
  else (lanesIn k.lanes).foldl State.porchCatch u

/-- The fences of every pending commit on a lane read; one that becomes eligible is applied where it enables lanes (07 R194), or caught
in an extended front porch (R183). -/
def State.readFences (s : State) (n : Nat) : State :=
  (s.commits.filter (fun k => k.lanes.testBit n && decide (k.fences ≠ []))).foldl State.readFence s

/-- A running lane in chase discipline that has not caught in its frame. -/
def State.catchReady (s : State) (n : Nat) : Bool :=
  let l := s.lane n
  s.laneOn n && !s.lead n && !l.gated && l.scans &&
  l.caughtAt.all (fun t => decide (t < l.frameAt))

/-- Lane d under the limp composer in RUN (15 R397). -/
def State.handOverReady (s : State) (n : Nat) : Bool :=
  s.limpDrives n && s.running && s.laneOn n && !(s.lane n).gated && decide ((s.lane n).mode = .limp)

/-- Its first catch in RUN: the heat of its configuration composes every tile, the limp composer ends, its regions are armed. -/
def State.handOver (s : State) (n : Nat) : State :=
  let t := (s.modLane n (fun l => { l with mode := .running })).modLimp (fun l => { l with driving := false })
  ((t.damageAll n).armLane n).catchLane n true

/-- A LAYER_CREATE item is taken (04 R76, R95). -/
def execLayerCreate (dt crew : Nat) (s : State) : Host.Outcome State Fault Refusal :=
  happen dt (fun t => t.headIs crew 0x05)
    (fun t => t.layerCreateItem crew) s

/-- A LAYER_DESTROY item is taken (04 R77, R95). -/
def execLayerDestroy (dt crew : Nat) (s : State) : Host.Outcome State Fault Refusal :=
  happen dt (fun t => t.headIs crew 0x06)
    (fun t => t.layerDestroyItem crew) s

/-- A LAYER_SET item is taken (04 R95). -/
def execLayerSet (dt crew : Nat) (s : State) : Host.Outcome State Fault Refusal :=
  happen dt (fun t => t.headIs crew 0x02)
    (fun t => t.layerSetItem crew) s

/-- A COMMIT item is taken (04 R95). -/
def execCommit (dt crew : Nat) (s : State) : Host.Outcome State Fault Refusal :=
  happen dt (fun t => t.headIs crew 0x01)
    (fun t => t.commitItem crew) s

/-- A FENCE_WAIT item is taken (04 R95). -/
def execFenceWait (dt crew : Nat) (s : State) : Host.Outcome State Fault Refusal :=
  happen dt (fun t => t.headIs crew 0x03)
    (fun t => t.fenceWait crew) s

/-- The fence of a FENCE_WAIT is read again, every 10 µs (04 R95). -/
def execFenceWaitPoll (dt crew : Nat) (s : State) : Host.Outcome State Fault Refusal :=
  happen dt (fun t => t.waitsFence crew)
    (fun t => t.fencePoll crew) s

/-- The timeout of a FENCE_WAIT passes (04 R95). -/
def execFenceWaitExpired (dt crew : Nat) (s : State) : Host.Outcome State Fault Refusal :=
  happen dt (fun t => t.fenceDue crew)
    (fun t => t.fenceTimeout crew) s

/-- A FENCE_SIGNAL item is taken (04 R95). -/
def execFenceSignal (dt crew : Nat) (s : State) : Host.Outcome State Fault Refusal :=
  happen dt (fun t => t.headIs crew 0x04)
    (fun t => t.fenceSignal crew) s

/-- An item that its format does not allow reaches the head (04 R95, 11 R296); an SMU request of no code is the SMU's to answer (13 R369). -/
def execMalformedItem (dt crew : Nat) (s : State) : Host.Outcome State Fault Refusal :=
  happen dt (fun t => t.badHead crew || t.oddSmu crew)
    (fun t => if t.badHead crew then t.dropBadHead crew else t.smuItem crew) s

/-- The cox completes its checks of a crew's oldest commit request (04 R84). -/
def execCommitAcceptance (dt crew : Nat) (s : State) : Host.Outcome State Fault Refusal :=
  happen dt (fun t => t.coxUp && t.planned && decide ((t.crew crew).accepting ≠ []))
    (fun t => t.acceptNext crew) s

/-- LANE[n].COMMIT written (07 R199). -/
def execLaneCommitWrite (dt : Nat) (acc : Acc) (lane : Nat) (value : Word) (s : State) : Host.Outcome State Fault Refusal :=
  happen dt (fun t => decide (lane < 8) && t.isReg acc (.lane lane) 0x10)
    (fun t => t.writeAccess acc value.toNat) s

/-- The fences of the pending commits on a lane are read before its catch (04 R90). -/
def execFenceRead (dt lane : Nat) (s : State) : Host.Outcome State Fault Refusal :=
  happen dt (fun t => t.coxUp && decide (lane < 8))
    (fun t => t.readFences lane) s

/-- The catch of a lane in chase discipline (01 R12, 15 R397). -/
def execLaneCatch (dt lane : Nat) (s : State) : Host.Outcome State Fault Refusal :=
  happenOn dt lane (fun t => (t.catchReady lane || t.handOverReady lane))
    (fun t => if t.handOverReady lane then t.handOver lane else t.catchLane lane true) s

/-- F0 of a RETIME starts (07 R192). -/
def execRetimeF0Start (dt lane : Nat) (s : State) : Host.Outcome State Fault Refusal :=
  happenOn dt lane (fun t => t.f0Ready lane)
    (fun t => t.startF0 lane) s

/-- The lane reader begins active line 0 (01 R16). -/
def execPresented (dt lane : Nat) (s : State) : Host.Outcome State Fault Refusal :=
  happenOn dt lane (fun t => decide ((t.lane lane).mode = .running ∨ (t.lane lane).mode = .retiming) && !(t.lane lane).gated)
    (fun t => t.presentLane lane) s

end Sys2Proof.Machine
end

