-- ==== Sys2Proof/Machine/LaneRows.lean ====
section
/-! DEFINITION. The commands of lane frames, tile rows and tiles (05, 07). -/

namespace Sys2Proof.Machine

open Sys2Proof

/-- A running chase lane with variable blanking, before the end of its minimum front porch (07 R182). -/
def State.porchMinReady (s : State) (n : Nat) : Bool :=
  let l := s.lane n
  l.scans && !l.gated && s.varies n && !l.porch

/-- The front porch ends at its minimum if content is ready, else it is extended (07 R182). -/
def State.porchMin (s : State) (n : Nat) : State :=
  s.modLane n (fun l => { l with porch := true, porchExtended := !s.contentReady n })

/-- The heat of a porch catch has written or abandoned every tile (07 R183). -/
def State.heatReady (s : State) (n : Nat) : Bool :=
  let l := s.lane n
  l.scans && !l.gated && l.porchCaught && !l.frameDue &&
  l.heat.tiles.all (fun t => l.heat.written.contains t || l.heat.abandoned.contains t)

/-- A lane frame begins (07 R180). -/
def execFrameStart (dt lane : Nat) (s : State) : Host.Outcome State Fault Refusal :=
  happenOn dt lane (fun t => t.frameReady lane)
    (fun t => t.beginFrame lane false) s

/-- The dispatcher wakes shell quarters: bit i is PD[i] (05 R102). A shell that serves no lane stays off (06 R146). -/
def execQuarterWake (dt quarters : Nat) (s : State) : Host.Outcome State Fault Refusal :=
  happen dt (fun t => t.coxUp)
    (fun t => t.setPower (t.power.on ||| (quarters % 2 ^ 64 &&& t.workQuarters))) s

/-- A tile row is released to the shells (01 R13, R19). -/
def execRowRelease (dt lane row : Nat) (s : State) : Host.Outcome State Fault Refusal :=
  happenOn dt lane (fun t => t.rowReady lane row && (!t.lead lane || t.rowLanded lane row))
    (fun t => t.releaseRow lane row) s

/-- A blade finishes a tile (01 R17). -/
def execTileWrite (dt lane col row : Nat) (s : State) : Host.Outcome State Fault Refusal :=
  happenOn dt lane (fun t => decide (col < 256) && t.tileReady lane (row * 256 + col))
    (fun t => t.writeTile lane (row * 256 + col)) s

/-- A tile row closes (01 R13, R14). -/
def execRowClose (dt lane row : Nat) (s : State) : Host.Outcome State Fault Refusal :=
  happenOn dt lane (fun t => decide (row < t.tileRows lane) && (t.closingHeat lane row).isSome)
    (fun t => t.closeRow lane row true) s

/-- The port repeats its last pixel in place of `count` pixels (07 R179). -/
def execPortStall (dt lane line x count : Nat) (uncorrectable : Bool) (s : State) : Host.Outcome State Fault Refusal :=
  happenOn dt lane (fun t => decide ((t.lane lane).mode ≠ .off) && !(t.lane lane).gated && decide (0 < count) && decide (line < t.laneH lane) && decide (x < t.laneW lane))
    (fun t => t.stallPort lane line x count uncorrectable) s

/-- Entry to self-refresh (07 R195). -/
def execSelfRefreshEntry (dt lane : Nat) (s : State) : Host.Outcome State Fault Refusal :=
  happenOn dt lane (fun t => t.refreshReady lane)
    (fun t => t.enterRefresh lane) s

/-- The minimum front porch of a lane with variable blanking (07 R182). -/
def execVrrPorchMin (dt lane : Nat) (s : State) : Host.Outcome State Fault Refusal :=
  happenOn dt lane (fun t => t.porchMinReady lane)
    (fun t => t.porchMin lane) s

/-- The heat of a porch catch has composed every tile (07 R183). -/
def execHeatComplete (dt lane : Nat) (s : State) : Host.Outcome State Fault Refusal :=
  happenOn dt lane (fun t => t.heatReady lane)
    (fun t => t.modLane lane (fun l => { l with frameDue := true })) s

/-- The maximum front porch (07 R183 to R185). -/
def execVrrMaxFrontPorch (dt lane : Nat) (s : State) : Host.Outcome State Fault Refusal :=
  happenOn dt lane (fun t => t.porchOpen lane)
    (fun t => t.porchMax lane) s

end Sys2Proof.Machine
end

