-- ==== Sys2Proof/Machine/PortRows.lean ====
section
/-! DEFINITION. The commands of output ports and clocks (08). -/

namespace Sys2Proof.Machine

open Sys2Proof

/-- HPD is high: a port whose link is not up starts its bring-up, which waits for the sink's answer (08 R206). -/
def State.hpdRises (s : State) (n : Nat) : State :=
  s.modLane n (fun l =>
    { l with hpd := true, link := if s.isEdp n ∧ (l.link = .off ∨ l.link = .failed) then .waitingHpd else l.link })

/-- eDP bring-up with what the sink answers over AUX (08 R206). -/
def execEdpBringup (dt lane : Nat) (sink : Option SinkCaps) (s : State) : Host.Outcome State Fault Refusal :=
  happenOn dt lane (fun t => t.edpReady lane)
    (fun t => t.edpBringup lane sink) s

/-- One training attempt (08 R206 step 4). -/
def execLinkTrainingAttempt (dt lane : Nat) (trained : Bool) (s : State) : Host.Outcome State Fault Refusal :=
  happenOn dt lane (fun t => t.awake && decide ((t.lane lane).link = .training))
    (fun t => t.trainOnce lane trained) s

/-- HPD has not risen within 200 ms (08 R206). -/
def execHpdTimeout (dt lane : Nat) (s : State) : Host.Outcome State Fault Refusal :=
  happen dt (fun t => decide (lane < 8) && t.awake && decide ((t.lane lane).link = .waitingHpd) && !(t.lane lane).hpd)
    (fun t => t.failLink lane 1) s

/-- A rising edge of HPD (08 R206). -/
def execHpdRise (dt lane : Nat) (s : State) : Host.Outcome State Fault Refusal :=
  happen dt (fun t => decide (lane < 8) && t.awake && decide (t.laneNum lane 7 1 = 0))
    (fun t => t.hpdRises lane) s

/-- HPD low for more than 2 ms (08 R207). -/
def execHpdUnplug (dt lane : Nat) (s : State) : Host.Outcome State Fault Refusal :=
  happen dt (fun t => decide (lane < 8) && t.awake && decide (t.laneNum lane 7 1 = 0) && (t.lane lane).hpd)
    (fun t => if t.isEdp lane then t.unplug lane else t.modLane lane (fun l => { l with hpd := false })) s

/-- An HPD pulse of 0.25 ms to 2 ms (08 R207). -/
def execHpdIrq (dt lane : Nat) (linkLost : Bool) (s : State) : Host.Outcome State Fault Refusal :=
  happen dt (fun t => decide (lane < 8) && t.awake && t.isEdp lane)
    (fun t => t.hpdPulse lane linkLost) s

/-- DSI bring-up (08 R208). -/
def execDsiBringup (dt lane : Nat) (errorReport : Bool) (s : State) : Host.Outcome State Fault Refusal :=
  happenOn dt lane (fun t => t.dsiReady lane)
    (fun t => t.dsiBringup lane errorReport) s

/-- An edge of TE in DSI command mode (08 R209). -/
def execTeEdge (dt lane : Nat) (rising : Bool) (s : State) : Host.Outcome State Fault Refusal :=
  happenOn dt lane (fun t => t.teReady lane rising)
    (fun t => t.modLane lane (fun l => { l with teSeen := true })) s

/-- The queued DSI packet is sent in the vertical blanking (08 R210). -/
def execDsiCmdSend (dt lane : Nat) (answer : Option (List Byte)) (s : State) : Host.Outcome State Fault Refusal :=
  happen dt (fun t => decide (lane < 8) && t.awake && decide (t.laneNum lane 7 1 ≠ 0) && (t.lane lane).dsiCmd.isSome && decide ((t.lane lane).link = .up ∨ (t.lane lane).link = .lowPower))
    (fun t => t.sendDsi lane answer) s

/-- A BLPWM period starts (08 R213). -/
def execBlpwmPeriodStart (dt lane : Nat) (s : State) : Host.Outcome State Fault Refusal :=
  happen dt (fun t => decide (lane < 8) && t.awake && t.domainOn (64 + lane))
    (fun t => t.pwmPeriod lane) s

/-- Lock of a pixel clock is declared (08 R216, R218). -/
def execPclkLock (dt lane : Nat) (s : State) : Host.Outcome State Fault Refusal :=
  happenOn dt lane (fun t => t.awake && t.lockReady lane)
    (fun t => t.lockLane lane) s

/-- Loss of lock (08 R217). -/
def execPclkUnlock (dt lane : Nat) (s : State) : Host.Outcome State Fault Refusal :=
  happenOn dt lane (fun t => t.awake && t.clockRuns lane)
    (fun t => t.unlockLane lane) s

/-- The end of a monitor window: cycles of the primary reference, cycles of the active one where it is another, and the watch frequency in Hz (08
R220, R222). -/
def execRefMonitorWindow (dt : Nat) (counts : RefCounts) (watchHz : Nat) (s : State) : Host.Outcome State Fault Refusal :=
  happen dt (fun t => t.awake && !t.clocks.xtal32Failed)
    (fun t => t.monitorWindow counts.primary counts.active watchHz) s

/-- A gross failure of the active reference, which the watch oscillator detects (08 R221). -/
def execGrossLoss (dt : Nat) (s : State) : Host.Outcome State Fault Refusal :=
  happen dt (fun t => t.awake && decide (t.clocks.active ≠ 2))
    (fun t => t.grossFailure) s

/-- A request to restore the primary reference (08 R223). -/
def execRefRestore (dt : Nat) (s : State) : Host.Outcome State Fault Refusal :=
  happen dt (fun t => t.awake)
    (fun t => t.restoreRef) s

end Sys2Proof.Machine
end

