-- ==== Sys2Proof/Machine/CameraRows.lean ====
section
/-! DEFINITION. The commands of cameras and forwarding (09). -/

namespace Sys2Proof.Machine

open Sys2Proof

/-- A frame start packet (09 R236). -/
def execCsiFrameStart (dt port : Nat) (packet : ShortPacket) (s : State) : Host.Outcome State Fault Refusal :=
  happen dt (fun t => decide (port < 8) && decide (packet.vc < 16) && t.camReady port)
    (fun t => t.packet port packet.header (fun u => u.csiStart port packet.vc)) s

/-- A long packet; `header` is 0 good, 1 corrected, else bad (09 R232, R233, R236). -/
def execCsiLongPacket (dt port vc dataType header : Nat) (crcError : Bool) (samples : List Nat) (s : State) : Host.Outcome State Fault Refusal :=
  happen dt (fun t => decide (port < 8) && decide (vc < 16) && t.camReady port)
    (fun t => t.packet port header (fun u => u.longPacket port vc dataType crcError samples)) s

/-- A frame end packet (09 R236). -/
def execCsiFrameEnd (dt port : Nat) (packet : ShortPacket) (s : State) : Host.Outcome State Fault Refusal :=
  happen dt (fun t => decide (port < 8) && decide (packet.vc < 16) && t.camReady port)
    (fun t => t.packet port packet.header (fun u => u.csiEnd port packet.vc)) s

/-- A camera line is landed (07 R176, 09 R244, R247). -/
def execLineLanded (dt port slot line : Nat) (s : State) : Host.Outcome State Fault Refusal :=
  happen dt (fun t => decide (port < 8) && decide (slot < 4) && t.landReady (port * 4 + slot) line)
    (fun t => t.landLine (port * 4 + slot) line) s

/-- 4 frame periods without an accepted frame start (09 R239). -/
def execStreamLost (dt port slot : Nat) (s : State) : Host.Outcome State Fault Refusal :=
  happen dt (fun t => decide (port < 8) && decide (slot < 4) && t.lostReady (port * 4 + slot))
    (fun t => t.loseStream (port * 4 + slot)) s

/-- A released band is not fully written 31 line periods after its release (09 R247): its lines are not forwarded and its frame is incomplete with
cause 3 (R248). -/
def execBandAbandoned (dt port slot band : Nat) (s : State) : Host.Outcome State Fault Refusal :=
  happen dt (fun t => decide (port < 8) && decide (slot < 4) && t.awake && (t.lateBand (port * 4 + slot) band).isSome)
    (fun t => t.abandonBand (port * 4 + slot) band) s

/-- A processed line is signalled (09 R247). -/
def execProcessedLineSignal (dt port slot : Nat) (s : State) : Host.Outcome State Fault Refusal :=
  happen dt (fun t => decide (port < 8) && decide (slot < 4) && t.awake && (t.nextProcessed (port * 4 + slot)).isSome)
    (fun t => t.signalProcessed (port * 4 + slot)) s

/-- The last line of a published frame has reached memory (09 R248). -/
def execForwardDone (dt port slot : Nat) (s : State) : Host.Outcome State Fault Refusal :=
  happen dt (fun t => decide (port < 8) && decide (slot < 4) && t.awake && t.fwdComplete (port * 4 + slot))
    (fun t => t.fwdFinish (port * 4 + slot)) s

end Sys2Proof.Machine
end

