-- ==== Sys2Proof/Machine/PlanRows.lean ====
section
/-! DEFINITION. The commands of programs, writeback, placement, shedding and self-test (05, 06). -/

namespace Sys2Proof.Machine

open Sys2Proof

/-- A PROGRAM_SET item is taken (05 R122). -/
def execProgramSet (dt crew : Nat) (s : State) : Host.Outcome State Fault Refusal :=
  happen dt (fun t => t.headIs crew 0x07)
    (fun t => t.programSet crew) s

/-- A program block has been read, checked and copied (05 R122, R126). -/
def execProgramReady (dt crew : Nat) (s : State) : Host.Outcome State Fault Refusal :=
  happen dt (fun t => t.running && decide ((t.crew crew).installing ≠ []))
    (fun t => t.programReady crew) s

/-- A PROGRAM_DELETE item is taken (05 R122). -/
def execProgramDelete (dt crew : Nat) (s : State) : Host.Outcome State Fault Refusal :=
  happen dt (fun t => t.headIs crew 0x08)
    (fun t => t.programDelete crew) s

/-- The last line of a writeback reaches memory (05 R138). -/
def execWritebackDone (dt lane : Nat) (s : State) : Host.Outcome State Fault Refusal :=
  happen dt (fun t => decide (lane < 8) && t.running && (t.lane lane).wbActive)
    (fun t => t.writebackDone lane) s

/-- A writeback staging buffer is about to overflow (05 R139). -/
def execWritebackAbandoned (dt lane : Nat) (s : State) : Host.Outcome State Fault Refusal :=
  happen dt (fun t => decide (lane < 8) && t.running && (t.lane lane).wbActive)
    (fun t => t.abandonWriteback lane) s

/-- The last granule of a moved surface is copied (06 R142). -/
def execResidenceCopyDone (dt layer : Nat) (s : State) : Host.Outcome State Fault Refusal :=
  happen dt (fun t => t.coxUp && (t.layer layer).copying.isSome && !t.copyHeld layer)
    (fun t => t.copyDone layer) s

/-- A PIN item is taken (06 R155, R156). -/
def execPin (dt crew : Nat) (s : State) : Host.Outcome State Fault Refusal :=
  happen dt (fun t => t.headIs crew 0x09)
    (fun t => t.pinItem crew) s

/-- The 1 ms evaluation of shedding (06 R165 to R167). -/
def execShedEvaluation (dt : Nat) (s : State) : Host.Outcome State Fault Refusal :=
  happen dt (fun t => t.running)
    (fun t => t.shedEvaluate) s

/-- A shell self-test starts (06 R168). -/
def execShellSelftestStart (dt : Nat) (s : State) : Host.Outcome State Fault Refusal :=
  happen dt (fun t => t.running && t.shellReady)
    (fun t => t.shellStart) s

/-- A shell self-test ends (06 R168). -/
def execShellSelftestEnd (dt : Nat) (passed : Bool) (s : State) : Host.Outcome State Fault Refusal :=
  happen dt (fun t => t.coxUp && t.placement.shellTest.isSome)
    (fun t => t.shellEnd passed) s

/-- A scrub pass of a channel with the addresses it corrected and those it could not (06 R169, R173, 11 R309). -/
def execScrubPass (dt : Nat) (lp5 : Bool) (channel : Nat) (corrected uncorrectable : List Nat) (s : State) : Host.Outcome State Fault Refusal :=
  happen dt (fun t => t.coxUp && decide (channel < 8))
    (fun t => t.scrub lp5 channel corrected uncorrectable) s

/-- selftest.request written, or a dual-key write of COX.SELFTEST_REQ, which needs the value 1 (06 R170). -/
def execSelftestRequest (dt : Nat) (dualKey : Bool) (value : Word) (s : State) : Host.Outcome State Fault Refusal :=
  happen dt (fun t => t.coxUp)
    (fun t => if dualKey && decide (value.toNat ≠ 1) then t else t.askSelftest) s

end Sys2Proof.Machine
end

