-- ==== Sys2Proof/Machine/BlitRows.lean ====
section
/-! DEFINITION. The commands of blits (10 R254 to R264). -/

namespace Sys2Proof.Machine

open Sys2Proof

/-- A FILL item is taken (10 R255 to R258). -/
def execFill (dt crew : Nat) (s : State) : Host.Outcome State Fault Refusal :=
  happen dt (fun t => t.headIs crew 0x10)
    (fun t => t.takeBlit crew) s

/-- A COPY item is taken (10 R255 to R258). -/
def execCopy (dt crew : Nat) (s : State) : Host.Outcome State Fault Refusal :=
  happen dt (fun t => t.headIs crew 0x11)
    (fun t => t.takeBlit crew) s

/-- A BLEND_COPY item is taken (10 R255 to R258, R262). -/
def execBlendCopy (dt crew : Nat) (s : State) : Host.Outcome State Fault Refusal :=
  happen dt (fun t => t.headIs crew 0x12)
    (fun t => t.takeBlit crew) s

/-- A RECT item is taken (10 R255 to R259). -/
def execRect (dt crew : Nat) (s : State) : Host.Outcome State Fault Refusal :=
  happen dt (fun t => t.headIs crew 0x13)
    (fun t => t.takeBlit crew) s

/-- A LINE item is taken (10 R255 to R259). -/
def execLine (dt crew : Nat) (s : State) : Host.Outcome State Fault Refusal :=
  happen dt (fun t => t.headIs crew 0x14)
    (fun t => t.takeBlit crew) s

/-- A GLYPH item is taken (10 R255 to R259). -/
def execGlyph (dt crew : Nat) (s : State) : Host.Outcome State Fault Refusal :=
  happen dt (fun t => t.headIs crew 0x15)
    (fun t => t.takeBlit crew) s

/-- The last write of a blit reaches memory (10 R255, R264). -/
def execBlitDone (dt crew : Nat) (s : State) : Host.Outcome State Fault Refusal :=
  happen dt (fun t => t.running && t.blitReady crew)
    (fun t => t.blitDone crew) s

end Sys2Proof.Machine
end

