-- ==== Sys2Proof/Machine/MoverRows.lean ====
section
/-! DEFINITION. The commands of the mover and the utility DMA (10 R265 to R285). -/

namespace Sys2Proof.Machine

open Sys2Proof

/-- A channel can start its next burst, a managed one that of its camera's frame (10 R268, R270, 09 R245). -/
def State.startsBurst (s : State) (k : Nat) : Bool :=
  match (s.channel k).managed with
  | some slot => s.fwdReady k slot
  | none => s.burstReady k

/-- A channel's QoS: CH.CTRL.qos of a raw channel, 8 of a managed one (10 R268). -/
def State.chQos (s : State) (k : Nat) : Nat := if (s.channel k).managed.isSome then 8 else bits (s.chReg k 0x40) 7 6

/-- The channel served next: the highest QoS with a burst ready, equal ones in round robin (10 R268). -/
def State.moverNext (s : State) : Option Nat :=
  (((List.range 64).map (fun i => (s.mover.served + 1 + i) % 64)).filter s.startsBurst).foldl (fun best k => match best with
    | none => some k
    | some b => if s.chQos b < s.chQos k then some k else some b) none

/-- CH.CTRL.start written (10 R282). -/
def execMoverStart (dt : Nat) (acc : Acc) (channel : Nat) (s : State) : Host.Outcome State Fault Refusal :=
  happen dt (fun t => decide (channel < 64) && t.isReg acc .move (channel * 0x100 + 0x40))
    (fun t => t.controlWrite acc 0) s

/-- CH.CTRL.resume written (10 R282). -/
def execMoverResume (dt : Nat) (acc : Acc) (channel : Nat) (s : State) : Host.Outcome State Fault Refusal :=
  happen dt (fun t => decide (channel < 64) && t.isReg acc .move (channel * 0x100 + 0x40))
    (fun t => t.controlWrite acc 1) s

/-- CH.CTRL.abort written (10 R282). -/
def execMoverAbort (dt : Nat) (acc : Acc) (channel : Nat) (s : State) : Host.Outcome State Fault Refusal :=
  happen dt (fun t => decide (channel < 64) && t.isReg acc .move (channel * 0x100 + 0x40))
    (fun t => t.controlWrite acc 2) s

/-- CH.CTRL.sw_req written (10 R271). -/
def execMoverSwReq (dt : Nat) (acc : Acc) (channel : Nat) (s : State) : Host.Outcome State Fault Refusal :=
  happen dt (fun t => decide (channel < 64) && t.isReg acc .move (channel * 0x100 + 0x40))
    (fun t => t.controlWrite acc 3) s

/-- MOVE.SW_LINE written (10 R271). -/
def execSwLineWrite (dt : Nat) (acc : Acc) (value : Word) (s : State) : Host.Outcome State Fault Refusal :=
  happen dt (fun t => t.isReg acc .move 0xD4)
    (fun t => t.writeAccess acc value.toNat) s

/-- A rising edge on a request line (10 R271, R272). -/
def execRequestEdge (dt line : Nat) (s : State) : Host.Outcome State Fault Refusal :=
  happen dt (fun t => t.awake && decide (line < 64) && t.lineMapped line)
    (fun t => t.pulse line) s

/-- A channel starts a burst (10 R268, R270; a managed one 09 R245). -/
def execMoverBurstStart (dt channel : Nat) (s : State) : Host.Outcome State Fault Refusal :=
  happen dt (fun t => decide (channel < 64) && t.awake && decide (t.moverNext = some channel))
    (fun t => match (t.channel channel).managed with | some k => t.fwdBurst channel k | none => t.burstStart channel) s

/-- A channel's first burst in flight is committed (10 R268, R276). -/
def execMoverBurstDone (dt channel : Nat) (s : State) : Host.Outcome State Fault Refusal :=
  happen dt (fun t => decide (channel < 64) && t.awake && decide ((t.channel channel).inFlight ≠ []))
    (fun t => match (t.channel channel).managed with | some k => t.fwdBurstDone channel k | none => t.burstDone channel) s

/-- The next descriptor of a chain is fetched (10 R273, R274). -/
def execDescriptorFetch (dt channel : Nat) (s : State) : Host.Outcome State Fault Refusal :=
  happen dt (fun t => decide (channel < 64) && t.awake && t.fetchReady channel)
    (fun t => t.fetchDesc channel) s

/-- The first error response to a mover access, a burst's or a descriptor fetch's; `complete` are the bursts, as channel and place among its bursts in flight, whose reads are complete (10 R275, R276). -/
def execMoverBusError (dt : Nat) (err : BusError) (complete : List (Nat × Nat)) (s : State) : Host.Outcome State Fault Refusal :=
  happen dt (fun t => t.awake && t.mover.stopping.isNone && !t.mover.stoppedAll && t.channels.any (fun p => decide (p.1 < 64) && (decide (p.2.inFlight ≠ []) || t.fetchReady p.1)))
    (fun t => t.busError err complete) s

/-- Every burst that survives a bus error is complete (10 R277). -/
def execAllStopComplete (dt : Nat) (s : State) : Host.Outcome State Fault Refusal :=
  happen dt (fun t => t.awake && t.stopReady)
    (fun t => match t.mover.stopping with | some e => t.stopAll e | none => t) s

/-- MOVE.STOP.clear written, its PV bits kept (10 R278, 03 R64). -/
def execStopClear (dt : Nat) (acc : Acc) (s : State) : Host.Outcome State Fault Refusal :=
  happen dt (fun t => t.isReg acc .move 0xC4)
    (fun t => t.writeAccess acc ((t.reg (Block.move.base + 0xC4) 0 &&& 0xFFFF_FFFC) ||| 2)) s

/-- mover.auto_resume ms after STOPPED_ALL was set (10 R278). -/
def execAutoResume (dt : Nat) (s : State) : Host.Outcome State Fault Refusal :=
  happen dt (fun t => t.coxUp && t.mover.stoppedAll && decide (0 < t.num 0x2240 2) && decide (t.mover.stoppedAt + t.num 0x2240 2 * 1_000_000 ≤ t.now))
    (fun t => t.stopClear) s

/-- UDMA CH.CTRL.start written (10 R279, R282). -/
def execUdmaStart (dt : Nat) (acc : Acc) (channel : Nat) (s : State) : Host.Outcome State Fault Refusal :=
  happen dt (fun t => decide (channel < 8) && t.isReg acc .udma (channel * 0x100 + 0x40))
    (fun t => t.controlWrite acc 0) s

/-- UDMA CH.CTRL.resume written (10 R280, R282). -/
def execUdmaResume (dt : Nat) (acc : Acc) (channel : Nat) (s : State) : Host.Outcome State Fault Refusal :=
  happen dt (fun t => decide (channel < 8) && t.isReg acc .udma (channel * 0x100 + 0x40))
    (fun t => t.controlWrite acc 1) s

/-- UDMA CH.CTRL.abort written (10 R282). -/
def execUdmaAbort (dt : Nat) (acc : Acc) (channel : Nat) (s : State) : Host.Outcome State Fault Refusal :=
  happen dt (fun t => decide (channel < 8) && t.isReg acc .udma (channel * 0x100 + 0x40))
    (fun t => t.controlWrite acc 2) s

/-- The utility DMA engine completes one burst (10 R279). -/
def execUdmaBurstDone (dt : Nat) (s : State) : Host.Outcome State Fault Refusal :=
  happen dt (fun t => t.awake && t.udmaNext.isSome)
    (fun t => match t.udmaNext with | some k => t.udmaBurst k | none => t) s

/-- A bus error in a utility DMA burst; the channel is that of the response (10 R280). -/
def execUdmaBusError (dt : Nat) (err : BusError) (s : State) : Host.Outcome State Fault Refusal :=
  happen dt (fun t => t.awake && t.udmaRuns (64 + err.channel % 8))
    (fun t => t.udmaFail (64 + err.channel % 8)) s

end Sys2Proof.Machine
end

