-- ==== Sys2Proof/Machine/HostRows.lean ====
section
/-! DEFINITION. The commands of host ports, apertures, translation and queues (11). -/

namespace Sys2Proof.Machine

open Sys2Proof

/-- CREW.XLT_ROOT_LO, _HI or XLT_INVAL at its own address. -/
def isXlt (r : Reg) : Bool :=
  decide (r.range = 0) && (match r.block with | .crew _ => decide (r.off = 0x60 ∨ r.off = 0x64 ∨ r.off = 0x68) | _ => false)

/-- PCIEp_PERST_N is asserted (11 R287). -/
def execPerstAssert (dt port : Nat) (s : State) : Host.Outcome State Fault Refusal :=
  happen dt (fun t => decide (port < 4) && t.awake && !(t.port port).perst)
    (fun t => t.assertPerst port) s

/-- PCIEp_PERST_N is deasserted (11 R287). -/
def execPerstDeassert (dt port : Nat) (s : State) : Host.Outcome State Fault Refusal :=
  happen dt (fun t => decide (port < 4) && t.awake && (t.port port).perst)
    (fun t => t.deassertPerst port) s

/-- The port leaves Configuration Request Retry Status (11 R287, 15 R409). -/
def execPortReady (dt port : Nat) (s : State) : Host.Outcome State Fault Refusal :=
  happen dt (fun t => decide (port < 4) && t.configured && (t.port port).crs && !(t.port port).perst)
    (fun t => t.modPort port (fun x => { x with crs := false })) s

/-- A host link goes down (11 R317). -/
def execHostLinkDown (dt port : Nat) (s : State) : Host.Outcome State Fault Refusal :=
  happen dt (fun t => decide (port < 4) && t.awake && (t.port port).linkUp)
    (fun t => t.linkDown port) s

/-- A host link comes up (11 R317). -/
def execHostLinkUp (dt port lanes speed : Nat) (s : State) : Host.Outcome State Fault Refusal :=
  happen dt (fun t => decide (port < 4) && t.portUp port && !(t.port port).linkUp)
    (fun t => t.linkUp port lanes speed) s

/-- The negotiated width or speed changes (06 R142, R148, 11 R317). -/
def execLinkRetrain (dt port lanes speed : Nat) (s : State) : Host.Outcome State Fault Refusal :=
  happen dt (fun t => decide (port < 4) && t.awake && (t.port port).linkUp)
    (fun t => t.retrain port lanes speed) s

/-- VF Enable or NumVFs changes (11 R288, R289). -/
def execVfEnableChange (dt port : Nat) (enable : Bool) (numVfs : Nat) (s : State) : Host.Outcome State Fault Refusal :=
  happen dt (fun t => decide (port < 4) && t.portUp port && (t.port port).linkUp)
    (fun t => t.changeVfs port enable numVfs) s

/-- A host reads the surface aperture; `uncorrectable` is an aperture offset, with true for LP5X, whose unit is bad (11 R290, R309). -/
def execApertureRead (dt crew offset count : Nat) (uncorrectable : Option (Bool × Nat)) (s : State) : Host.Outcome State Fault Refusal :=
  happen dt (fun t => t.apertureOpen crew offset count)
    (fun t => t.apertureRead crew offset count uncorrectable) s

/-- A host writes the surface aperture (04 R73, 11 R290). -/
def execApertureWrite (dt crew offset : Nat) (data : List Byte) (s : State) : Host.Outcome State Fault Refusal :=
  happen dt (fun t => t.apertureOpen crew offset data.length)
    (fun t => t.apertureWrite crew offset data) s

/-- CREW.XLT_ROOT or XLT_INVAL written (11 R292, R316). -/
def execXltInvalidate (dt : Nat) (acc : Acc) (value : Word) (s : State) : Host.Outcome State Fault Refusal :=
  happen dt (fun t => t.accOpen acc && (t.regOf acc).any (fun r => isXlt r))
    (fun t => t.writeAccess acc value.toNat) s

/-- Every access that used an old entry has completed (11 R292). -/
def execXltInvalDone (dt crew : Nat) (s : State) : Host.Outcome State Fault Refusal :=
  happen dt (fun t => t.awake && (t.crew crew).xltBusy)
    (fun t => t.xltDone crew) s

/-- CREW.CQ_PUSH_HI written by the crew (11 R295, R296). -/
def execCqPush (dt crew : Nat) (hi : Word) (s : State) : Host.Outcome State Fault Refusal :=
  happen dt (fun t => t.accOpen (pageAcc crew 4))
    (fun t => t.writeAccess (pageAcc crew 4) hi.toNat) s

/-- CREW.CQ_FLUSH written by the crew (11 R299). -/
def execCqFlush (dt crew : Nat) (s : State) : Host.Outcome State Fault Refusal :=
  happen dt (fun t => t.accOpen (pageAcc crew 0xC))
    (fun t => t.writeAccess (pageAcc crew 0xC) 0) s

/-- CREW.EQ_POP_LO read by the crew (11 R300, R301). -/
def execEqPop (dt crew : Nat) (s : State) : Host.Outcome State Fault Refusal :=
  happen dt (fun t => t.accOpen (pageAcc crew 0x20) && (t.crew crew).popSince.isNone)
    (fun t => t.eqPop crew) s

/-- A pop has waited 40 µs (11 R301). -/
def execEqPopTimeout (dt crew : Nat) (s : State) : Host.Outcome State Fault Refusal :=
  happen dt (fun t => t.awake && t.eqPopDue crew)
    (fun t => t.eqPopEnd crew) s

/-- CREW.EQ_ARM written by the crew (11 R302). -/
def execEqArm (dt crew : Nat) (value : Word) (s : State) : Host.Outcome State Fault Refusal :=
  happen dt (fun t => t.accOpen (pageAcc crew 0x30))
    (fun t => t.writeAccess (pageAcc crew 0x30) value.toNat) s

/-- CREW.DOORBELL written by the crew (11 R303). -/
def execDoorbell (dt crew : Nat) (s : State) : Host.Outcome State Fault Refusal :=
  happen dt (fun t => t.accOpen (pageAcc crew 0x4C))
    (fun t => t.writeAccess (pageAcc crew 0x4C) 0) s

/-- An outbound read has timed out; `reader` is the mover or utility DMA burst that made it (11 R315). -/
def execCplTimeout (dt port : Nat) (reader : Option BusError) (s : State) : Host.Outcome State Fault Refusal :=
  happen dt (fun t => decide (port < 4) && t.portUp port)
    (fun t => t.cplTimeout port reader) s

end Sys2Proof.Machine
end

