-- ==== Sys2Proof/Machine/UmpireRows.lean ====
section
/-! DEFINITION. The commands of photo-finish and the umpire (12). -/

namespace Sys2Proof.Machine

open Sys2Proof

/-- The last pixel of a region has passed the output stage (12 R321). -/
def execRegionEvaluation (dt lane region : Nat) (s : State) : Host.Outcome State Fault Refusal :=
  happen dt (fun t => decide (lane < 8) && decide (region < 32) && t.awake && t.regionReady lane region)
    (fun t => t.evaluate lane region) s

/-- photo.rearm written by a crew (12 R322, R331). -/
def execPhotoRearm (dt crew lane region : Nat) (s : State) : Host.Outcome State Fault Refusal :=
  happen dt (fun t => decide (lane < 8) && decide (region < 32) && t.awake && t.mayRearm crew lane region)
    (fun t => t.rearm lane region) s

/-- An occurrence of an umpire source; 59 to 63 are never raised (12 R332, R333). -/
def execFaultOccurrence (dt source detail : Nat) (s : State) : Host.Outcome State Fault Refusal :=
  happen dt (fun t => t.awake && decide (source < 128) && !within 59 63 source)
    (fun t => t.faultOccurs source detail) s

/-- A frame start of lane d under the limp composer, with the GPIO levels it samples (12 R340). -/
def execLimpFrameStart (dt gpio : Nat) (s : State) : Host.Outcome State Fault Refusal :=
  happen dt (fun t => t.limpReady)
    (fun t => t.limpFrame gpio) s

/-- UMPIRE.SNAPSHOT written (12 R337). -/
def execUmpireSnapshot (dt : Nat) (acc : Acc) (s : State) : Host.Outcome State Fault Refusal :=
  happen dt (fun t => t.isReg acc .umpire 4)
    (fun t => t.writeAccess acc 0) s

/-- UMPIRE.CLEAR written (12 R337). -/
def execUmpireClear (dt : Nat) (acc : Acc) (value : Word) (s : State) : Host.Outcome State Fault Refusal :=
  happen dt (fun t => t.isReg acc .umpire 0xC)
    (fun t => t.writeAccess acc value.toNat) s

/-- A dual-key write of UMPIRE.CLASS[k] (12 R334). -/
def execUmpireClassWrite (dt : Nat) (acc : Acc) (k : Nat) (value : Word) (s : State) : Host.Outcome State Fault Refusal :=
  happen dt (fun t => decide (k < 8) && t.isReg acc .umpire (0x80 + 8 * k))
    (fun t => t.dualKey acc value.toNat) s

/-- A dual-key write of UMPIRE.C3_ACK (12 R344). -/
def execC3Ack (dt : Nat) (acc : Acc) (value : Word) (s : State) : Host.Outcome State Fault Refusal :=
  happen dt (fun t => t.isReg acc .umpire 0x220)
    (fun t => t.dualKey acc value.toNat) s

/-- UMPIRE.INJECT written (12 R345). -/
def execFaultInject (dt : Nat) (acc : Acc) (value : Word) (s : State) : Host.Outcome State Fault Refusal :=
  happen dt (fun t => t.isReg acc .umpire 0x300)
    (fun t => t.writeAccess acc value.toNat) s

end Sys2Proof.Machine
end

