-- ==== Sys2Proof/Machine/SealedRows.lean ====
section
/-! DEFINITION. The commands of the sealed measuring unit (13). -/

namespace Sys2Proof.Machine

open Sys2Proof

/-- The SMU starts with the slots of its SMU_SPI memory (13 R362, R368). -/
def execSmuStart (dt : Nat) (slots : List SmuSlot) (fwSigned : Bool) (s : State) : Host.Outcome State Fault Refusal :=
  happen dt (fun t => !t.smu.running && t.powered)
    (fun t => t.startSmu slots fwSigned) s

/-- A debounced rising edge of an SMU pulse input (13 R351 to R353, 15 R400). -/
def execSmuPulseEdge (dt input : Nat) (s : State) : Host.Outcome State Fault Refusal :=
  happen dt (fun t => decide (input < 4) && decide (t.modes.mode ≠ .unpowered))
    (fun t => t.pulseEdge input) s

/-- 1 s after pulse_overrate was set (13 R351). -/
def execOverrateClear (dt : Nat) (s : State) : Host.Outcome State Fault Refusal :=
  happen dt (fun t => t.smu.overrate && decide (t.smu.overrateAt + 1_000_000_000 ≤ t.now))
    (fun t => t.modSmu (fun u => { u with overrate := false })) s

/-- A tick of the SMU (13 R354, R356, R362, R369, R372). -/
def execSmuTick (dt : Nat) (s : State) : Host.Outcome State Fault Refusal :=
  happen dt (fun t => t.tickDue)
    (fun t => t.smuTick) s

/-- A new indication is rendered into a free buffer and posted (13 R359). -/
def execIndicationPost (dt buffer : Nat) (raster : List Nat) (s : State) : Host.Outcome State Fault Refusal :=
  happen dt (fun t => t.smu.running && decide (buffer < 2) && t.bufferFree buffer && t.rasterOk raster)
    (fun t => t.postIndication buffer raster) s

/-- smu.max_gap ms without a judged outcome of region 31 (13 R360). -/
def execIndicationGapTimeout (dt : Nat) (s : State) : Host.Outcome State Fault Refusal :=
  happen dt (fun t => t.smu.running && t.smu.indValid && decide (t.smu.judgedAt + t.num 0x7801 9 * 1_000_000 ≤ t.now))
    (fun t => t.setValidity false) s

/-- SMU_SEAL changes (13 R350, R365, R366). -/
def execSmuSealChange (dt : Nat) (opened : Bool) (s : State) : Host.Outcome State Fault Refusal :=
  happen dt (fun t => t.smu.running && decide (t.smu.sealOpen ≠ opened))
    (fun t => t.sealChange opened) s

/-- The seal has read open for 60 s without VERIFY_OPEN (13 R366). -/
def execSealOpenTimeout (dt : Nat) (s : State) : Host.Outcome State Fault Refusal :=
  happen dt (fun t => t.smu.running && t.smu.sealOpen && !t.smu.sealAnswered && decide (t.smu.sealSince + 60_000_000_000 ≤ t.now))
    (fun t => t.sealTimeout) s

/-- HIRE (13 R355). -/
def execHire (dt crew : Nat) (s : State) : Host.Outcome State Fault Refusal :=
  happen dt (fun t => t.headSmu crew 0x01)
    (fun t => t.smuItem crew) s

/-- TARIFF (13 R355). -/
def execTariff (dt crew : Nat) (s : State) : Host.Outcome State Fault Refusal :=
  happen dt (fun t => t.headSmu crew 0x02)
    (fun t => t.smuItem crew) s

/-- STOP (13 R355). -/
def execStop (dt crew : Nat) (s : State) : Host.Outcome State Fault Refusal :=
  happen dt (fun t => t.headSmu crew 0x03)
    (fun t => t.smuItem crew) s

/-- END (13 R355). -/
def execEndJourney (dt crew : Nat) (s : State) : Host.Outcome State Fault Refusal :=
  happen dt (fun t => t.headSmu crew 0x04)
    (fun t => t.smuItem crew) s

/-- SUPPLEMENT (13 R356). -/
def execSupplement (dt crew : Nat) (s : State) : Host.Outcome State Fault Refusal :=
  happen dt (fun t => t.headSmu crew 0x05)
    (fun t => t.smuItem crew) s

/-- TRIP_RESET (13 R352). -/
def execTripReset (dt crew : Nat) (s : State) : Host.Outcome State Fault Refusal :=
  happen dt (fun t => t.headSmu crew 0x06)
    (fun t => t.smuItem crew) s

/-- SHOW_ID (13 R368). -/
def execShowId (dt crew : Nat) (s : State) : Host.Outcome State Fault Refusal :=
  happen dt (fun t => t.headSmu crew 0x07)
    (fun t => t.smuItem crew) s

/-- 10 s after SHOW_ID (13 R368). -/
def execShowIdEnd (dt : Nat) (s : State) : Host.Outcome State Fault Refusal :=
  happen dt (fun t => t.smu.showId && decide (t.smu.showIdAt + 10_000_000_000 ≤ t.now))
    (fun t => t.modSmu (fun u => { u with showId := false })) s

/-- TIME_OFFSET (13 R354). -/
def execTimeOffset (dt crew : Nat) (s : State) : Host.Outcome State Fault Refusal :=
  happen dt (fun t => t.headSmu crew 0x08)
    (fun t => t.smuItem crew) s

/-- VERIFY_CHALLENGE (13 R364). -/
def execVerifyChallenge (dt crew : Nat) (s : State) : Host.Outcome State Fault Refusal :=
  happen dt (fun t => t.headSmu crew 0x10)
    (fun t => t.smuItem crew) s

/-- VERIFY_OPEN (13 R364). -/
def execVerifyOpen (dt crew : Nat) (s : State) : Host.Outcome State Fault Refusal :=
  happen dt (fun t => t.headSmu crew 0x11)
    (fun t => t.smuItem crew) s

/-- PARAM_WRITE (13 R364). -/
def execParamWrite (dt crew : Nat) (s : State) : Host.Outcome State Fault Refusal :=
  happen dt (fun t => t.headSmu crew 0x12)
    (fun t => t.smuItem crew) s

/-- VERIFY_CLOSE (13 R365). -/
def execVerifyClose (dt crew : Nat) (s : State) : Host.Outcome State Fault Refusal :=
  happen dt (fun t => t.headSmu crew 0x13)
    (fun t => t.smuItem crew) s

/-- 1 s without 8 passes after VERIFY_CLOSE (13 R365). -/
def execVerifyCloseTimeout (dt : Nat) (s : State) : Host.Outcome State Fault Refusal :=
  happen dt (fun t => t.smu.closing.any (fun k => decide (k.since + 1_000_000_000 ≤ t.now)))
    (fun t => t.closeFailed) s

/-- 30 min in verification mode without an authenticated request (13 R365). -/
def execVerifyInactivityTimeout (dt : Nat) (s : State) : Host.Outcome State Fault Refusal :=
  happen dt (fun t => t.smu.verifying && t.smu.closing.isNone && decide (t.smu.lastAuth + 1_800_000_000_000 ≤ t.now))
    (fun t => t.leaveVerification) s

/-- FW_BLOCK (13 R368). -/
def execFwBlock (dt crew : Nat) (s : State) : Host.Outcome State Fault Refusal :=
  happen dt (fun t => t.headSmu crew 0x14)
    (fun t => t.smuItem crew) s

/-- LOG_CLEAR (13 R367). -/
def execLogClear (dt crew : Nat) (s : State) : Host.Outcome State Fault Refusal :=
  happen dt (fun t => t.headSmu crew 0x15)
    (fun t => t.smuItem crew) s

end Sys2Proof.Machine
end

