-- ==== Sys2Proof/Machine/SecurityRows.lean ====
section
/-! DEFINITION. The commands of security (14). -/

namespace Sys2Proof.Machine

open Sys2Proof

/-- The ROM checks image A, then image B (14 R375, R376, 15 R396). -/
def execBootImageCheck (dt : Nat) (imageA imageB : BootImage) (s : State) : Host.Outcome State Fault Refusal :=
  happen dt (fun t => t.bootReady)
    (fun t => t.bootAll imageA imageB) s

/-- A dual-key write of SEC.REVOKE (14 R378). -/
def execRevoke (dt : Nat) (acc : Acc) (value : Word) (s : State) : Host.Outcome State Fault Refusal :=
  happen dt (fun t => t.isReg acc .sec 0x18)
    (fun t => t.dualKey acc value.toNat) s

/-- JTAG reads SEC.DBG_CHALLENGE (14 R379). -/
def execDbgChallengeRead (dt : Nat) (s : State) : Host.Outcome State Fault Refusal :=
  happen dt (fun t => t.awake)
    (fun t => t.readChallenge) s

/-- A signed scope request over JTAG (14 R379, R380). -/
def execDbgUnlock (dt scope : Nat) (signature : List Byte) (s : State) : Host.Outcome State Fault Refusal :=
  happen dt (fun t => t.awake)
    (fun t => t.unlockDebug scope signature) s

/-- The back-off after failed debug attempts has passed (14 R380). -/
def execDbgBackoffExpiry (dt : Nat) (s : State) : Host.Outcome State Fault Refusal :=
  happen dt (fun t => t.sec.withheld && decide (t.sec.withheldUntil ≤ t.now))
    (fun t => t.modSec (fun c => { c with withheld := false })) s

/-- A security alarm (14 R382, R383). -/
def execSecurityAlarm (dt alarm : Nat) (s : State) : Host.Outcome State Fault Refusal :=
  happen dt (fun t => t.awake && decide (alarm < 7))
    (fun t => t.alarm alarm) s

/-- A dual-key write of SEC.ALARM_POLICY (14 R388). -/
def execAlarmPolicyWrite (dt : Nat) (acc : Acc) (value : Word) (s : State) : Host.Outcome State Fault Refusal :=
  happen dt (fun t => t.isReg acc .sec 0x10)
    (fun t => t.dualKey acc value.toNat) s

/-- A provisioning hold ends without a package (14 R386). -/
def execProvisionWindowExpiry (dt : Nat) (s : State) : Host.Outcome State Fault Refusal :=
  happen dt (fun t => t.holdOver)
    (fun t => t.goLimp) s

end Sys2Proof.Machine
end

