-- ==== Sys2Proof/Machine/ModeRows.lean ====
section
/-! DEFINITION. The commands of modes, reset, supplies and the idle policy (15, 17). -/

namespace Sys2Proof.Machine

open Sys2Proof

/-- A domain that the idle policy may turn off has no work (15 R402, R403): quarters of shells without tiles, lanes that are off, camera ports with no enabled slot,
LP5X that backs nothing, the mover while idle. -/
def State.noWork (s : State) (d : Nat) : Bool :=
  if d < 64 then !s.shellBusy (d / 4)
  else if d < 72 then decide ((s.lane (d - 64)).mode = .off) && !s.limpDrives (d - 64)
  else if d < 80 then [0, 1, 2, 3].all (fun v => !s.slotOn ((d - 72) * 4 + v))
  else if d = 84 ∨ d = 85 then !s.lp5Needed
  else if d = 92 then s.channels.all (fun p => decide (p.2.mode = .idle) && p.2.managed.isNone)
  else false

/-- The domains that go off with one: PD[84] and PD[85] turn off together (15 R403). -/
def offWith (d : Nat) : List Nat := if d = 84 ∨ d = 85 then [84, 85] else [d]

/-- A lane's domain is judged with what the end of its last active line has brought about: a disabling RETIME ends there (07 R194). -/
def State.settled (s : State) (d : Nat) : State := if 64 ≤ d ∧ d < 72 then s.follow (d - 64) else s

def State.idleOffReady (s : State) (d : Nat) : Bool :=
  s.coxUp && s.domainOn d && (offWith d).all (fun k => !s.held k) && (s.settled d).noWork d

/-- The domain is off. -/
def State.idleOff (s : State) (d : Nat) : State := (offWith d).foldl (fun t k => t.setDomain k false) (s.settled d)

/-- A dual-key write of SYS.MODE_REQ (15 R394). -/
def execModeRequest (dt : Nat) (acc : Acc) (value : Word) (s : State) : Host.Outcome State Fault Refusal :=
  happen dt (fun t => t.isReg acc .sys 0x10)
    (fun t => t.dualKey acc value.toNat) s

/-- The steps of LAUNCH before the last are done (15 R396 step 6). -/
def execLaunchComplete (dt : Nat) (s : State) : Host.Outcome State Fault Refusal :=
  happen dt (fun t => t.launchReady)
    (fun t => t.launchDone) s

/-- A full self-test is over; the lists name the shells and channels that failed (15 R398). -/
def execFullSelftestDone (dt : Nat) (shells boathouse lp5 : List Nat) (limpComposer : Bool) (s : State) : Host.Outcome State Fault Refusal :=
  happen dt (fun t => t.testRuns)
    (fun t => t.testDone shells boathouse lp5 limpComposer) s

/-- A dual-key write of POWER.SLEEP_REQ (15 R399). -/
def execSleepRequest (dt : Nat) (acc : Acc) (value : Word) (s : State) : Host.Outcome State Fault Refusal :=
  happen dt (fun t => t.isReg acc .power 0x38)
    (fun t => t.dualKey acc value.toNat) s

/-- The steps of going to sleep are complete (15 R399). -/
def execSleepComplete (dt : Nat) (s : State) : Host.Outcome State Fault Refusal :=
  happen dt (fun t => t.sleepReady)
    (fun t => t.sleepDone) s

/-- A wake source becomes active (15 R400). -/
def execWake (dt : Nat) (source : WakeSource) (s : State) : Host.Outcome State Fault Refusal :=
  happen dt (fun t => decide (t.modes.mode ≠ .unpowered))
    (fun t => t.wakeEvent source) s

/-- RESET_N is low for a time (15 R406). -/
def execResetN (dt lowNs : Nat) (s : State) : Host.Outcome State Fault Refusal :=
  happen dt (fun t => t.powered)
    (fun t => t.resetPin lowNs) s

/-- Supplies in tolerance and RESET_N high for 5 ms; bits [5:0] are the strap balls, bit 6 TEST_EN (15 R393, R401, R406). -/
def execResetRelease (dt straps : Nat) (s : State) : Host.Outcome State Fault Refusal :=
  happen dt (fun t => t.releaseReady)
    (fun t => t.releaseReset straps) s

/-- A supply leaves its range (17 R441). -/
def execSupplyFault (dt supply : Nat) (belowReset : Bool) (s : State) : Host.Outcome State Fault Refusal :=
  happen dt (fun t => t.awake)
    (fun t => t.supplyFails supply belowReset) s

/-- VSTBY is applied (15 R393, R404). -/
def execVstbyApplied (dt : Nat) (s : State) : Host.Outcome State Fault Refusal :=
  happen dt (fun t => !t.modes.vstby || decide (t.modes.mode = .unpowered))
    (fun t => t.applyStandby) s

/-- VDD_CORE is absent for at least 10 ms (12 R344). -/
def execPowerCycle (dt : Nat) (s : State) : Host.Outcome State Fault Refusal :=
  happen dt (fun _ => true)
    (fun t => t.cyclePower) s

/-- 10 ms at 118 °C or more (17 R447). -/
def execThrottleRaise (dt : Nat) (s : State) : Host.Outcome State Fault Refusal :=
  happen dt (fun t => t.awake && decide (t.power.throttle < 7) && t.stepDue 10)
    (fun t => t.setThrottle (t.power.throttle + 1)) s

/-- 100 ms at 113 °C or less (17 R447). -/
def execThrottleLower (dt : Nat) (s : State) : Host.Outcome State Fault Refusal :=
  happen dt (fun t => t.awake && decide (0 < t.power.throttle) && t.stepDue 100)
    (fun t => t.setThrottle (t.power.throttle - 1)) s

/-- The 32.768 kHz crystal fails (08 R220, 15 R404). -/
def execXtal32Fault (dt : Nat) (s : State) : Host.Outcome State Fault Refusal :=
  happen dt (fun t => decide (t.modes.mode ≠ .unpowered) && !t.clocks.xtal32Failed)
    (fun t => t.crystalFails) s

/-- One second after VSTBY was applied (15 R404). -/
def execXtal32RcWindowEnd (dt : Nat) (s : State) : Host.Outcome State Fault Refusal :=
  happen dt (fun t => t.modes.rcWindow && decide (t.modes.vstbyAt + 1_000_000_000 ≤ t.now))
    (fun t => t.rcWindowEnds) s

/-- VSTBY is removed (15 R412). -/
def execVstbyRemoved (dt : Nat) (s : State) : Host.Outcome State Fault Refusal :=
  happen dt (fun t => t.modes.vstby)
    (fun t => t.removeStandby) s

/-- The cox turns off a domain that has no work and no HOLD bit (15 R403). -/
def execDomainIdleOff (dt domain : Nat) (s : State) : Host.Outcome State Fault Refusal :=
  happen dt (fun t => t.idleOffReady domain)
    (fun t => t.idleOff domain) s

/-- The limp record is loaded in LAUNCH (15 R396 step 3, R397). -/
def execLimpRecordLoaded (dt : Nat) (record : LimpRecord) (s : State) : Host.Outcome State Fault Refusal :=
  happen dt (fun t => t.limpLoadReady)
    (fun t => t.limpStart record) s

/-- The plan is built (15 R396 step 4). -/
def execPlanBuilt (dt : Nat) (s : State) : Host.Outcome State Fault Refusal :=
  happen dt (fun t => t.planReady)
    (fun t => t.buildPlan) s

end Sys2Proof.Machine
end

