-- ==== Sys2Proof/Machine/CascadeRows.lean ====
section
/-! DEFINITION. The commands of the cascade and of the network (16, 02 R36). -/

namespace Sys2Proof.Machine

open Sys2Proof

/-- A Silith link's bring-up ends: up, or refused (16 R415). -/
def execSilithLinkUp (dt link peer : Nat) (peerMaster towardsMaster authentic loop : Bool) (delay : Nat) (s : State) : Host.Outcome State Fault Refusal :=
  happen dt (fun t => decide (link < 2) && t.linkUpReady link)
    (fun t => t.linkBringup link peer peerMaster towardsMaster authentic loop delay) s

/-- A refused link is tried again after 1 s (16 R415). -/
def execSilithLinkRetry (dt link : Nat) (s : State) : Host.Outcome State Fault Refusal :=
  happen dt (fun t => decide (link < 2) && t.slkOn && decide ((t.link link).mode = .refused) &&
      decide ((t.link link).refusedAt + 1_000_000_000 ≤ t.now))
    (fun t => t.linkRetry link) s

/-- A link is lost, or fails to train (16 R424). -/
def execSilithLinkLost (dt link : Nat) (s : State) : Host.Outcome State Fault Refusal :=
  happen dt (fun t => decide (link < 2) && t.linkLossReady link)
    (fun t => t.linkLoss link) s

/-- A frame-start marker arrives, compensated for its delay; `masterCatch` tells that it repeats a catch (16 R417). -/
def execFrameStartMarker (dt : Nat) (masterCatch : Bool) (s : State) : Host.Outcome State Fault Refusal :=
  happen dt (fun t => t.masterHere)
    (fun t => t.takeMarker masterCatch) s

/-- A span catch passes 1 µs without its marker (16 R420). -/
def execMarkerLate (dt lane : Nat) (s : State) : Host.Outcome State Fault Refusal :=
  happen dt (fun t => decide (lane < 8) && t.subordinate && t.cascadeLane lane)
    (fun t => t.lateMarker lane) s

/-- The master's leaving marker (16 R424). -/
def execLeavingMarker (dt : Nat) (s : State) : Host.Outcome State Fault Refusal :=
  happen dt (fun t => t.masterHere)
    (fun t => t.loseMaster) s

/-- The master's keep-alive is absent for 10 ms (16 R424). -/
def execMasterKeepaliveTimeout (dt : Nat) (s : State) : Host.Outcome State Fault Refusal :=
  happen dt (fun t => t.masterHere)
    (fun t => t.loseMaster) s

/-- A forwarded request has gone unanswered for 50 ms (16 R421). -/
def execForwardTimeout (dt node : Nat) (s : State) : Host.Outcome State Fault Refusal :=
  happen dt (fun t => t.forwardDue node)
    (fun t => t.forwardFails node) s

/-- A subordinate's summary reaches the master (16 R422). -/
def execNodeSummary (dt node mode : Nat) (nfaultLow : Bool) (links : Nat) (umpire : Nat) (s : State) : Host.Outcome State Fault Refusal :=
  happen dt (fun t => t.summaryReady node)
    (fun t => t.takeSummary node mode nfaultLow links umpire) s

/-- SLK.EVENT_TX written (16 R423). -/
def execEventTx (dt : Nat) (acc : Acc) (mask : Nat) (s : State) : Host.Outcome State Fault Refusal :=
  happen dt (fun t => t.isReg acc .slk 0x40)
    (fun t => t.writeAccess acc (mask % 16)) s

/-- A span's surfaces have been copied again (16 R425). -/
def execSpanResync (dt span : Nat) (s : State) : Host.Outcome State Fault Refusal :=
  happen dt (fun t => t.spanCopyReady span)
    (fun t => t.spanCopied span) s

/-- An ARP request for the device's address (02 R36). -/
def execArpRequest (dt k ip : Nat) (s : State) : Host.Outcome State Fault Refusal :=
  happen dt (fun t => t.configured && decide (k < 2))
    (fun t => t.send (.arpReply k ip)) s

/-- An ICMP echo request for the device's address (02 R36). -/
def execIcmpEchoRequest (dt k ip : Nat) (data : List Byte) (s : State) : Host.Outcome State Fault Refusal :=
  happen dt (fun t => t.configured && decide (k < 2))
    (fun t => t.send (.icmpReply k ip data)) s

/-- The master's keep-alive is back on a link that stayed up (16 R425). -/
def execMasterBack (dt : Nat) (s : State) : Host.Outcome State Fault Refusal :=
  happen dt (fun t => t.masterGone)
    (fun t => t.masterBack) s

end Sys2Proof.Machine
end

