-- ==== Sys2Proof/Machine/Dispatch.lean ====
section
/-! DEFINITION. One arm for each command: a direct call of its meaning. -/

namespace Sys2Proof.Machine

open Sys2Proof

/-- The effect of a command on everything but the queue. -/
def exec (i : Instr) (s : State) : Host.Outcome State Fault Refusal :=
  match i with
  | .read dt via req => Sys2Proof.Machine.execRead dt via req s
  | .write dt via req => Sys2Proof.Machine.execWrite dt via req s
  | .describe dt via req => Sys2Proof.Machine.execDescribe dt via req s
  | .segReadInit dt k client req => Sys2Proof.Machine.execSegReadInit dt k client req s
  | .segWriteInit dt k client req => Sys2Proof.Machine.execSegWriteInit dt k client req s
  | .segData dt k client dest tag seq data => Sys2Proof.Machine.execSegData dt k client dest tag seq data s
  | .segAck dt k client dest tag seq => Sys2Proof.Machine.execSegAck dt k client dest tag seq s
  | .cancel dt k client dest tag => Sys2Proof.Machine.execCancel dt k client dest tag s
  | .segTimeout dt k client node => Sys2Proof.Machine.execSegTimeout dt k client node s
  | .udpDatagram dt k srcIp srcPort payload => Sys2Proof.Machine.execUdpDatagram dt k srcIp srcPort payload s
  | .mbxGo dt crew value => Sys2Proof.Machine.execMbxGo dt crew value s
  | .mbxRequestBufferWrite dt crew offset value => Sys2Proof.Machine.execMbxRequestBufferWrite dt crew offset value s
  | .mbxDone dt crew => Sys2Proof.Machine.execMbxDone dt crew s
  | .functionLevelReset dt port fn => Sys2Proof.Machine.execFunctionLevelReset dt port fn s
  | .resyncRequest dt crew token => Sys2Proof.Machine.execResyncRequest dt crew token s
  | .setAliasWrite dt acc value => Sys2Proof.Machine.execSetAliasWrite dt acc value s
  | .clearAliasWrite dt acc value => Sys2Proof.Machine.execClearAliasWrite dt acc value s
  | .toggleAliasWrite dt acc value => Sys2Proof.Machine.execToggleAliasWrite dt acc value s
  | .statusWriteBack dt acc value => Sys2Proof.Machine.execStatusWriteBack dt acc value s
  | .keyAWrite dt acc value => Sys2Proof.Machine.execKeyAWrite dt acc value s
  | .keyBWrite dt acc value => Sys2Proof.Machine.execKeyBWrite dt acc value s
  | .dualKeyTimeout dt block => Sys2Proof.Machine.execDualKeyTimeout dt block s
  | .loReadLatch dt span => Sys2Proof.Machine.execLoReadLatch dt span s
  | .countsSnapshot dt acc => Sys2Proof.Machine.execCountsSnapshot dt acc s
  | .registerWrite dt acc value => Sys2Proof.Machine.execRegisterWrite dt acc value s
  | .unimplAccess dt acc write size enables => Sys2Proof.Machine.execUnimplAccess dt acc write size enables s
  | .stallTimeout dt acc write => Sys2Proof.Machine.execStallTimeout dt acc write s
  | .spiRead dt addr => Sys2Proof.Machine.execSpiRead dt addr s
  | .spiWrite dt addr value => Sys2Proof.Machine.execSpiWrite dt addr value s
  | .spiBadCommand dt command => Sys2Proof.Machine.execSpiBadCommand dt command s
  | .wakeFailed dt domain => Sys2Proof.Machine.execWakeFailed dt domain s
  | .layerCreate dt crew => Sys2Proof.Machine.execLayerCreate dt crew s
  | .layerDestroy dt crew => Sys2Proof.Machine.execLayerDestroy dt crew s
  | .layerSet dt crew => Sys2Proof.Machine.execLayerSet dt crew s
  | .commit dt crew => Sys2Proof.Machine.execCommit dt crew s
  | .fenceWait dt crew => Sys2Proof.Machine.execFenceWait dt crew s
  | .fenceWaitPoll dt crew => Sys2Proof.Machine.execFenceWaitPoll dt crew s
  | .fenceWaitExpired dt crew => Sys2Proof.Machine.execFenceWaitExpired dt crew s
  | .fenceSignal dt crew => Sys2Proof.Machine.execFenceSignal dt crew s
  | .malformedItem dt crew => Sys2Proof.Machine.execMalformedItem dt crew s
  | .commitAcceptance dt crew => Sys2Proof.Machine.execCommitAcceptance dt crew s
  | .laneCommitWrite dt acc lane value => Sys2Proof.Machine.execLaneCommitWrite dt acc lane value s
  | .fenceRead dt lane => Sys2Proof.Machine.execFenceRead dt lane s
  | .laneCatch dt lane => Sys2Proof.Machine.execLaneCatch dt lane s
  | .retimeF0Start dt lane => Sys2Proof.Machine.execRetimeF0Start dt lane s
  | .presented dt lane => Sys2Proof.Machine.execPresented dt lane s
  | .frameStart dt lane => Sys2Proof.Machine.execFrameStart dt lane s
  | .quarterWake dt quarters => Sys2Proof.Machine.execQuarterWake dt quarters s
  | .rowRelease dt lane row => Sys2Proof.Machine.execRowRelease dt lane row s
  | .tileWrite dt lane col row => Sys2Proof.Machine.execTileWrite dt lane col row s
  | .rowClose dt lane row => Sys2Proof.Machine.execRowClose dt lane row s
  | .portStall dt lane line x count uncorrectable => Sys2Proof.Machine.execPortStall dt lane line x count uncorrectable s
  | .selfRefreshEntry dt lane => Sys2Proof.Machine.execSelfRefreshEntry dt lane s
  | .vrrPorchMin dt lane => Sys2Proof.Machine.execVrrPorchMin dt lane s
  | .heatComplete dt lane => Sys2Proof.Machine.execHeatComplete dt lane s
  | .vrrMaxFrontPorch dt lane => Sys2Proof.Machine.execVrrMaxFrontPorch dt lane s
  | .edpBringup dt lane sink => Sys2Proof.Machine.execEdpBringup dt lane sink s
  | .linkTrainingAttempt dt lane trained => Sys2Proof.Machine.execLinkTrainingAttempt dt lane trained s
  | .hpdTimeout dt lane => Sys2Proof.Machine.execHpdTimeout dt lane s
  | .hpdRise dt lane => Sys2Proof.Machine.execHpdRise dt lane s
  | .hpdUnplug dt lane => Sys2Proof.Machine.execHpdUnplug dt lane s
  | .hpdIrq dt lane linkLost => Sys2Proof.Machine.execHpdIrq dt lane linkLost s
  | .dsiBringup dt lane errorReport => Sys2Proof.Machine.execDsiBringup dt lane errorReport s
  | .teEdge dt lane rising => Sys2Proof.Machine.execTeEdge dt lane rising s
  | .dsiCmdSend dt lane answer => Sys2Proof.Machine.execDsiCmdSend dt lane answer s
  | .blpwmPeriodStart dt lane => Sys2Proof.Machine.execBlpwmPeriodStart dt lane s
  | .pclkLock dt lane => Sys2Proof.Machine.execPclkLock dt lane s
  | .pclkUnlock dt lane => Sys2Proof.Machine.execPclkUnlock dt lane s
  | .refMonitorWindow dt counts watchHz => Sys2Proof.Machine.execRefMonitorWindow dt counts watchHz s
  | .grossLoss dt => Sys2Proof.Machine.execGrossLoss dt s
  | .refRestore dt => Sys2Proof.Machine.execRefRestore dt s
  | .csiFrameStart dt port packet => Sys2Proof.Machine.execCsiFrameStart dt port packet s
  | .csiLongPacket dt port vc dataType header crcError samples => Sys2Proof.Machine.execCsiLongPacket dt port vc dataType header crcError samples s
  | .csiFrameEnd dt port packet => Sys2Proof.Machine.execCsiFrameEnd dt port packet s
  | .lineLanded dt port slot line => Sys2Proof.Machine.execLineLanded dt port slot line s
  | .streamLost dt port slot => Sys2Proof.Machine.execStreamLost dt port slot s
  | .bandAbandoned dt port slot band => Sys2Proof.Machine.execBandAbandoned dt port slot band s
  | .processedLineSignal dt port slot => Sys2Proof.Machine.execProcessedLineSignal dt port slot s
  | .forwardDone dt port slot => Sys2Proof.Machine.execForwardDone dt port slot s
  | .programSet dt crew => Sys2Proof.Machine.execProgramSet dt crew s
  | .programReady dt crew => Sys2Proof.Machine.execProgramReady dt crew s
  | .programDelete dt crew => Sys2Proof.Machine.execProgramDelete dt crew s
  | .writebackDone dt lane => Sys2Proof.Machine.execWritebackDone dt lane s
  | .writebackAbandoned dt lane => Sys2Proof.Machine.execWritebackAbandoned dt lane s
  | .residenceCopyDone dt layer => Sys2Proof.Machine.execResidenceCopyDone dt layer s
  | .pin dt crew => Sys2Proof.Machine.execPin dt crew s
  | .shedEvaluation dt => Sys2Proof.Machine.execShedEvaluation dt s
  | .shellSelftestStart dt => Sys2Proof.Machine.execShellSelftestStart dt s
  | .shellSelftestEnd dt passed => Sys2Proof.Machine.execShellSelftestEnd dt passed s
  | .scrubPass dt lp5 channel corrected uncorrectable => Sys2Proof.Machine.execScrubPass dt lp5 channel corrected uncorrectable s
  | .selftestRequest dt dualKey value => Sys2Proof.Machine.execSelftestRequest dt dualKey value s
  | .fill dt crew => Sys2Proof.Machine.execFill dt crew s
  | .copy dt crew => Sys2Proof.Machine.execCopy dt crew s
  | .blendCopy dt crew => Sys2Proof.Machine.execBlendCopy dt crew s
  | .rect dt crew => Sys2Proof.Machine.execRect dt crew s
  | .line dt crew => Sys2Proof.Machine.execLine dt crew s
  | .glyph dt crew => Sys2Proof.Machine.execGlyph dt crew s
  | .blitDone dt crew => Sys2Proof.Machine.execBlitDone dt crew s
  | .moverStart dt acc channel => Sys2Proof.Machine.execMoverStart dt acc channel s
  | .moverResume dt acc channel => Sys2Proof.Machine.execMoverResume dt acc channel s
  | .moverAbort dt acc channel => Sys2Proof.Machine.execMoverAbort dt acc channel s
  | .moverSwReq dt acc channel => Sys2Proof.Machine.execMoverSwReq dt acc channel s
  | .swLineWrite dt acc value => Sys2Proof.Machine.execSwLineWrite dt acc value s
  | .requestEdge dt line => Sys2Proof.Machine.execRequestEdge dt line s
  | .moverBurstStart dt channel => Sys2Proof.Machine.execMoverBurstStart dt channel s
  | .moverBurstDone dt channel => Sys2Proof.Machine.execMoverBurstDone dt channel s
  | .descriptorFetch dt channel => Sys2Proof.Machine.execDescriptorFetch dt channel s
  | .moverBusError dt err complete => Sys2Proof.Machine.execMoverBusError dt err complete s
  | .allStopComplete dt => Sys2Proof.Machine.execAllStopComplete dt s
  | .stopClear dt acc => Sys2Proof.Machine.execStopClear dt acc s
  | .autoResume dt => Sys2Proof.Machine.execAutoResume dt s
  | .udmaStart dt acc channel => Sys2Proof.Machine.execUdmaStart dt acc channel s
  | .udmaResume dt acc channel => Sys2Proof.Machine.execUdmaResume dt acc channel s
  | .udmaAbort dt acc channel => Sys2Proof.Machine.execUdmaAbort dt acc channel s
  | .udmaBurstDone dt => Sys2Proof.Machine.execUdmaBurstDone dt s
  | .udmaBusError dt err => Sys2Proof.Machine.execUdmaBusError dt err s
  | .perstAssert dt port => Sys2Proof.Machine.execPerstAssert dt port s
  | .perstDeassert dt port => Sys2Proof.Machine.execPerstDeassert dt port s
  | .portReady dt port => Sys2Proof.Machine.execPortReady dt port s
  | .hostLinkDown dt port => Sys2Proof.Machine.execHostLinkDown dt port s
  | .hostLinkUp dt port lanes speed => Sys2Proof.Machine.execHostLinkUp dt port lanes speed s
  | .linkRetrain dt port lanes speed => Sys2Proof.Machine.execLinkRetrain dt port lanes speed s
  | .vfEnableChange dt port enable numVfs => Sys2Proof.Machine.execVfEnableChange dt port enable numVfs s
  | .apertureRead dt crew offset count uncorrectable => Sys2Proof.Machine.execApertureRead dt crew offset count uncorrectable s
  | .apertureWrite dt crew offset data => Sys2Proof.Machine.execApertureWrite dt crew offset data s
  | .xltInvalidate dt acc value => Sys2Proof.Machine.execXltInvalidate dt acc value s
  | .xltInvalDone dt crew => Sys2Proof.Machine.execXltInvalDone dt crew s
  | .cqPush dt crew hi => Sys2Proof.Machine.execCqPush dt crew hi s
  | .cqFlush dt crew => Sys2Proof.Machine.execCqFlush dt crew s
  | .eqPop dt crew => Sys2Proof.Machine.execEqPop dt crew s
  | .eqPopTimeout dt crew => Sys2Proof.Machine.execEqPopTimeout dt crew s
  | .eqArm dt crew value => Sys2Proof.Machine.execEqArm dt crew value s
  | .doorbell dt crew => Sys2Proof.Machine.execDoorbell dt crew s
  | .cplTimeout dt port reader => Sys2Proof.Machine.execCplTimeout dt port reader s
  | .regionEvaluation dt lane region => Sys2Proof.Machine.execRegionEvaluation dt lane region s
  | .photoRearm dt crew lane region => Sys2Proof.Machine.execPhotoRearm dt crew lane region s
  | .faultOccurrence dt source detail => Sys2Proof.Machine.execFaultOccurrence dt source detail s
  | .limpFrameStart dt gpio => Sys2Proof.Machine.execLimpFrameStart dt gpio s
  | .umpireSnapshot dt acc => Sys2Proof.Machine.execUmpireSnapshot dt acc s
  | .umpireClear dt acc value => Sys2Proof.Machine.execUmpireClear dt acc value s
  | .umpireClassWrite dt acc k value => Sys2Proof.Machine.execUmpireClassWrite dt acc k value s
  | .c3Ack dt acc value => Sys2Proof.Machine.execC3Ack dt acc value s
  | .faultInject dt acc value => Sys2Proof.Machine.execFaultInject dt acc value s
  | .smuStart dt slots fwSigned => Sys2Proof.Machine.execSmuStart dt slots fwSigned s
  | .smuPulseEdge dt input => Sys2Proof.Machine.execSmuPulseEdge dt input s
  | .overrateClear dt => Sys2Proof.Machine.execOverrateClear dt s
  | .smuTick dt => Sys2Proof.Machine.execSmuTick dt s
  | .indicationPost dt buffer raster => Sys2Proof.Machine.execIndicationPost dt buffer raster s
  | .indicationGapTimeout dt => Sys2Proof.Machine.execIndicationGapTimeout dt s
  | .smuSealChange dt opened => Sys2Proof.Machine.execSmuSealChange dt opened s
  | .sealOpenTimeout dt => Sys2Proof.Machine.execSealOpenTimeout dt s
  | .hire dt crew => Sys2Proof.Machine.execHire dt crew s
  | .tariff dt crew => Sys2Proof.Machine.execTariff dt crew s
  | .stop dt crew => Sys2Proof.Machine.execStop dt crew s
  | .endJourney dt crew => Sys2Proof.Machine.execEndJourney dt crew s
  | .supplement dt crew => Sys2Proof.Machine.execSupplement dt crew s
  | .tripReset dt crew => Sys2Proof.Machine.execTripReset dt crew s
  | .showId dt crew => Sys2Proof.Machine.execShowId dt crew s
  | .showIdEnd dt => Sys2Proof.Machine.execShowIdEnd dt s
  | .timeOffset dt crew => Sys2Proof.Machine.execTimeOffset dt crew s
  | .verifyChallenge dt crew => Sys2Proof.Machine.execVerifyChallenge dt crew s
  | .verifyOpen dt crew => Sys2Proof.Machine.execVerifyOpen dt crew s
  | .paramWrite dt crew => Sys2Proof.Machine.execParamWrite dt crew s
  | .verifyClose dt crew => Sys2Proof.Machine.execVerifyClose dt crew s
  | .verifyCloseTimeout dt => Sys2Proof.Machine.execVerifyCloseTimeout dt s
  | .verifyInactivityTimeout dt => Sys2Proof.Machine.execVerifyInactivityTimeout dt s
  | .fwBlock dt crew => Sys2Proof.Machine.execFwBlock dt crew s
  | .logClear dt crew => Sys2Proof.Machine.execLogClear dt crew s
  | .bootImageCheck dt imageA imageB => Sys2Proof.Machine.execBootImageCheck dt imageA imageB s
  | .revoke dt acc value => Sys2Proof.Machine.execRevoke dt acc value s
  | .dbgChallengeRead dt => Sys2Proof.Machine.execDbgChallengeRead dt s
  | .dbgUnlock dt scope signature => Sys2Proof.Machine.execDbgUnlock dt scope signature s
  | .dbgBackoffExpiry dt => Sys2Proof.Machine.execDbgBackoffExpiry dt s
  | .securityAlarm dt alarm => Sys2Proof.Machine.execSecurityAlarm dt alarm s
  | .alarmPolicyWrite dt acc value => Sys2Proof.Machine.execAlarmPolicyWrite dt acc value s
  | .provisionWindowExpiry dt => Sys2Proof.Machine.execProvisionWindowExpiry dt s
  | .modeRequest dt acc value => Sys2Proof.Machine.execModeRequest dt acc value s
  | .launchComplete dt => Sys2Proof.Machine.execLaunchComplete dt s
  | .fullSelftestDone dt shells boathouse lp5 limpComposer => Sys2Proof.Machine.execFullSelftestDone dt shells boathouse lp5 limpComposer s
  | .sleepRequest dt acc value => Sys2Proof.Machine.execSleepRequest dt acc value s
  | .sleepComplete dt => Sys2Proof.Machine.execSleepComplete dt s
  | .wake dt source => Sys2Proof.Machine.execWake dt source s
  | .resetN dt lowNs => Sys2Proof.Machine.execResetN dt lowNs s
  | .resetRelease dt straps => Sys2Proof.Machine.execResetRelease dt straps s
  | .supplyFault dt supply belowReset => Sys2Proof.Machine.execSupplyFault dt supply belowReset s
  | .vstbyApplied dt => Sys2Proof.Machine.execVstbyApplied dt s
  | .powerCycle dt => Sys2Proof.Machine.execPowerCycle dt s
  | .throttleRaise dt => Sys2Proof.Machine.execThrottleRaise dt s
  | .throttleLower dt => Sys2Proof.Machine.execThrottleLower dt s
  | .silithLinkUp dt link peer peerMaster towardsMaster authentic loop delay => Sys2Proof.Machine.execSilithLinkUp dt link peer peerMaster towardsMaster authentic loop delay s
  | .silithLinkRetry dt link => Sys2Proof.Machine.execSilithLinkRetry dt link s
  | .silithLinkLost dt link => Sys2Proof.Machine.execSilithLinkLost dt link s
  | .frameStartMarker dt masterCatch => Sys2Proof.Machine.execFrameStartMarker dt masterCatch s
  | .markerLate dt lane => Sys2Proof.Machine.execMarkerLate dt lane s
  | .leavingMarker dt => Sys2Proof.Machine.execLeavingMarker dt s
  | .masterKeepaliveTimeout dt => Sys2Proof.Machine.execMasterKeepaliveTimeout dt s
  | .forwardTimeout dt node => Sys2Proof.Machine.execForwardTimeout dt node s
  | .nodeSummary dt node mode nfaultLow links umpire => Sys2Proof.Machine.execNodeSummary dt node mode nfaultLow links umpire s
  | .eventTx dt acc mask => Sys2Proof.Machine.execEventTx dt acc mask s
  | .spanResync dt span => Sys2Proof.Machine.execSpanResync dt span s
  | .xtal32Fault dt => Sys2Proof.Machine.execXtal32Fault dt s
  | .xtal32RcWindowEnd dt => Sys2Proof.Machine.execXtal32RcWindowEnd dt s
  | .vstbyRemoved dt => Sys2Proof.Machine.execVstbyRemoved dt s
  | .arpRequest dt k ip => Sys2Proof.Machine.execArpRequest dt k ip s
  | .icmpEchoRequest dt k ip data => Sys2Proof.Machine.execIcmpEchoRequest dt k ip data s
  | .domainIdleOff dt domain => Sys2Proof.Machine.execDomainIdleOff dt domain s
  | .limpRecordLoaded dt record => Sys2Proof.Machine.execLimpRecordLoaded dt record s
  | .planBuilt dt => Sys2Proof.Machine.execPlanBuilt dt s
  | .masterBack dt => Sys2Proof.Machine.execMasterBack dt s

end Sys2Proof.Machine
end

