-- ==== Sys2Proof/Safety.lean ====
section
/-! DEFINITION. What counts as a safe run: a step that goes on, and a state whose bookkeeping is sound. -/

namespace Sys2Proof

open Sys2Proof.Machine

/-- A step that answers a next state. -/
def Goes (o : Host.Outcome State Fault Refusal) : Prop := ∃ t, o = .next t

/-- The time in ns that a command lets pass before it happens (notes/assumptions/1). -/
def Instr.dt : Instr → Nat
  | .read dt _ _ => dt
  | .write dt _ _ => dt
  | .describe dt _ _ => dt
  | .segReadInit dt _ _ _ => dt
  | .segWriteInit dt _ _ _ => dt
  | .segData dt _ _ _ _ _ _ => dt
  | .segAck dt _ _ _ _ _ => dt
  | .cancel dt _ _ _ _ => dt
  | .segTimeout dt _ _ _ => dt
  | .udpDatagram dt _ _ _ _ => dt
  | .mbxGo dt _ _ => dt
  | .mbxRequestBufferWrite dt _ _ _ => dt
  | .mbxDone dt _ => dt
  | .functionLevelReset dt _ _ => dt
  | .resyncRequest dt _ _ => dt
  | .setAliasWrite dt _ _ => dt
  | .clearAliasWrite dt _ _ => dt
  | .toggleAliasWrite dt _ _ => dt
  | .statusWriteBack dt _ _ => dt
  | .keyAWrite dt _ _ => dt
  | .keyBWrite dt _ _ => dt
  | .dualKeyTimeout dt _ => dt
  | .loReadLatch dt _ => dt
  | .countsSnapshot dt _ => dt
  | .registerWrite dt _ _ => dt
  | .unimplAccess dt _ _ _ _ => dt
  | .stallTimeout dt _ _ => dt
  | .spiRead dt _ => dt
  | .spiWrite dt _ _ => dt
  | .spiBadCommand dt _ => dt
  | .wakeFailed dt _ => dt
  | .layerCreate dt _ => dt
  | .layerDestroy dt _ => dt
  | .layerSet dt _ => dt
  | .commit dt _ => dt
  | .fenceWait dt _ => dt
  | .fenceWaitPoll dt _ => dt
  | .fenceWaitExpired dt _ => dt
  | .fenceSignal dt _ => dt
  | .malformedItem dt _ => dt
  | .commitAcceptance dt _ => dt
  | .laneCommitWrite dt _ _ _ => dt
  | .fenceRead dt _ => dt
  | .laneCatch dt _ => dt
  | .retimeF0Start dt _ => dt
  | .presented dt _ => dt
  | .frameStart dt _ => dt
  | .quarterWake dt _ => dt
  | .rowRelease dt _ _ => dt
  | .tileWrite dt _ _ _ => dt
  | .rowClose dt _ _ => dt
  | .portStall dt _ _ _ _ _ => dt
  | .selfRefreshEntry dt _ => dt
  | .vrrPorchMin dt _ => dt
  | .heatComplete dt _ => dt
  | .vrrMaxFrontPorch dt _ => dt
  | .edpBringup dt _ _ => dt
  | .linkTrainingAttempt dt _ _ => dt
  | .hpdTimeout dt _ => dt
  | .hpdRise dt _ => dt
  | .hpdUnplug dt _ => dt
  | .hpdIrq dt _ _ => dt
  | .dsiBringup dt _ _ => dt
  | .teEdge dt _ _ => dt
  | .dsiCmdSend dt _ _ => dt
  | .blpwmPeriodStart dt _ => dt
  | .pclkLock dt _ => dt
  | .pclkUnlock dt _ => dt
  | .refMonitorWindow dt _ _ => dt
  | .grossLoss dt => dt
  | .refRestore dt => dt
  | .csiFrameStart dt _ _ => dt
  | .csiLongPacket dt _ _ _ _ _ _ => dt
  | .csiFrameEnd dt _ _ => dt
  | .lineLanded dt _ _ _ => dt
  | .streamLost dt _ _ => dt
  | .bandAbandoned dt _ _ _ => dt
  | .processedLineSignal dt _ _ => dt
  | .forwardDone dt _ _ => dt
  | .programSet dt _ => dt
  | .programReady dt _ => dt
  | .programDelete dt _ => dt
  | .writebackDone dt _ => dt
  | .writebackAbandoned dt _ => dt
  | .residenceCopyDone dt _ => dt
  | .pin dt _ => dt
  | .shedEvaluation dt => dt
  | .shellSelftestStart dt => dt
  | .shellSelftestEnd dt _ => dt
  | .scrubPass dt _ _ _ _ => dt
  | .selftestRequest dt _ _ => dt
  | .fill dt _ => dt
  | .copy dt _ => dt
  | .blendCopy dt _ => dt
  | .rect dt _ => dt
  | .line dt _ => dt
  | .glyph dt _ => dt
  | .blitDone dt _ => dt
  | .moverStart dt _ _ => dt
  | .moverResume dt _ _ => dt
  | .moverAbort dt _ _ => dt
  | .moverSwReq dt _ _ => dt
  | .swLineWrite dt _ _ => dt
  | .requestEdge dt _ => dt
  | .moverBurstStart dt _ => dt
  | .moverBurstDone dt _ => dt
  | .descriptorFetch dt _ => dt
  | .moverBusError dt _ _ => dt
  | .allStopComplete dt => dt
  | .stopClear dt _ => dt
  | .autoResume dt => dt
  | .udmaStart dt _ _ => dt
  | .udmaResume dt _ _ => dt
  | .udmaAbort dt _ _ => dt
  | .udmaBurstDone dt => dt
  | .udmaBusError dt _ => dt
  | .perstAssert dt _ => dt
  | .perstDeassert dt _ => dt
  | .portReady dt _ => dt
  | .hostLinkDown dt _ => dt
  | .hostLinkUp dt _ _ _ => dt
  | .linkRetrain dt _ _ _ => dt
  | .vfEnableChange dt _ _ _ => dt
  | .apertureRead dt _ _ _ _ => dt
  | .apertureWrite dt _ _ _ => dt
  | .xltInvalidate dt _ _ => dt
  | .xltInvalDone dt _ => dt
  | .cqPush dt _ _ => dt
  | .cqFlush dt _ => dt
  | .eqPop dt _ => dt
  | .eqPopTimeout dt _ => dt
  | .eqArm dt _ _ => dt
  | .doorbell dt _ => dt
  | .cplTimeout dt _ _ => dt
  | .regionEvaluation dt _ _ => dt
  | .photoRearm dt _ _ _ => dt
  | .faultOccurrence dt _ _ => dt
  | .limpFrameStart dt _ => dt
  | .umpireSnapshot dt _ => dt
  | .umpireClear dt _ _ => dt
  | .umpireClassWrite dt _ _ _ => dt
  | .c3Ack dt _ _ => dt
  | .faultInject dt _ _ => dt
  | .smuStart dt _ _ => dt
  | .smuPulseEdge dt _ => dt
  | .overrateClear dt => dt
  | .smuTick dt => dt
  | .indicationPost dt _ _ => dt
  | .indicationGapTimeout dt => dt
  | .smuSealChange dt _ => dt
  | .sealOpenTimeout dt => dt
  | .hire dt _ => dt
  | .tariff dt _ => dt
  | .stop dt _ => dt
  | .endJourney dt _ => dt
  | .supplement dt _ => dt
  | .tripReset dt _ => dt
  | .showId dt _ => dt
  | .showIdEnd dt => dt
  | .timeOffset dt _ => dt
  | .verifyChallenge dt _ => dt
  | .verifyOpen dt _ => dt
  | .paramWrite dt _ => dt
  | .verifyClose dt _ => dt
  | .verifyCloseTimeout dt => dt
  | .verifyInactivityTimeout dt => dt
  | .fwBlock dt _ => dt
  | .logClear dt _ => dt
  | .bootImageCheck dt _ _ => dt
  | .revoke dt _ _ => dt
  | .dbgChallengeRead dt => dt
  | .dbgUnlock dt _ _ => dt
  | .dbgBackoffExpiry dt => dt
  | .securityAlarm dt _ => dt
  | .alarmPolicyWrite dt _ _ => dt
  | .provisionWindowExpiry dt => dt
  | .modeRequest dt _ _ => dt
  | .launchComplete dt => dt
  | .fullSelftestDone dt _ _ _ _ => dt
  | .sleepRequest dt _ _ => dt
  | .sleepComplete dt => dt
  | .wake dt _ => dt
  | .resetN dt _ => dt
  | .resetRelease dt _ => dt
  | .supplyFault dt _ _ => dt
  | .vstbyApplied dt => dt
  | .powerCycle dt => dt
  | .throttleRaise dt => dt
  | .throttleLower dt => dt
  | .silithLinkUp dt _ _ _ _ _ _ _ => dt
  | .silithLinkRetry dt _ => dt
  | .silithLinkLost dt _ => dt
  | .frameStartMarker dt _ => dt
  | .markerLate dt _ => dt
  | .leavingMarker dt => dt
  | .masterKeepaliveTimeout dt => dt
  | .forwardTimeout dt _ => dt
  | .nodeSummary dt _ _ _ _ _ => dt
  | .eventTx dt _ _ => dt
  | .spanResync dt _ => dt
  | .xtal32Fault dt => dt
  | .xtal32RcWindowEnd dt => dt
  | .vstbyRemoved dt => dt
  | .arpRequest dt _ _ => dt
  | .icmpEchoRequest dt _ _ _ => dt
  | .domainIdleOff dt _ => dt
  | .limpRecordLoaded dt _ => dt
  | .planBuilt dt => dt
  | .masterBack dt => dt

/-- An access that completes at once on the register `r`, at its own address or at an alias: its window is open, the register's domain is
on, and no dual-key attempt is open in its page (03 R55, R56, R61, R67). -/
def reaches (s : State) (acc : Acc) (r : Reg) : Bool :=
  s.accOpen acc && decide (s.regOf acc = some r) && (tabFind s.keys (pageOf acc)).isNone && r.domain.all s.domainOn && r.writable

/-- An access that completes at once on one register: its window is open, it names the register at `off` of block `b` at its own
address, the register's domain is on, and no dual-key attempt is open in its page (03 R55, R61, R67). -/
def lands (s : State) (acc : Acc) (b : Block) (off : Nat) : Bool :=
  s.isReg acc b off && (tabFind s.keys (pageOf acc)).isNone && (s.regOf acc).any (fun r => r.domain.all s.domainOn)

/-- What a READ or a DESCRIBE needs in order to be carried out as crew `c`: the node is this one, the object is row `r`, the crew sees it and is
enabled or asks for crew.enable, and the object is neither write-only nor one whose read leaves a record (02 R22, R31, R38, R40, R46). -/
def answers (s : State) (c : Nat) (q : Req) (r : ObjRow) : Prop :=
  s.planned = true ∧ (q.dir = false ∧ q.unknown = false) ∧ q.node = s.ownNode ∧ s.lookup q.index q.sub = .ok r ∧
    (s.crewEnabled c = true ∨ isEnable q.index q.sub = true) ∧ s.sees c q.index = true ∧
    r.access ≠ .wo ∧ ¬ (q.index = 0x7F00 ∧ q.sub = 2) ∧ ¬ (q.index = 0x7000 ∧ q.sub = 1)

/-- The frame memories in canonical form: keys rise, and no word is listed that an unlisted pixel reads as (07 R192 step 4). -/
def framesWf (t : Tab Word) : Bool := tabRising t && t.all (fun p => decide (p.2 ≠ 0xC000_0000))

/-- What a region keeps of its past (12 R330): the outcomes of 8 frames at 2 bits each, and no more CRCs than frames. -/
def regionWf (r : Region) : Prop := r.crcs.length ≤ 8 ∧ r.history < 2 ^ 16

/-- Fuses only grow (14 R373): epochs and the minimum version never fall, and no lock, kill or revocation is undone. -/
structure Grown (a b : Fuses) : Prop where
  epoch : a.epoch ≤ b.epoch
  minVersion : a.minVersion ≤ b.minVersion
  fieldLock : a.fieldLock = true → b.fieldLock = true
  keyKill : a.keyKill = true → b.keyKill = true
  revoked : ∀ k, a.revoked.testBit k = true → b.revoked.testBit k = true
  provisionHash : b.provisionHash = a.provisionHash

/-- The bookkeeping of a state is sound: memory is in its canonical form (notes/assumptions/4); commit sequence numbers run from 1
to 0xFFFF_FFFF (04 R84); the throttle step is at most 7 (17 R447); the fault log has 16 entries (12 R348); a completion queue
holds at most 256 items (11 R300); a region keeps the outcomes of 8 frames (12 R330); there are 16 key epochs (14 R373). -/
structure Sound (s : State) : Prop where
  aperture : memWf s.aperture = true
  hostMem : memWf s.hostMem = true
  frames : framesWf s.frames = true
  prefetch : memWf s.prefetch = true
  seqLow : 1 ≤ s.nextSeq
  seqHigh : s.nextSeq ≤ 0xFFFF_FFFF
  throttle : s.power.throttle ≤ 7
  log : s.umpire.log.length ≤ 16
  queues : ∀ c, (s.crew c).eq.length ≤ 256
  regions : ∀ k, regionWf (s.region k)
  epoch : s.sec.fuses.epoch ≤ 16

/-- What a command of lane `n` alone leaves as it is: every object, register, queue, commit, program, stream, channel, host port, memory,
fuse and key, every layer on another lane and every other lane. Its own lane, the quiet frames of its own layers (05 R127), counters, status
bits, frame memories, umpire lines and what is sent may change. -/
structure OnlyLane (n : Nat) (a s : State) : Prop where
  pending : s.pending = a.pending
  objs : s.objs = a.objs
  regs : s.regs = a.regs
  latches : s.latches = a.latches
  keys : s.keys = a.keys
  access : s.access = a.access
  aperture : s.aperture = a.aperture
  hostMem : s.hostMem = a.hostMem
  prefetch : s.prefetch = a.prefetch
  nextSeq : s.nextSeq = a.nextSeq
  commits : s.commits = a.commits
  crews : s.crews = a.crews
  layers : ∀ l, a.lyr l 2 ≠ n → s.layer l = a.layer l
  quiet : ∀ l, s.layer l = { a.layer l with quiet := (s.layer l).quiet, stirred := (s.layer l).stirred }
  programs : s.programs = a.programs
  cams : s.cams = a.cams
  slots : s.slots = a.slots
  channels : s.channels = a.channels
  mover : s.mover = a.mover
  ports : s.ports = a.ports
  regions : s.regions = a.regions
  limp : s.limp = a.limp
  smu : s.smu = a.smu
  sec : s.sec = a.sec
  modes : s.modes = a.modes
  clocks : s.clocks = a.clocks
  placement : s.placement = a.placement
  power : s.power = a.power
  cascade : s.cascade = a.cascade
  nodes : s.nodes = a.nodes
  segments : s.segments = a.segments
  lanes : ∀ m, m ≠ n → s.lane m = a.lane m

end Sys2Proof
end

