-- ==== Sys2Proof/Certificates/Slice0/Obligations.lean ====
section
/-! DEFINITION. The statements about this model. -/

open Sys2Proof Sys2Proof.Machine

/-- A step takes the command at the front of the queue and runs it on the state with the queue's rest. -/
def Obligations.StepRunsFrontCommand : Prop :=
  ∀ (c : Instr) (rest : List Instr) (s : State), step { s with pending := c :: rest } = exec c { s with pending := rest }

/-- With no command waiting the device idles (notes/assumptions/6). -/
def Obligations.EmptyQueueIdles : Prop := ∀ s : State, s.pending = [] → step s = .next s

/-- Every command is carried out in every state, none ends in a fault or a refusal: it takes its time, and leaves the commands behind it in the queue. -/
def Obligations.EveryCommandGoesOn : Prop :=
  ∀ (c : Instr) (s : State), ∃ t, exec c s = .next t ∧ t.pending = s.pending ∧ t.now = s.now + c.dt

/-- The state after reset is sound. -/
def Obligations.ResetIsSound : Prop := Sound State.reset

/-- Every step keeps a sound state sound: memories stay canonical, sequence numbers run from 1 to 0xFFFF_FFFF, the throttle stays within its 7 steps, the
fault log within 16 entries, a completion queue within 256 items, a region's past within 8 frames and the key epochs within 16 (04 R84, 11 R300,
12 R330, R348, 14 R373, 17 R447). -/
def Obligations.StepKeepsSound : Prop := ∀ s t : State, Sound s → step s = .next t → Sound t

/-- Fuses only ever grow: no step lowers the key epoch or the minimum version, or undoes the field lock, the key kill or a revocation, or changes the
provisioning key's hash (14 R373). -/
def Obligations.StepOnlyGrowsFuses : Prop := ∀ s t : State, Sound s → step s = .next t → Grown s.sec.fuses t.sec.fuses

/-- Reset leaves LAUNCH with its cause power_on, nFAULT low, no latched source, every event and counter 0, no throttle, 16 healthy shells, every lane off and
the first commit number 1 (03 R57, R69 to R71, 04 R84, 12 R336, 15 R393, R402). -/
def Obligations.ResetValues : Prop :=
  let s := State.reset
  s.modes.mode = .launch ∧ s.modes.cause = 1 ∧ s.umpire.nfaultLow = true ∧ s.umpire.latched = 0 ∧ (∀ a, s.statusAt a = { count := 0, last := [] }) ∧
  (∀ o, s.counter o = 0) ∧ s.power.throttle = 0 ∧ s.power.on = launchDomains ∧ s.placement.shellOk = 0xFFFF ∧ (∀ n, (s.lane n).mode = .off) ∧ s.nextSeq = 1

/-- Events of one clock cycle: the register's sequence, read in [31:24], advances by one modulo 256; each event's bit is set with the new sequence as its
last occurrence; every other event and every other status register stays; after reset the sequence is 0 and no event is set (03 R57). -/
def Obligations.StatusSequenceAdvances : Prop :=
  (∀ (s : State) (a : Nat) (bs : List Nat), (∀ p ∈ (s.statusAt a).last, p.1 < 24) → (∀ b ∈ bs, b < 24) →
    let t := s.raise a bs
    (t.statusAt a).word / 2 ^ 24 = ((s.statusAt a).word / 2 ^ 24 + 1) % 256 ∧
    (∀ b, b ∈ bs → (t.statusAt a).word.testBit b = true ∧ tabFind (t.statusAt a).last b = some (t.statusAt a).count) ∧
    (∀ b, b ∉ bs → tabFind (t.statusAt a).last b = tabFind (s.statusAt a).last b) ∧
    (∀ a', a' ≠ a → t.statusAt a' = s.statusAt a')) ∧
  (∀ a, (State.reset.statusAt a).word = 0)

/-- The write-back of a status register with S in [31:24], Q its present sequence: where (Q − S) mod 256 is 0 to 127, exactly the events whose
last occurrence is S or earlier are cleared; any other S changes no event, is counted, recorded in SYS.SEQ_REJECT_ADDR and raised as
seq_reject. Nothing else changes (03 R58). Occurrences are counted without wrapping: `st.count` is the number of sequence steps, `st.last` the
step of each set event; the present sequence is `st.count` modulo 256. A write to the status of a managed mover channel by another than the
cox is discarded with cfg_refused (10 R265). -/
def Obligations.StatusWriteBacks : Prop :=
  ∀ (dt : Nat) (acc : Acc) (v : Word) (s : State) (r : Reg), reaches (s.tick dt) acc r = true → r.row.kind = .status → r.range = 0 →
    let u := s.tick dt
    let d (q : Nat) := (q + 256 - v.toNat / 2 ^ 24) % 256
    (u.managedReg acc r = false →
      (d (u.statusAt r.addr).count < 128 → exec (.statusWriteBack dt acc v) s =
        .next (u.modStatus r.addr (fun st => { st with last := st.last.filter (fun e => decide (st.count < e.2 + d st.count)) }))) ∧
      (128 ≤ d (u.statusAt r.addr).count → exec (.statusWriteBack dt acc v) s =
        .next (((u.modAccess (fun a => { a with seqRejectAddr := acc.addr % 2 ^ 32 })).count 0x20 1).raise 0x18 [6]))) ∧
    (u.managedReg acc r = true → exec (.statusWriteBack dt acc v) s = .next (u.raise (channelStatus r.channel) [4]))

/-- A write of a register of SYS, CLK, COUNTS or a host port whose fields are plain changes that register alone: at its own address its RW bits
take the written ones where the write keeps the PV bits; at an alias its AL bits written as 1 are set, cleared or inverted, and a write
that names none of its AL bits changes nothing. An 8-byte write of a pair is its two 32-bit writes, the low one first (03 R55, R56, R64, R69 to
R71, 08 R228, 11 R317). -/
def Obligations.PlainRegisterWrites : Prop :=
  ∀ (dt : Nat) (acc : Acc) (v : Word) (s : State),
    let u := s.tick dt
    (∀ r : Reg, reaches u acc r = true → r.row.kind = .plain → (r.block = .sys ∨ r.block = .clk ∨ r.block = .counts ∨ ∃ p, r.block = .host p) →
      let old := u.reg r.addr r.row.reset
      let al := v.toNat &&& r.row.al
      (r.range = 0 → (old ^^^ v.toNat) &&& r.row.pv = 0 →
        exec (.registerWrite dt acc ⟨v, none⟩) s = .next (u.setReg r.addr ((old &&& (0xFFFF_FFFF ^^^ r.row.rw)) ||| (v.toNat &&& r.row.rw)))) ∧
      (r.range = 1 → al ≠ 0 → exec (.setAliasWrite dt acc v) s = .next (u.setReg r.addr (old ||| al))) ∧
      (r.range = 2 → al ≠ 0 → exec (.clearAliasWrite dt acc v) s = .next (u.setReg r.addr (old &&& (0xFFFF_FFFF ^^^ al)))) ∧
      (r.range = 3 → al ≠ 0 → exec (.toggleAliasWrite dt acc v) s = .next (u.setReg r.addr (old ^^^ al))) ∧
      (al = 0 → (r.range = 1 → exec (.setAliasWrite dt acc v) s = .next u) ∧ (r.range = 2 → exec (.clearAliasWrite dt acc v) s = .next u) ∧
        (r.range = 3 → exec (.toggleAliasWrite dt acc v) s = .next u))) ∧
    (∀ w : Word, u.accOpen acc = true → u.isPair acc 8 = true → (u.writeAccess acc v.toNat).accOpen { acc with addr := acc.addr + 4 } = true →
      exec (.registerWrite dt acc ⟨v, some w⟩) s = .next ((u.writeAccess acc v.toNat).writeAccess { acc with addr := acc.addr + 4 } w.toNat))

/-- A dual-key write whose two stores follow one another takes effect. MODE_REQUEST: launch, run or limp as the mode allows, else request_refused; SLEEP_CTRL
parks the device where nothing forbids it, else sleep_refused; a class changes where its source may change, else class_refused; C3_ACK clears the record
once no C3 source is latched; a revocation blows its slot's fuse where another slot remains; the alarm policies change where none weakens
(03 R60, 12 R334, R344, 14 R378, R388, 15 R394, R399). -/
def Obligations.DualKeyWritesTakeEffect : Prop :=
  ∀ (dt : Nat) (acc : Acc) (v : Word) (s : State),
    let u := s.tick dt
    let n := v.toNat
    (lands u acc .sys 0x10 = true →
      (n ≠ 2 ∧ n ≠ 3 ∧ n ≠ 4 → exec (.modeRequest dt acc v) s = .next (u.raise sysStatus [1])) ∧
      (u.modes.sleeping.isSome = true ∨ (n = 3 ∧ u.sec.keysErased = true) → exec (.modeRequest dt acc v) s = .next (u.raise sysStatus [1])) ∧
      (n = 2 ∨ n = 3 ∨ n = 4 → u.modes.sleeping = none → n ≠ 3 ∨ u.sec.keysErased = false →
        (u.modes.mode = .launch → u.modes.step = .hold → exec (.modeRequest dt acc v) s = .next (u.raise sysStatus [1])) ∧
        (u.modes.mode = .launch → u.modes.step ≠ .hold → exec (.modeRequest dt acc v) s =
          .next (if n = 2 then u else (u.setNum 0x2000 2 n).modModes (fun m => { m with targetSet := true }))) ∧
        (u.modes.mode = .run → exec (.modeRequest dt acc v) s =
          .next (if n = 2 then u.relaunch else if n = 4 then u.goLimp.setNum 0x2000 2 4 else u.setNum 0x2000 2 3)) ∧
        (u.modes.mode = .limp → n = 4 → exec (.modeRequest dt acc v) s = .next u) ∧
        (u.modes.mode = .limp → n ≠ 4 → u.latchedAt 2 = true → exec (.modeRequest dt acc v) s = .next (u.raise sysStatus [1])) ∧
        (u.modes.mode = .limp → n ≠ 4 → u.latchedAt 2 = false → exec (.modeRequest dt acc v) s =
          .next (if n = 3 then (u.relaunch.setNum 0x2000 2 3).modModes (fun m => { m with targetSet := true }) else u.relaunch)) ∧
        (u.modes.mode ≠ .launch → u.modes.mode ≠ .run → u.modes.mode ≠ .limp → exec (.modeRequest dt acc v) s = .next (u.raise sysStatus [1])))) ∧
    (lands u acc .power 0x38 = true →
      let w := u.setReg 0x1_0038 n
      let may := n < 2 ∧ w.awake = true ∧ (u.modes.mode = .run ∨ u.modes.mode = .limp) ∧ u.modes.sleeping = none ∧ u.smu.journey.kind = 0 ∧
        u.smu.verifying = false ∧ w.wakeActive = false
      (may → exec (.sleepRequest dt acc v) s = .next (w.modModes (fun m => { m with sleeping := some (decide (n = 1)), wakeDuringSleep := false }))) ∧
      (¬ may → exec (.sleepRequest dt acc v) s = .next (w.raise powerStatus [3]))) ∧
    (∀ k, k < 8 → lands u acc .umpire (0x80 + 8 * k) = true →
      let changed := (List.range 16).filter (fun j => decide (n / 4 ^ j % 4 ≠ u.classOf (16 * k + j)))
      let keeps (j : Nat) : Bool := classFixed (16 * k + j) || u.umpire.latched.testBit (16 * k + j)
      let t := u.modUmpire (fun x => { x with classes := (changed.filter (fun j => !keeps j)).foldl (fun c j => tabSet c (16 * k + j) (n / 4 ^ j % 4)) x.classes })
      ((∀ j ∈ changed, keeps j = false) → exec (.umpireClassWrite dt acc k v) s = .next t) ∧
      ((∃ j ∈ changed, keeps j = true) → exec (.umpireClassWrite dt acc k v) s = .next (t.raise umpireStatus [3]))) ∧
    (lands u acc .umpire 0x220 = true →
      let w := u.setReg 0x60_0220 n
      (n % 2 = 0 → exec (.c3Ack dt acc v) s = .next w) ∧
      (n % 2 = 1 → w.heldC3 ≠ 0 → exec (.c3Ack dt acc v) s = .next (w.raise umpireStatus [2])) ∧
      (n % 2 = 1 → w.heldC3 = 0 → exec (.c3Ack dt acc v) s = .next (w.modUmpire (fun x => { x with c3 := none })))) ∧
    (lands u acc .sec 0x18 = true →
      let w := u.setReg 0x80_0018 n
      let other := ∃ k, k < 4 ∧ k ≠ n ∧ u.sec.fuses.revoked.testBit k = false ∧ (tabFind u.sec.fuses.bootHashes k).isSome = true
      (u.sec.lock = true ∨ 4 ≤ n → exec (.revoke dt acc v) s = .next w) ∧
      (u.sec.lock = false → n < 4 → u.sec.runningSlot = n ∨ ¬ other → exec (.revoke dt acc v) s = .next (w.raise secStatus [4])) ∧
      (u.sec.lock = false → n < 4 → u.sec.runningSlot ≠ n → other → exec (.revoke dt acc v) s =
        .next (w.modSec (fun c => { c with fuses := { c.fuses with revoked := c.fuses.revoked ||| 2 ^ n } })))) ∧
    (lands u acc .sec 0x10 = true →
      let may := n < 2 ^ 21 ∧ ∀ a, a < 7 → policyOf u.sec.policy a ≤ policyOf n a ∧ alarmClass u.sec.policy a ≤ alarmClass n a
      (may → exec (.alarmPolicyWrite dt acc v) s = .next (u.modSec (fun c => { c with policy := n }))) ∧
      (¬ may → exec (.alarmPolicyWrite dt acc v) s = .next (u.raise secStatus [3])))

/-- An attempt opens, completes, or ends: KEY_A opens one for its master, crew and register; the owner's KEY_B with the complement puts the
value into effect; one without it ends the attempt with reason 2, the time-out after 320 ns with reason 3. An attempt that ends is recorded,
counted, raised as dk_abort and as umpire source 46, on SEC also as a security alarm (03 R60, R61). -/
def Obligations.DualKeyAttempts : Prop :=
  ∀ (dt : Nat) (acc : Acc) (v : Word) (s : State) (r : Reg),
    let u := s.tick dt
    let page := pageOf acc
    let ended (p reason : Nat) (k : KeyAttempt) : State :=
      let t := (((({ u with keys := tabErase u.keys p }).modAccess (fun a =>
        { a with dkAddr := k.addr % 2 ^ 32, dkInfo := k.crew % 512 * 2 ^ 16 + masterCode k.master * 2 ^ 4 + reason })).count 0x28 1).raise
          0x18 [2]).occur 46 k.addr
      if p = 0x80 then t.alarm 6 else t
    (reaches u acc r = true → r.row.kind = .keyA → r.range = 0 →
      exec (.keyAWrite dt acc v) s =
        .next { u with keys := tabSet u.keys page (KeyAttempt.mk acc.master acc.crew acc.addr v u.now) }) ∧
    (∀ a k, u.accOpen acc = true → u.regOf acc = some r → r.row.kind = .keyB → r.range = 0 → r.writable = true → r.domain.all u.domainOn = true →
      tabFind u.keys page = some k → k.master = acc.master → k.crew = acc.crew → k.addr + 4 = acc.addr → u.now ≤ k.openedAt + 320 →
      u.regOf { acc with addr := k.addr } = some a →
      (v.toNat = k.value.toNat ^^^ 0xFFFF_FFFF →
        exec (.keyBWrite dt acc v) s = .next (({ u with keys := tabErase u.keys page }).keyEffect a k.value.toNat)) ∧
      (v.toNat ≠ k.value.toNat ^^^ 0xFFFF_FFFF → exec (.keyBWrite dt acc v) s = .next (ended page 2 k))) ∧
    (∀ block k, u.awake = true → tabFind u.keys block = some k → k.openedAt + 320 ≤ u.now →
      exec (.dualKeyTimeout dt block) s = .next (ended block 3 k))

/-- Reads, snapshots and failed accesses: a read of 1 to 4 bytes of the low half of a live 64-bit register latches its high half for its master and
crew and answers its bytes (03 R55, R62); COUNTS.SNAPSHOT copies every counter and clears none (R63); an access that no register takes, that is of
partial width or of a forbidden shape, or that stalls, is recorded, counted, raised and a fault of source 46, and ends a host read in a Completer
Abort; one whose domain is off and does not wake ends at once with syndrome 1 (R55, R65, R67); a domain that does not come up raises
wake_failed (R70). No dual-key attempt is open in the page; where one is, R61 ends it first. -/
def Obligations.ReadsSnapshotsAndFailedAccesses : Prop :=
  ∀ (dt : Nat) (acc : Acc) (s : State) (r : Reg),
    let u := s.tick dt
    let source := acc.crew % 512 * 2 ^ 16 + masterCode acc.master * 2 ^ 4
    let answered (t : State) (write : Bool) (flags : Nat) : State := match acc.master with
      | .host _ => if write then t else t.send (.completerAbort acc.crew)
      | .spi => t.send (.spi (if write = true ∧ u.counter 0x28 < t.counter 0x28 then flags + 8 else flags) (if write then [] else leBytes 4 0))
      | _ => t
    let ended (syndrome : Nat) : State :=
      (((u.modAccess (fun a => { a with accessAddr := acc.addr % 2 ^ 32, accessInfo := r.domain.getD 0xFF * 2 ^ 8 + masterCode acc.master * 2 ^ 4 + syndrome })).count
        0x38 1).raise 0x18 [4]).occur 46 acc.addr
    (∀ size, 0 < size → acc.addr % 4 + size ≤ 4 → u.accOpen acc = true → reaches u { acc with addr := acc.addr / 4 * 4 } r = true → isLiveLow r = true →
      r.block ≠ .power → ∀ high, u.regAt (r.addr + 4) = some high →
      exec (.loReadLatch dt ⟨acc, size⟩) s =
        .next (({ u with latches := tabSet u.latches (latchKey acc.master acc.crew (r.addr + 4)) (u.peek high) }).answerRead acc
          (some (u.peek r / 2 ^ (8 * (acc.addr % 4)) % 2 ^ (8 * size))))) ∧
    (lands u acc .counts 0 = true → exec (.countsSnapshot dt acc) s =
      .next { u with counts := { u.counts with held := u.counts.live, snapSeq := u.counts.snapSeq + 1, snapTime := u.uptime } }) ∧
    (∀ write size enables, u.irregular acc write size enables = true → tabFind u.keys (pageOf acc) = none →
      let shape := !u.fitsShape acc size
      let info := source + b2n shape * 4 + b2n (!shape && partWrite write size enables) * 2 + b2n write
      exec (.unimplAccess dt acc write size enables) s = .next (answered
        ((((u.modAccess (fun a => { a with unimplAddr := acc.addr % 2 ^ 32, unimplInfo := info })).count 0x30 1).raise 0x18 [3]).occur 46 acc.addr) write 0x81)) ∧
    (∀ write, reaches u acc r = true → exec (.stallTimeout dt acc write) s = .next (answered (ended 2) write 0x82)) ∧
    (∀ write, u.accOpen acc = true → u.regOf acc = some r → tabFind u.keys (pageOf acc) = none → u.reachable r.domain = false →
      exec (.stallTimeout dt acc write) s = .next (answered (ended 1) write 0x84)) ∧
    (∀ domain, u.awake = true → u.domainOn domain = true → exec (.wakeFailed dt domain) s = .next (u.raise 0x1_0030 [2]))

/-- The SPI port reads and writes as crew 0's window does and reports by its status byte: 0x80 where the access completes; any other command
byte carries out no access and answers 0xA0; while the fabric boots every command answers 0x90 and accesses nothing (03 R66). -/
def Obligations.SpiPort : Prop :=
  ∀ (dt addr : Nat) (v : Word) (s : State) (r : Reg),
    let u := s.tick dt
    let acc : Acc := { master := .spi, crew := 0, addr := addr }
    let known := r.row.kind = .plain ∧ r.range = 0 ∧ (r.block = .sys ∨ r.block = .clk ∨ ∃ p, r.block = .host p)
    let old := u.reg r.addr r.row.reset
    (reaches u acc r = true →
      exec (.spiRead dt addr) s = .next ((u.readReg .spi 0 r).1.send (.spi 0x80 (leBytes 4 (u.readReg .spi 0 r).2))) ∧
      (known → isLiveLow r = false → tabFind u.latches (latchKey .spi 0 r.addr) = none →
        exec (.spiRead dt addr) s = .next (u.send (.spi 0x80 (leBytes 4 old)))) ∧
      (known → (old ^^^ v.toNat) &&& r.row.pv = 0 → exec (.spiWrite dt addr v) s =
        .next ((u.setReg r.addr ((old &&& (0xFFFF_FFFF ^^^ r.row.rw)) ||| (v.toNat &&& r.row.rw))).send (.spi 0x80 [])))) ∧
    (∀ command, u.awake = true → command ≠ 2 → command ≠ 3 →
      exec (.spiBadCommand dt command) s = .next (u.send (.spi (if u.fabricBoots then 0x90 else 0xA0) []))) ∧
    (u.awake = true → u.fabricBoots = true → addr < 2 ^ 32 →
      exec (.spiRead dt addr) s = .next (u.send (.spi 0x90 (leBytes 4 0))) ∧ exec (.spiWrite dt addr v) s = .next (u.send (.spi 0x90 [])))

/-- READ and DESCRIBE answer on each transport with the value in effect and with the object's description. They complete where the crew sees the object
and is enabled or asks for crew.enable, and change nothing but the crew's open confirmation, which any request ends, and in the mailbox its
response, done and, where it was asked for, MBX_DONE (02 R22, R30, R34, R36, R40, R43, R45). -/
def Obligations.RequestsThatRead : Prop :=
  ∀ (dt : Nat) (q : Req) (s : State) (r : ObjRow),
    let u := s.tick dt
    let bytes (w : State) (c : Nat) : List Byte := encodeVal r.ty ((w.endAttempt c).value c q.index q.sub)
    let part (w : State) (c : Nat) : List Byte :=
      if q.length = 0 then (bytes w c).drop q.offset else ((bytes w c).drop q.offset).take q.length
    let inRange (w : State) (c : Nat) : Prop := (q.offset = 0 ∨ r.ty = .str ∨ r.ty = .blob) ∧ q.offset ≤ (bytes w c).length
    let frame (k client code : Nat) (data : List Byte) : Out := .canFrame k
      (u.num (0x1100 + k) 1 % 2 ^ 29 / 2 ^ 11 * 2 ^ 11 + 0x400 + client % 256 * 4 + q.node % 4)
      (padFrame (leBytes 1 (code * 16 + q.tag % 16) ++ leBytes 1 q.sub ++ leBytes 2 q.index ++ data))
    let ended (c : Nat) : State := u.modCrew c (fun k => { k with confirm := none })
    (∀ k client, k < 2 → answers u (u.canCrew k) q r →
      ((bytes u (u.canCrew k)).length ≤ 60 →
        exec (.read dt (.can k client) q) s = .next ((ended (u.canCrew k)).send (frame k client 9 (bytes u (u.canCrew k))))) ∧
      exec (.describe dt (.can k client) q) s = .next ((ended (u.canCrew k)).send (frame k client 0xB (describe q.index r)))) ∧
    (∀ k ip port, k < 2 → answers u (u.ethCrew k) q r →
      (noRoom [(1, q)] = false → inRange u (u.ethCrew k) →
        exec (.read dt (.eth k ip port) q) s =
          .next ((ended (u.ethCrew k)).send (.udp k ip port (buildDatagram q.node q.tag [(q, .read (part u (u.ethCrew k)))])))) ∧
      exec (.describe dt (.eth k ip port) q) s =
        .next ((ended (u.ethCrew k)).send (.udp k ip port (buildDatagram q.node q.tag [(q, .described (describe q.index r))])))) ∧
    (∀ c, u.viaOpen (.mailbox c) = true → answers u c q r →
      let w := u.modCrew c (fun k => { k with mbxBusy := true, mbxReply := [] })
      let done (p : List Byte) (t : State) : Prop :=
        (t.crew c).mbxResp = p ∧ (t.crew c).mbxBusy = false ∧
        ((u.crew c).mbxNotify = false → t = ((((w.endAttempt c).modCrew c (fun k => { k with mbxReply := p, mbxRestore := false })).modCrew c (fun k =>
          { k with mbxResp := k.mbxReply, mbxReply := [], mbxBusy := false, mbxRestore := false })).send (.mailbox c p)).raise (mbxStatus c) [0])
      (noRoom [(1, q)] = false → inRange w c →
        ∃ t, exec (.read dt (.mailbox c) q) s = .next t ∧ done (buildDatagram q.node q.tag [(q, .read (part w c))]) t) ∧
      (∃ t, exec (.describe dt (.mailbox c) q) s = .next t ∧ done (buildDatagram q.node q.tag [(q, .described (describe q.index r))]) t))

/-- A WRITE for this node by an enabled crew, or of crew.enable, is carried out once, as `carryOut` judges it after the crew's confirmation has ended, and is
answered once with its result or its abort; a WRITE by UDP from a source that comm.eth_write_allow does not list is refused with NO_RIGHT; a
WRITE of an object of a lane that the next commit applies is staged and answered 0 (02 R22, R30, R33, R34, R35, R40, R43, R44, R45, 04 R82).
What a restore of the whole device leaves for after its response is not in this statement. -/
def Obligations.RequestsThatWrite : Prop :=
  ∀ (dt : Nat) (q : Req) (s t : State) (o : Rsp),
    let u := s.tick dt
    let mine (w : State) (c : Nat) : Prop :=
      w.planned = true ∧ q.dir = false ∧ q.unknown = false ∧ q.node = w.ownNode ∧ (w.crewEnabled c = true ∨ isEnable q.index q.sub = true)
    let runs (w : State) (c : Nat) (p : Req) : Prop := mine w c ∧
      (w.modCrew c (fun k => { k with confirm := none })).carryOut c 2 (w.crew c).confirm p = (t, o) ∧ t.configured = true ∧ ¬ (q.index = 0x1010 ∧ o = .wrote 0)
    let frame (w : State) (k client code : Nat) (data : List Byte) : Out := .canFrame k
      (w.num (0x1100 + k) 1 % 2 ^ 29 / 2 ^ 11 * 2 ^ 11 + 0x400 + client % 256 * 4 + q.node % 4)
      (padFrame (leBytes 1 (code * 16 + q.tag % 16) ++ leBytes 1 q.sub ++ leBytes 2 q.index ++ data))
    (∀ k client d, k < 2 → canValue q.index q.sub q.data = .ok d →
      (runs u (u.canCrew k) { q with data := d, offset := 0, length := 0 } → (∀ b, o ≠ .read b) →
        exec (.write dt (.can k client) q) s = .next (t.send (frame t k client o.code o.data))) ∧
      (∀ r v, mine u (u.canCrew k) → u.holding = false → within 0x3000 0x37FF q.index = true → u.lookup q.index q.sub = .ok r → objRow q.index q.sub = some r →
        r.sub = q.sub → r.access = .rwc → u.holds (u.canCrew k) q.index r = true → isConfirmation q.index q.sub = false → isConfirmed q.index q.sub = false →
        decodeVal r q.index d = .ok v →
        exec (.write dt (.can k client) q) s = .next (((u.modCrew (u.canCrew k) (fun x => { x with confirm := none })).stage (u.canCrew k) (objKey q.index q.sub) v).send
          (frame u k client 0xA (leBytes 4 0))))) ∧
    (∀ k ip port, k < 2 →
      (u.mayWriteFrom k ip = true → runs u (u.ethCrew k) q →
        exec (.write dt (.eth k ip port) q) s = .next (t.send (.udp k ip port (buildDatagram q.node q.tag [(q, o)])))) ∧
      (u.mayWriteFrom k ip = false → u.planned = true → q.dir = false → q.unknown = false →
        exec (.write dt (.eth k ip port) q) s = .next ((u.modCrew (u.ethCrew k) (fun x => { x with confirm := none })).send
          (.udp k ip port (buildDatagram q.node q.tag [(q, .abort .noRight)]))))) ∧
    (∀ c, u.viaOpen (.mailbox c) = true → runs (u.modCrew c (fun k => { k with mbxBusy := true, mbxReply := [] })) c q → (t.crew c).mbxBusy = true →
      ∃ x, exec (.write dt (.mailbox c) q) s = .next x ∧ (x.crew c).mbxResp = buildDatagram q.node q.tag [(q, o)] ∧ (x.crew c).mbxBusy = false ∧
        ((t.crew c).mbxNotify = false →
          x = (((t.modCrew c (fun k => { k with mbxReply := buildDatagram q.node q.tag [(q, o)], mbxRestore := false })).modCrew c (fun k =>
            { k with mbxResp := k.mbxReply, mbxReply := [], mbxBusy := false, mbxRestore := false })).send (.mailbox c (buildDatagram q.node q.tag [(q, o)]))).raise
              (mbxStatus c) [0]))

/-- A READ, WRITE or DESCRIBE on CAN FD or Ethernet that is not carried out is answered with its abort and changes nothing but the crew's open confirmation:
BOOTING before the plan is built, PROTOCOL with dir 1 or an unknown command, NO_RIGHT of a disabled crew, NODE_ABSENT and NODE_UNREACHABLE of a node that this one
cannot reach, the lookup's abort of an object that is not there, NO_RIGHT to read or describe what the crew does not see, WRITE_ONLY to read a WO object;
a master sends a request for a reachable node on and answers when that node has (02 R22, R30, R31, R36, R38, R40, R43, 16 R427). -/
def Obligations.RequestsRefused : Prop :=
  ∀ (dt k client cmd : Nat) (ip port : Nat) (q : Req) (s : State), k < 2 →
    ∀ c : Via → Instr, (cmd = 1 ∧ c = fun v => .read dt v q) ∨ (cmd = 2 ∧ c = fun v => .write dt v q) ∨ (cmd = 3 ∧ c = fun v => .describe dt v q) →
    let u := s.tick dt
    let refusal (crew : Nat) : Option Abort :=
      if q.dir = true ∨ q.unknown = true then some .protocol
      else if u.crewEnabled crew = false ∧ isEnable q.index q.sub = false then some .noRight
      else if q.node ≠ u.ownNode then
        (if u.cascMaster = false ∨ 4 ≤ q.node then some .nodeAbsent else if (u.node q.node).reachable = false then some .nodeUnreachable else none)
      else match u.lookup q.index q.sub with
        | .error a => some a
        | .ok r =>
          if cmd ≠ 2 ∧ u.sees crew q.index = false then some .noRight
          else if cmd = 1 ∧ r.access = .wo then some .writeOnly else none
    let goesOn (crew : Nat) : Prop := q.dir = false ∧ q.unknown = false ∧ (u.crewEnabled crew = true ∨ isEnable q.index q.sub = true) ∧
      q.node ≠ u.ownNode ∧ u.cascMaster = true ∧ q.node < 4 ∧ (u.node q.node).reachable = true
    let ended (v : State) (crew : Nat) : State := v.modCrew crew (fun x => { x with confirm := none })
    let frame (a : Abort) : Out := .canFrame k (u.num (0x1100 + k) 1 % 2 ^ 29 / 2 ^ 11 * 2 ^ 11 + 0x400 + client % 256 * 4 + q.node % 4)
      (padFrame (leBytes 1 (0xF * 16 + q.tag % 16) ++ leBytes 1 q.sub ++ leBytes 2 q.index ++ leBytes 4 a.code))
    let sentOn (via : Via) (crew : Nat) (p : Req) : State := ((ended u crew).modCascade (fun x =>
      { x with forwarded := x.forwarded ++ [{ at_ := u.now, node := q.node, via := via, req := p }] })).send (.forwarded q.node crew cmd p)
    (∀ d, (cmd = 2 → canValue q.index q.sub q.data = .ok d) → (cmd ≠ 2 → d = q.data) →
      (u.planned = true → ∀ a, refusal (u.canCrew k) = some a → exec (c (.can k client)) s = .next ((ended u (u.canCrew k)).send (frame a))) ∧
      (u.planned = true → goesOn (u.canCrew k) →
        exec (c (.can k client)) s = .next (sentOn (.can k client) (u.canCrew k) { q with data := d, offset := 0, length := 0 })) ∧
      (u.configured = true → u.planned = false →
        let e := tabGet (0, 0) u.bootQueues (viaKey (.can k client))
        let waiting := if e.1 = u.now then e.2 else 0
        waiting < 32 → exec (c (.can k client)) s =
          .next ((ended { u with bootQueues := tabSet u.bootQueues (viaKey (.can k client)) (u.now, waiting + 1) } (u.canCrew k)).send (frame .booting)))) ∧
    (u.planned = true → noRoom [(cmd, q)] = false → cmd ≠ 2 ∨ u.mayWriteFrom k ip = true →
      (∀ a, refusal (u.ethCrew k) = some a → exec (c (.eth k ip port)) s =
        .next ((ended u (u.ethCrew k)).send (.udp k ip port (buildDatagram q.node q.tag [(q, .abort a)])))) ∧
      (goesOn (u.ethCrew k) → exec (c (.eth k ip port)) s = .next (sentOn (.eth k ip port) (u.ethCrew k) q)))

/-- Segmented transfers on CAN FD: a read answers with its length and sends up to 16 segments; a write opens a transfer and takes its segments in
sequence; the last acknowledgement ends a read; CANCEL and 100 ms without the other side end a transfer with CANCELLED or
SEG_TIMEOUT; a segment, an acknowledgement or a CANCEL with dir 1 is refused with PROTOCOL and acts on nothing (02 R40, R41). -/
def Obligations.SegmentedTransfers : Prop :=
  ∀ (dt k client node tag seq : Nat) (q : Req) (data : List Byte) (s : State) (x : Segment),
    let u := s.tick dt
    let key := segKey k node client
    let aborted (w : State) (a : Abort) : State := ({ w with segments := tabErase w.segments key }).canRsp k client
      { node := node, tag := x.tag, index := x.index, sub := x.sub, dir := false, offset := 0, length := 0, data := [] } 0xF (leBytes 4 a.code)
    let refused : State := u.canRsp k client { node := node, tag := tag, index := 0, sub := 0, dir := true, offset := 0, length := 0, data := [] } 0xF (leBytes 4 Abort.protocol.code)
    k < 2 →
    (∀ t b, u.planned = true → tabFind u.segments (segKey k q.node client) = none →
      u.serve (.can k client) (u.canCrew k) 1 false { q with offset := 0, length := 0 } = (t, some (.read b)) →
      exec (.segReadInit dt k client q) s = .next ((t.canRsp k client q 0xC (leBytes 4 b.length)).segPump k client q.node
        { write := false, tag := q.tag % 16, index := q.index, sub := q.sub, total := b.length, data := b, nextSeq := 0, unacked := 0, at_ := t.now } 16)) ∧
    (u.planned = true → tabFind u.segments (segKey k q.node client) = none → q.dir = false → q.unknown = false → q.node = u.ownNode → 4 ≤ q.data.length →
      leNat (q.data.take 4) ≠ 0 →
      let t := u.endAttempt (u.canCrew k)
      let y : Segment := { write := true, tag := q.tag % 16, index := q.index, sub := q.sub, total := leNat (q.data.take 4), data := [], nextSeq := 0, unacked := 0, at_ := u.now }
      exec (.segWriteInit dt k client q) s =
        .next (({ t with segments := tabSet t.segments (segKey k q.node client) y }).canRsp k client q 0xC [])) ∧
    (u.planned = true → tabFind u.segments key = some x →
      (x.write = true → x.tag = tag % 16 → x.nextSeq % 256 = seq → x.data.length + 62 < x.total → data.length = 62 →
        let t : State := { u with segments := tabSet u.segments key { x with data := x.data ++ data, nextSeq := x.nextSeq + 1, at_ := u.now } }
        ((x.nextSeq + 1) % 16 ≠ 0 → exec (.segData dt k client ⟨node, false⟩ tag seq data) s = .next t) ∧
        ((x.nextSeq + 1) % 16 = 0 → exec (.segData dt k client ⟨node, false⟩ tag seq data) s = .next (t.segSend k client node 0xE x.tag seq []))) ∧
      (x.write = false ∨ x.tag ≠ tag % 16 ∨ x.nextSeq % 256 ≠ seq →
        exec (.segData dt k client ⟨node, false⟩ tag seq data) s = .next (aborted u .segSequence)) ∧
      (x.write = false → x.tag = tag % 16 → x.data = [] → 0 < x.unacked → x.unacked < 17 → seq < 256 → x.nextSeq % 256 = (seq + 1) % 256 →
        exec (.segAck dt k client ⟨node, false⟩ tag seq) s = .next { u with segments := tabErase u.segments key }) ∧
      (x.tag = tag % 16 → exec (.cancel dt k client ⟨node, false⟩ tag) s = .next (aborted u .cancelled)) ∧
      exec (.segData dt k client ⟨node, true⟩ tag seq data) s = .next refused ∧ exec (.segAck dt k client ⟨node, true⟩ tag seq) s = .next refused ∧
      exec (.cancel dt k client ⟨node, true⟩ tag) s = .next refused) ∧
    (u.configured = true → tabFind u.segments key = some x → x.at_ + 100_000_000 ≤ u.now →
      exec (.segTimeout dt k client node) s = .next (aborted u .segTimeout))

/-- A datagram is dropped and counted, or its entries are carried out (02 R42, R43); the mailbox takes words and a request while it is not
busy, and raises mbx_write_busy or mbx_go_busy while it is; a response fills the response buffer and ends busy, and MBX_DONE is posted where it
was asked for (02 R45); a re-synchronisation
request changes nothing but its crew's record (02 R48). -/
def Obligations.DatagramsAndMailbox : Prop :=
  ∀ (dt crew : Nat) (s : State),
    let u := s.tick dt
    (∀ k ip port payload, k < 2 → u.configured = true →
      (parseDatagram payload = none → exec (.udpDatagram dt k ip port payload) s =
        .next (u.setNum (0x1200 + k) 7 ((u.num (0x1200 + k) 7 + 1) % 2 ^ 32))) ∧
      (∀ es, parseDatagram payload = some es → exec (.udpDatagram dt k ip port payload) s = .next (u.udpServe k ip port es))) ∧
    (∀ offset v, offset < 0x800 → offset % 4 = 0 → lands u (pageAcc crew (0x2000 + offset)) (.crew crew) (0x2000 + offset) = true →
      exec (.mbxRequestBufferWrite dt crew offset v) s = .next (if (u.crew crew).mbxBusy then u.raise (mbxStatus crew) [1]
        else u.modCrew crew (fun k => { k with mbxReq := (List.range 4).foldl (fun t i => tabSet t (offset + i) ((leBytes 4 v.toNat).getD i 0)) k.mbxReq }))) ∧
    (∀ v : Word, lands u (pageAcc crew 0x3000) (.crew crew) 0x3000 = true → v.toNat < 8 → u.reg (mbxStatus crew - 4) 0 = 0 → v.toNat % 2 = 1 →
      let w := u.modCrew crew (fun k => { k with mbxNotify := bitOf v.toNat 2 })
      let b := w.modCrew crew (fun k => { k with mbxBusy := true, mbxReply := [] })
      let x := (u.crew crew).request
      let q : Req :=
        { node := leNat ((x.drop 3).take 1), tag := leNat ((x.drop 4).take 2), index := 0, sub := 0, dir := false, offset := 0, length := 0, data := [] }
      ((u.crew crew).mbxBusy = true → exec (.mbxGo dt crew v) s = .next (w.raise (mbxStatus crew) [2])) ∧
      ((u.crew crew).mbxBusy = false → ∀ es, parseDatagram (u.crew crew).request = some es → exec (.mbxGo dt crew v) s = .next (b.mbxServe crew es)) ∧
      ((u.crew crew).mbxBusy = false → parseDatagram (u.crew crew).request = none → exec (.mbxGo dt crew v) s =
        .next ((b.modCrew crew (fun k => { k with confirm := none })).modCrew crew (fun k => { k with mbxReply := buildDatagram q.node q.tag [(q, .abort .protocol)] })))) ∧
    (u.configured = true → (u.crew crew).mbxBusy = true → (u.crew crew).mbxReply ≠ [] → (u.crew crew).mbxRestore = false →
      let v := ((u.modCrew crew (fun k => { k with mbxResp := k.mbxReply, mbxReply := [], mbxBusy := false, mbxRestore := false })).send
        (.mailbox crew (u.crew crew).mbxReply)).raise (mbxStatus crew) [0]
      exec (.mbxDone dt crew) s = .next (if (u.crew crew).mbxNotify then v.post crew (eventWord 0x10 0xF 0 0 0) else v)) ∧
    (∀ token, u.planned = true → crew < 512 → u.crewEnabled crew = true → exec (.resyncRequest dt crew token) s =
      .next (u.modCrew crew (fun k => { k with resync := some (u.record crew (token % 2 ^ 32)) })))

/-- A function-level reset of a function on the bus disables its crew in the order of R23: its blit in progress is written, its command and completion
queues are flushed, its pending commits are discarded and counted, its staged writes go, its layers leave their lanes, and its backing and its
channels are released. A manager crew is enabled again at once; a crew that is already disabled stays as it is (02 R23, R24, 11 R289). -/
def Obligations.FunctionLevelResets : Prop :=
  ∀ (dt port fn : Nat) (s : State), port < 4 → fn < 128 → (s.tick dt).busOpen (port * 128 + fn) = true →
    let c := port * 128 + fn
    let u := s.tick dt
    let off := u.setNum (crewIx c 0) 1 0
    let written := off.blitWrite c (((off.blitOf c).map (fun r => r.left.length)).getD 0)
    let flushed := (written.flushCq c).modCrew c (fun k =>
      { k with eq := [], accepting := [], holding := match k.holding with | .commit _ => .idle | h => h })
    let discarded := (flushed.commits.filter (fun k => decide (k.crew = c))).foldl State.discardCommit flushed
    let left := (discarded.modCrew c (fun k => { k with staged := [], confirm := none })).leaveLayers c
    let disabled := (off.channelsOf c).foldl State.moverAbort (left.dropBacking c)
    (fn = 0 → exec (.functionLevelReset dt port fn) s = .next (disabled.setNum (crewIx c 0) 1 1) ∧
      (disabled.setNum (crewIx c 0) 1 1).crewEnabled c = true) ∧
    (fn ≠ 0 → u.crewEnabled c = true → exec (.functionLevelReset dt port fn) s = .next disabled) ∧
    (fn ≠ 0 → u.crewEnabled c = false → exec (.functionLevelReset dt port fn) s = .next u)

/-- A crew's items on layers and commits are taken from the head of its queue and nothing else of the queue changes: LAYER_CREATE gives the
lowest free layer of its port within quota and rights, or answers its refusal; LAYER_DESTROY frees a layer without source; LAYER_SET stages
its writes in order; COMMIT holds the crew's later items until the cox has checked it; an item that its format does not allow is dropped with
ITEM_ERROR (04 R76, R77, R84, R95, R96, 11 R296, R297). -/
def Obligations.LayerAndCommitItems : Prop :=
  ∀ (dt crew : Nat) (s : State),
    let u := s.tick dt
    let v := u.modCrew crew (fun k => { k with cq := k.cq.drop 1 })
    let w := (u.head crew).word 0
    (u.headIs crew 0x05 = true →
      (u.crewRight crew 0 = true → u.layersUsed crew < u.num (crewIx crew 1) 2 → ∀ l, u.freeLayerOf crew = some l →
        exec (.layerCreate dt crew) s = .next ((v.giveLayer l crew).post crew (eventWord 8 0xF 0 (cookieOf w) l))) ∧
      (u.crewRight crew 0 = true → u.num (crewIx crew 1) 2 ≤ u.layersUsed crew →
        exec (.layerCreate dt crew) s = .next (v.post crew (eventWord 8 0xF Abort.quota.reason (cookieOf w) 0xFFFF_FFFF)))) ∧
    (u.headIs crew 0x06 = true → (u.layer (layerField w)).owner = some crew →
      exec (.layerDestroy dt crew) s = .next (if u.lyr (layerField w) 6 = 0 then v.freeLayer (layerField w)
        else v.post crew (eventWord 0x0A 0xF Abort.valueConflict.reason (cookieOf w) 0))) ∧
    (u.headIs crew 0x02 = true → ∀ ws, layerWrites ((u.head crew).words.drop 1) = some ws →
      exec (.layerSet dt crew) s = .next (v.layerSet crew (layerField w) ws)) ∧
    (u.headIs crew 0x01 = true → bitOf w 47 = false →
      let r : CommitReq := { mask := bits w 55 48, linked := decide (2 ≤ (lanesIn (bits w 55 48)).length), fences := [], cookie := cookieOf w, register := none }
      exec (.commit dt crew) s = .next (v.modCrew crew (fun k => { k with holding := .commit r, accepting := k.accepting ++ [r] }))) ∧
    (u.badHead crew = true → exec (.malformedItem dt crew) s =
      .next (v.post crew (eventWord 0x0A 0xF 8 (if opOf w = 2 then 0 else cookieOf w) 0)))

/-- Fences: an item waits for its fence, or goes on where it is met; the fence is read again; its time-out posts FENCE_WAIT_EXPIRED; a signal is
written at once, or kept for the crew's latest commit (04 R90, R95). A fence read that faults counts as unmet. -/
def Obligations.FenceItems : Prop :=
  ∀ (dt crew : Nat) (s : State),
    let u := s.tick dt
    let v := u.modCrew crew (fun k => { k with cq := k.cq.drop 1 })
    let i := u.head crew
    let f := i.fence
    let ms := bits (i.word 0) 13 0
    (u.headIs crew 0x03 = true → 1 ≤ ms → ms ≤ 10_000 → fenceWordOk (i.word 1) = true → ∀ t x, v.fenceValue crew f.host f.addr = (t, x) →
      exec (.fenceWait dt crew) s = .next (if x.any (fun n => decide (f.target ≤ n)) then t
        else t.modCrew crew (fun k => { k with holding := .fenceWait f.host f.addr f.target (u.now + ms * 1_000_000) (cookieOf (i.word 0)) }))) ∧
    (∀ host addr target deadline cookie, u.running = true → (u.crew crew).holding = .fenceWait host addr target deadline cookie →
      (∀ t x, u.fenceValue crew host addr = (t, x) → exec (.fenceWaitPoll dt crew) s =
        .next (if x.any (fun n => decide (target ≤ n)) then t.modCrew crew (fun k => { k with holding := .idle }) else t)) ∧
      (deadline ≤ u.now → exec (.fenceWaitExpired dt crew) s =
        .next ((u.modCrew crew (fun k => { k with holding := .idle })).post crew (eventWord 9 0xF 0 cookie 0)))) ∧
    (u.headIs crew 0x04 = true → fenceWordOk (i.word 1) = true →
      (bits (i.word 0) 49 48 = 0 → exec (.fenceSignal dt crew) s = .next (v.fenceWrite crew f.host f.addr f.target)) ∧
      (∀ q, bits (i.word 0) 49 48 = 1 ∨ bits (i.word 0) 49 48 = 2 → (u.crew crew).latest = some q → u.isPending q = true →
        exec (.fenceSignal dt crew) s = .next (v.modCrew crew (fun k => { k with signals := k.signals ++
          [{ seq := q, onPresented := decide (bits (i.word 0) 49 48 = 2), host := f.host, addr := f.addr, value := f.target }] }))))

/-- A crew's items that are refused, each taken from the head of the queue with nothing else of the queue changed: LAYER_CREATE without the
right and with no free layer of the crew's port; LAYER_DESTROY of a layer that is another crew's or nobody's, by a crew that does not manage
its port; a COMMIT whose fence word its format does not allow, which counts as a refused commit and leaves no latest commit; FENCE_WAIT out
of 1 to 10,000 ms and either fence item with a fence word its format does not allow, reported VALUE_RANGE. With them the forms of FENCE_SIGNAL
whose commit is no longer awaited: with no latest commit nothing is written; one already applied, or presented, is signalled at once
(04 R76, R77, R84, R90, R95, R96, 11 R297). -/
def Obligations.LayerAndFenceItemsRefused : Prop :=
  ∀ (dt crew : Nat) (s : State),
    let u := s.tick dt
    let v := u.modCrew crew (fun k => { k with cq := k.cq.drop 1 })
    let i := u.head crew
    let w := i.word 0
    let f := i.fence
    (u.headIs crew 0x05 = true →
      (u.crewRight crew 0 = false →
        exec (.layerCreate dt crew) s = .next (v.post crew (eventWord 8 0xF Abort.noRight.reason (cookieOf w) 0xFFFF_FFFF))) ∧
      (u.crewRight crew 0 = true → u.freeLayerOf crew = none →
        exec (.layerCreate dt crew) s = .next (v.post crew (eventWord 8 0xF Abort.quota.reason (cookieOf w) 0xFFFF_FFFF)))) ∧
    (u.headIs crew 0x06 = true →
      ((u.layer (layerField w)).owner ≠ some crew → portManager crew (layerField w / 512) = false →
        exec (.layerDestroy dt crew) s = .next (v.post crew (eventWord 0x0A 0xF Abort.noRight.reason (cookieOf w) 0))) ∧
      ((u.layer (layerField w)).owner = none → portManager crew (layerField w / 512) = true → exec (.layerDestroy dt crew) s = .next v) ∧
      (∀ c, (u.layer (layerField w)).owner = some c → portManager crew (layerField w / 512) = true → exec (.layerDestroy dt crew) s =
        .next (if u.lyr (layerField w) 6 = 0 then v.freeLayer (layerField w)
          else v.post crew (eventWord 0x0A 0xF Abort.valueConflict.reason (cookieOf w) 0)))) ∧
    (u.headIs crew 0x01 = true → bitOf w 47 = true →
      (fenceWordOk (i.word 1) = true →
        let r : CommitReq := { mask := bits w 55 48, linked := decide (2 ≤ (lanesIn (bits w 55 48)).length), fences := [f], cookie := cookieOf w, register := none }
        exec (.commit dt crew) s = .next (v.modCrew crew (fun k => { k with holding := .commit r, accepting := k.accepting ++ [r] }))) ∧
      (fenceWordOk (i.word 1) = false → exec (.commit dt crew) s =
        .next (((v.refuseCommit crew none).post crew (eventWord 7 (laneField (bits w 55 48)) Abort.valueRange.reason (cookieOf w) 0)).modCrew crew
          (fun k => { k with latest := none })))) ∧
    (u.headIs crew 0x03 = true → bits w 13 0 < 1 ∨ 10_000 < bits w 13 0 ∨ fenceWordOk (i.word 1) = false →
      exec (.fenceWait dt crew) s = .next (v.post crew (eventWord 0x0A 0xF Abort.valueRange.reason (cookieOf w) 0))) ∧
    (u.headIs crew 0x04 = true →
      (bits w 49 48 = 3 ∨ fenceWordOk (i.word 1) = false →
        exec (.fenceSignal dt crew) s = .next (v.post crew (eventWord 0x0A 0xF Abort.valueRange.reason (cookieOf w) 0))) ∧
      (bits w 49 48 = 1 ∨ bits w 49 48 = 2 → fenceWordOk (i.word 1) = true →
        ((u.crew crew).latest = none → exec (.fenceSignal dt crew) s = .next v) ∧
        (∀ q, (u.crew crew).latest = some q → u.isPending q = false → bits w 49 48 = 1 ∨ u.isAwaited q = false →
          exec (.fenceSignal dt crew) s = .next (v.fenceWrite crew f.host f.addr f.target))) ∧
      (∀ q, bits w 49 48 = 2 → fenceWordOk (i.word 1) = true → (u.crew crew).latest = some q → u.isAwaited q = true →
        exec (.fenceSignal dt crew) s = .next (v.modCrew crew (fun k => { k with signals := k.signals ++
          [{ seq := q, onPresented := true, host := f.host, addr := f.addr, value := f.target }] })))) ∧
    (u.badHead crew = false → u.oddSmu crew = true → exec (.malformedItem dt crew) s = .next (u.smuItem crew))

/-- A commit judged, written to a lane's COMMIT register, and the reading of its fences: a refused commit is counted and answered with its abort;
an accepted one takes the next number and is answered with it; a second register request while one is busy is ignored and raised; the value read
of each fence decides whether the commit is eligible; one that enables a lane is then applied at once, and one that meets a lane in its extended
porch is caught there (04 R83, R84, R90, R96, 07 R183, R199). A fence read that faults counts as unmet. -/
def Obligations.CommitRequests : Prop :=
  ∀ (dt crew lane : Nat) (acc : Acc) (v : Word) (s : State),
    let u := s.tick dt
    (∀ r rest, u.planned = true → (u.crew crew).accepting = r :: rest →
      let w := u.modCrew crew (fun k => { k with accepting := rest })
      let q : CommitReq := { r with fences := r.fences.map (fun f => { f with namedAt := u.now }) }
      (r.register = none →
        let x := w.modCrew crew (fun k => { k with holding := .idle })
        (∀ a e, x.judge crew q = .error (a, e) → exec (.commitAcceptance dt crew) s =
          .next ((((x.refuseCommit crew e).noMemory crew e ((x.withPending []).withWrites (x.takenBy crew q.mask))).post crew
            (eventWord 7 (Machine.laneField q.mask) a.reason q.cookie 0)).modCrew crew (fun k => { k with latest := none }))) ∧
        (∀ g fs, x.judge crew q = .ok (g, fs) → exec (.commitAcceptance dt crew) s =
          .next (((x.admitCommit crew q g fs true).1.afterAcceptance x (x.newCommit crew q fs)).modCrew crew
            (fun k => { k with latest := some u.nextSeq })))) ∧
      (∀ n, r.register = some n → (r.linked = true → r.mask < 0x100 ∧ r.mask.testBit n = true ∧ 2 ≤ (lanesIn r.mask).length) →
        (∀ a e, w.judge crew q = .error (a, e) → exec (.commitAcceptance dt crew) s =
          .next ((((w.refuseCommit crew e).noMemory crew e ((w.withPending []).withWrites (w.takenBy crew q.mask))).modLane n
            (fun l => { l with commitBusy := false, commitResult := 0, commitAbort := a.code })).raise (laneStatus n) [13])) ∧
        (∀ g fs, w.judge crew q = .ok (g, fs) → exec (.commitAcceptance dt crew) s =
          .next ((((w.admitCommit crew q g fs false).1.afterAcceptance w (w.newCommit crew q fs)).modLane n
            (fun l => { l with commitBusy := false, commitResult := u.nextSeq, commitAbort := 0 })).raise (laneStatus n) [13])))) ∧
    (lane < 8 → lands u acc (.lane lane) 0x10 = true →
      ((u.lane lane).commitBusy = true → exec (.laneCommitWrite dt acc lane v) s = .next (u.raise (laneStatus lane) [14])) ∧
      ((u.lane lane).commitBusy = false → exec (.laneCommitWrite dt acc lane v) s =
        .next ((u.modLane lane (fun l => { l with commitBusy := true })).modCrew 0 (fun k => { k with accepting := k.accepting ++
          [{ mask := if v.toNat = 0 then 2 ^ lane else v.toNat, linked := decide (v.toNat ≠ 0), fences := [], cookie := 0, register := some lane }] })))) ∧
    (u.coxUp = true → lane < 8 → ∀ k f, u.commits = [k] → k.lanes.testBit lane = true → k.fences = [f] → k.eligible = false →
      ∀ t x, u.fenceValue k.crew f.host f.addr = (t, some x) → t.commits = u.commits →
        (x < f.target → exec (.fenceRead dt lane) s = .next { t with commits := [{ k with fences := [{ f with met := false }] }] }) ∧
        let m := { t with commits := [{ k with fences := [{ f with met := true }], eligible := true }] }
        (f.target ≤ x → m.enabling (m.withPending []) k.lanes = false →
          exec (.fenceRead dt lane) s = .next ((lanesIn k.lanes).foldl State.porchCatch m)) ∧
        (f.target ≤ x → m.enabling (m.withPending []) k.lanes = true → m.applies = true →
          exec (.fenceRead dt lane) s = .next (m.applyCommit { k with fences := [{ f with met := true }], eligible := true })))

/-- A catch in chase discipline carries out the commits it concerns and binds the indication and the next frame's heat, but where it begins a
RETIME; lane d's first catch in RUN takes it over from the limp composer; F0's start ends a RETIME's progress; active line 0 presents the commits
and the expected CRCs that it is the first to show, and ends a RETIME at F0. Each is met after what was due on the lane (`State.meet`) (01 R12, R16, 04 R85, R91, R97, 07 R192, R193, 12 R323, 15 R397). -/
def Obligations.LaneCatches : Prop :=
  ∀ (dt n : Nat) (s : State), n < 8 →
    let u := s.meet dt n
    let w := (u.catchCommits n).markCatch n
    (u.catchReady n = true → u.handOverReady n = false →
      exec (.laneCatch dt n) s = .next (if w.retiming n then w.mergeDamage n else (w.bindIndication n).bindHeat n (w.frame n + 1))) ∧
    (u.applies = false → w = u.markCatch n) ∧
    (u.applies = true → ∀ k, u.commits = [k] → u.atCatch n k = true →
      (k.eligible = false → u.fenceExpired n k = false → w = ({ u with commits := [{ k with deferred := true }] }.removeLayers n).markCatch n) ∧
      (k.eligible = true → w = ((u.applyCommit k).removeLayers n).markCatch n)) ∧
    (u.handOverReady n = true → exec (.laneCatch dt n) s =
      .next (((((u.modLane n (fun l => { l with mode := .running })).modLimp (fun l => { l with driving := false })).damageAll n).armLane n).catchLane n true)) ∧
    (u.f0Ready n = true → exec (.retimeF0Start dt n) s =
      .next ((u.modLane n (fun l => { l with retime := l.retime.map (fun r => { r with f0 := true }) })).beginFrame n true)) ∧
    ((u.lane n).mode = .running ∨ (u.lane n).mode = .retiming → (u.lane n).gated = false → ∀ q who f, (u.lane n).awaiting = [(q, who, f)] →
      let shown (t : State) : State := { t with regions := t.regions.map (fun p =>
        match p.2.nextExpected with
        | some (g, v) => if p.1 / 32 = n ∧ g ≠ 0 ∧ g ≤ u.frame n then (p.1, { p.2 with expected := v, nextExpected := none }) else p
        | none => p) }
      (f ≠ 0 → f ≤ u.frame n →
        let t := ((((u.modLane n (fun l => { l with awaiting := [] })).count (laneCount n 0x28) 1).modCrew (who / 65536)
          (fun k => { k with lastCommit := q })).modLane n (fun l => { l with presentedSeq := q })).runSignals (who / 65536) q true
        let v := shown (t.post (who / 65536) (eventWord 3 n 0 (who % 65536) q))
        exec (.presented dt n) s = .next (if ((u.lane n).retime).any (fun r => r.f0) then v.endRetime n else v)) ∧
      (u.frame n < f → exec (.presented dt n) s = .next (shown (u.modLane n (fun l => l)))))

/-- A frame start sends the frame, counts it, opens its front porch anew and takes over the frame's timing; the minimum front porch ends where content is
ready and is extended else; at the maximum a chase lane repeats its frame, and a caught porch starts its frame without vrr_max; a porch whose heat
is composed is due; self-refresh is entered, stops the lane's clock and link, and is raised and counted. Each is met after what was due on the lane
(`State.meet`) (07 R180, R182 to R185, R195, 08 R209). -/
def Obligations.FrameStartsAndPorches : Prop :=
  ∀ (dt n : Nat) (s : State), n < 8 →
    let u := s.meet dt n
    let again := ((u.raise (laneStatus n) [4]).count (vrrCount n 0) 1).modLane n (fun l => { l with frameDue := true })
    (u.frameReady n = true → ∃ t, exec (.frameStart dt n) s = .next t ∧ t = u.beginFrame n false ∧
      t.counter (laneCount n 0) = u.counter (laneCount n 0) + 1 ∧ (t.lane n).frameAt = u.now ∧ (t.lane n).timing = some (u.frameTiming n) ∧
      (t.lane n).frameDue = false ∧ (t.lane n).porch = false ∧ (t.lane n).porchExtended = false ∧ (t.lane n).porchCaught = false ∧
      (t.lane n).sStart = none ∧ (t.lane n).stalls = [] ∧ (t.lane n).lastPixel = u.sentPixel n (u.laneW n - 1) (u.laneH n - 1)) ∧
    (u.porchMinReady n = true →
      (u.contentReady n = true → exec (.vrrPorchMin dt n) s = .next (u.modLane n (fun l => { l with porch := true, porchExtended := false }))) ∧
      (u.contentReady n = false → exec (.vrrPorchMin dt n) s = .next (u.modLane n (fun l => { l with porch := true, porchExtended := true })))) ∧
    (u.porchOpen n = true →
      (u.lead n = true → exec (.vrrMaxFrontPorch dt n) s = .next (again.catchLane n false)) ∧
      (u.lead n = false → u.commandMode n = true → exec (.vrrMaxFrontPorch dt n) s =
        .next ((u.raise (portStatus n) [5]).modLane n (fun l => { l with frameDue := true }))) ∧
      (u.lead n = false → u.commandMode n = false → (u.lane n).porchCaught = true → exec (.vrrMaxFrontPorch dt n) s =
        .next (u.modLane n (fun l => { l with porchMaxed := true, frameDue := true }))) ∧
      (u.lead n = false → u.commandMode n = false → (u.lane n).porchCaught = false → exec (.vrrMaxFrontPorch dt n) s =
        .next (again.modLane n (fun l => { l with porchMaxed := true })))) ∧
    ((u.lane n).scans = true → (u.lane n).gated = false → (u.lane n).porchCaught = true → (u.lane n).frameDue = false →
      (∀ t ∈ (u.lane n).heat.tiles, t ∈ (u.lane n).heat.written ∨ t ∈ (u.lane n).heat.abandoned) →
      exec (.heatComplete dt n) s = .next (u.modLane n (fun l => { l with frameDue := true }))) ∧
    (u.refreshReady n = true →
      let v := if u.laneNum n 7 1 ≠ 0 ∧ (u.lane n).link = .up then u.send (.ulps n true) else u
      exec (.selfRefreshEntry dt n) s = .next (((v.modLane n (fun l =>
        { l with mode := .selfRefresh, wbActive := false, locked := false, tracking := false, heldLine := u.lineNow n,
                 link := if l.link = .up then .lowPower else l.link })).raise (laneStatus n) [10]).count (laneCount n 0x38) 1))

/-- Tile rows: a row is released once, when its heat is the next frame's and on the lead lane its lines have landed; where no shell of its region's pin
is available the pin is suspended and raised once; a tile that its open row hands to a powered shell is read and written, or abandoned at an
unreadable input; a row that closes gives back its unwritten tiles with the damage that they carried, counts its lines as underrun where it loses
tiles and is then the lane's umpire source; a stalled port repeats the pixel before and counts it, and an uncorrectable read is the umpire's and
damages its tiles; the dispatcher wakes the quarters of its assigned shells. The lane's own events are met after what was due on the lane
(01 R13, R14, R17, R19, 05 R102, 06 R158, 07 R173, R178, R179). -/
def Obligations.TileRows : Prop :=
  ∀ (dt n row col q : Nat) (s : State), n < 8 →
    let u := s.meet dt n
    (u.rowReady n row = true → (u.lead n = true → u.rowLanded n row = true) →
      let t := (u.divide n).modLane n (fun l => { l with heat := { l.heat with released := l.heat.released ++ [row] } })
      let pin := (t.lane n).regionPins.find? (fun p => decide (p.1 ≤ row) && decide (row ≤ p.2.1))
      (pin = none → exec (.rowRelease dt n row) s = .next t) ∧
      (∀ p, pin = some p → t.pinOut n row = true → (t.lane n).suspended.contains p.1 = true → exec (.rowRelease dt n row) s = .next t) ∧
      (∀ p, pin = some p → t.pinOut n row = true → (t.lane n).suspended.contains p.1 = false →
        exec (.rowRelease dt n row) s = .next ((t.modLane n (fun l => { l with suspended := p.1 :: l.suspended })).raise coxStatus [4])) ∧
      (∀ p, pin = some p → t.pinOut n row = false →
        exec (.rowRelease dt n row) s = .next (t.modLane n (fun l => { l with suspended := l.suspended.filter (fun x => decide (x ≠ p.1)) })))) ∧
    (col < 256 → ∀ newest h, u.openHeat n row = some (newest, h) →
      let k := row * 256 + col
      let flat := (tabFind (u.lane n).flat k).bind (fun f => if f.layers = (u.forHeat n h).flatSign n k then some f else none)
      let skip := (((u.forHeat n h).stack n k).take ((flat.map FlatTile.depth).getD 0)).filterMap Elem.layerOf
      let inputs := ((u.forHeat n h).covering n k).filter (fun l => !skip.contains l)
      k ∈ h.tiles → k ∉ h.written → k ∉ h.abandoned → u.handedOut n h k = true →
        (∀ t dead e, u.readInputs (u.forHeat n h) n k inputs = (t, dead, some e) → exec (.tileWrite dt n col row) s =
          .next ((t.modHeat n newest (fun x => { x with abandoned := x.abandoned ++ [k] })).inputError e)) ∧
        (∀ t dead, u.readInputs (u.forHeat n h) n k inputs = (t, dead, none) →
          let v := if newest && decide (h.frame = u.frame n + 1) then t.keepTile n k else t
          exec (.tileWrite dt n col row) s =
            .next (((v.setPixels n ((t.forHeat n h).composeTile n k h.frame dead flat)).storeFlat (t.forHeat n h) n k dead flat).modHeat n newest
              (fun x => { x with written := x.written ++ [k] })))) ∧
    (row < u.tileRows n → ∀ newest h, u.closingHeat n row = some (newest, h) →
      let g := { h with closed := h.closed ++ [row] }
      let lost := h.tiles.filter (fun t => decide (t / 256 = row) && !h.written.contains t)
      let v := u.modHeat n newest (fun _ => g)
      let w := v.keepTiles n row newest h lost
      (lost = [] → exec (.rowClose dt n row) s = .next (v.releaseHeat n g)) ∧
      (lost ≠ [] → exec (.rowClose dt n row) s = .next (((((w.count (laneCount n 0x10) (w.rowLines n row)).raise (laneStatus n) [2]).modLane n
          (fun l => { l with underrunInfo := u.frame n % 2 ^ 16 * 2 ^ 16 + (32 * row) % 2 ^ 13 })).occur n n).releaseHeat n g))) ∧
    ((u.lane n).mode ≠ .off → (u.lane n).gated = false → ∀ line x k, 0 < k → line < u.laneH n → x < u.laneW n →
      let run := ((List.range k).map (fun i => line * u.laneW n + x + i)).filterMap (fun p =>
        if p < u.laneW n * u.laneH n then some (p / u.laneW n * 65536 + p % u.laneW n) else none)
      let t := ((u.count (laneCount n 0x18) 1).raise (laneStatus n) [3]).modLane n (fun l =>
        { l with stallInfo := min k 0xFFFF * 2 ^ 16 + line % 2 ^ 13, stalls := run.map (fun p => (p, u.pixelBefore n line x)) ++ l.stalls })
      exec (.portStall dt n line x k false) s = .next t ∧
      exec (.portStall dt n line x k true) s = .next (((t.modLane n (fun l => { l with lost := run ++ l.lost })).unitError false
        (u.pixelOffset n x line / 32 * 32)).damage n (dedup (run.map (fun p => tileKey (p % 65536 / 64) (p / 65536 / 32)))) 0)) ∧
    (let a := s.tick dt
     a.coxUp = true → q < 2 ^ 64 → q &&& a.workQuarters &&& a.power.on ≠ q &&& a.workQuarters →
      exec (.quarterWake dt q) s = .next ((a.modPower (fun p => { p with on := p.on ||| (q &&& a.workQuarters) })).raise powerStatus [0]))

/-- The frame of a lane's own events: a frame start, a porch's end, a composed heat, self-refresh, a stalled port, a rising HPD, a trained link, a panel's
packets, TE and a PWM period each end in a next state, and change nothing but that lane, the quiet frames of its layers, its counters and status, its stored
frame, its port's umpire line and what it sends, beside what was due on the lane (`State.meet`): no object, register, queue, memory, fuse or other lane
(07 R178 to R185, R195, 08 R206 to R213). -/
def Obligations.LaneEventsChangeTheirLaneOnly : Prop :=
  ∀ (dt n line x k : Nat) (rising : Bool) (answer : Option (List Byte)) (s : State),
    ∀ c ∈ [Instr.frameStart dt n, .vrrPorchMin dt n, .heatComplete dt n, .selfRefreshEntry dt n, .portStall dt n line x k false, .hpdRise dt n,
        .linkTrainingAttempt dt n true, .dsiBringup dt n rising, .teEdge dt n rising, .dsiCmdSend dt n answer, .blpwmPeriodStart dt n],
      ∃ t, exec c s = .next t ∧ (OnlyLane n s t ∨ OnlyLane n (s.meet dt n) t)

/-- An eDP port: bring-up powers a panel that a RETIME took down, waits for HPD, fails with reason 2 where the sink does not answer, with reason 4 where
no rate and lane count carry the mode and with reason 5 where DSC is asked of a sink without it, and else trains its candidates in order, raising
cap_mismatch where the sink lacks an option; a trained pair brings the link up, the last failed one ends with reason 3; HPD that does not rise ends
with reason 1; a rise starts a bring-up, an unplug stops the port, a pulse raises its event and trains a lost link again. Bring-up and training are
met after what was due on the lane (08 R206, R207, R229). -/
def Obligations.EdpPorts : Prop :=
  ∀ (dt n : Nat) (s : State), n < 8 →
    let u := s.tick dt
    let m := s.meet dt n
    let failed (v : State) (reason : Nat) : State :=
      ((v.modLane n (fun l => { l with link := .failed, failReason := reason, trainedRate := 0, trainedLanes := 0, candidates := [], retime := l.retime.map (fun r => { r with portUp := true }) })).raise
        (portStatus n) [1]).lineOn (16 + n) n
    let up (v : State) (rate lanes : Nat) : State :=
      ((v.modLane n (fun l => { l with link := .up, failReason := 0, trainedRate := rate, trainedLanes := lanes, candidates := [], retime := l.retime.map (fun r => { r with portUp := true }) })).raise
        (portStatus n) [0]).lineOff (16 + n)
    let begun (v : State) (k : SinkCaps) : State :=
      let t := v.modLane n (fun l => { l with sink := some k, psr := k.psr, selective := k.selective })
      let w := t.modLane n (fun l => { l with link := .training, candidates := v.candidatesFor n k })
      if v.candidatesFor n k = [] then failed t 4
      else if v.laneNum n 7 7 = 1 ∧ k.dsc = false then failed t 5
      else if v.capMismatch n k then w.raise (portStatus n) [8] else w
    let powered : State :=
      if (m.lane n).retime.isSome && !decide ((m.lane n).link = .waitingHpd) && decide (m.laneNum n 1 0xB ≠ 0) then m.send (.panelOn n (m.laneNum n 1 0xB)) else m
    (m.edpReady n = true →
      (∀ sink, (m.lane n).hpd = false → exec (.edpBringup dt n sink) s = .next (powered.modLane n (fun l => { l with link := .waitingHpd }))) ∧
      ((m.lane n).hpd = true → exec (.edpBringup dt n none) s = .next (failed powered 2)) ∧
      (∀ k, (m.lane n).hpd = true → exec (.edpBringup dt n (some k)) s = .next (begun powered k))) ∧
    (m.awake = true → (m.lane n).link = .training → ∀ rate lanes rest, (m.lane n).candidates = (rate, lanes) :: rest →
      exec (.linkTrainingAttempt dt n true) s = .next (up m rate lanes) ∧
      (rest = [] → exec (.linkTrainingAttempt dt n false) s = .next (failed m 3)) ∧
      (rest ≠ [] → exec (.linkTrainingAttempt dt n false) s = .next (m.modLane n (fun l => { l with candidates := rest })))) ∧
    (u.awake = true → (u.lane n).link = .waitingHpd → (u.lane n).hpd = false → exec (.hpdTimeout dt n) s = .next (failed u 1)) ∧
    (u.awake = true → u.laneNum n 7 1 = 0 →
      exec (.hpdRise dt n) s = .next (u.modLane n (fun l =>
        { l with hpd := true, link := if u.isEdp n ∧ (l.link = .off ∨ l.link = .failed) then .waitingHpd else l.link })) ∧
      ((u.lane n).hpd = true → u.isEdp n = true → exec (.hpdUnplug dt n) s = .next
        (((((u.modLane n (fun l => { l with hpd := false, link := .off, trainedRate := 0, trainedLanes := 0, candidates := [] })).raise
          (portStatus n) [3]).raise (portStatus n) [2]).lineOn (16 + n) n).send (.portOff n))) ∧
      ((u.lane n).hpd = true → u.isEdp n = false → exec (.hpdUnplug dt n) s = .next (u.modLane n (fun l => { l with hpd := false })))) ∧
    (u.awake = true → u.isEdp n = true →
      let pulsed := u.raise (portStatus n) [4]
      let lost := (pulsed.raise (portStatus n) [2]).lineOn (16 + n) n
      exec (.hpdIrq dt n false) s = .next pulsed ∧
      ((u.lane n).link ≠ .up → (u.lane n).link ≠ .lowPower → exec (.hpdIrq dt n true) s = .next pulsed) ∧
      ((u.lane n).link = .up ∨ (u.lane n).link = .lowPower →
        ((u.lane n).sink = none → exec (.hpdIrq dt n true) s = .next (failed lost 2)) ∧
        (∀ k, (u.lane n).sink = some k → exec (.hpdIrq dt n true) s = .next (begun lost k))))

/-- DSI ports and the backlight: bring-up powers the panel, idles the port, sends the panel's first 64 packets and, with DSC, the compression mode,
deskews the lanes where their rate asks for it, and the link is up; the frame waits for its TE edge; a queued packet is sent, its turnaround kept
and its error report raised; a PWM period takes the settings in effect and, where the pin is not held low, drives them (08 R203, R208 to R210,
R213). Bring-up and the TE edge are met after what was due on the lane. -/
def Obligations.DsiPortsAndBacklight : Prop :=
  ∀ (dt n : Nat) (s : State), n < 8 →
    let u := s.tick dt
    let m := s.meet dt n
    (∀ e, m.dsiReady n = true →
      let cmds := ((m.panelInit.filter (fun p => decide (p.1 = n))).take 64).map Prod.snd
      let powered : State :=
        if (m.lane n).retime.isSome && !decide ((m.lane n).link = .waitingHpd) && decide (m.laneNum n 1 0xB ≠ 0) then m.send (.panelOn n (m.laneNum n 1 0xB)) else m
      let v := cmds.foldl (fun x p => x.send (.dsiPacket n p)) (powered.send (.portIdle n))
      let w := (((if e then v.raise (portStatus n) [9] else v).compressionMode n).initialDeskew n).modLane n (fun l =>
        { l with psr := m.commandMode n, selective := m.commandMode n })
      exec (.dsiBringup dt n e) s = .next (((w.modLane n (fun l =>
        { l with link := .up, failReason := 0, trainedRate := 0, trainedLanes := m.laneNum n 7 2, candidates := [], retime := l.retime.map (fun r => { r with portUp := true }) })).raise
          (portStatus n) [0]).lineOff (16 + n))) ∧
    (∀ rising, m.teReady n rising = true → exec (.teEdge dt n rising) s = .next (m.modLane n (fun l => { l with teSeen := true }))) ∧
    (u.awake = true → u.laneNum n 7 1 ≠ 0 → (u.lane n).link = .up ∨ (u.lane n).link = .lowPower → ∀ p, (u.lane n).dsiCmd = some p →
      let v := (u.modLane n (fun l => { l with dsiCmd := none })).send (.dsiPacket n p)
      (∀ a, bitOf ((p.getD 1 0).toNat) 0 = false ∨ a = none → exec (.dsiCmdSend dt n a) s = .next v) ∧
      (∀ b, bitOf ((p.getD 1 0).toNat) 0 = true →
        (b.head? = some 2 → exec (.dsiCmdSend dt n (some b)) s = .next ((v.modLane n (fun l => { l with dsiRsp := b })).raise (portStatus n) [9])) ∧
        (b.head? ≠ some 2 → exec (.dsiCmdSend dt n (some b)) s = .next (v.modLane n (fun l => { l with dsiRsp := b }))))) ∧
    (u.awake = true → u.domainOn (64 + n) = true →
      let t := u.modLane n (fun l => { l with blPeriod := u.laneNum n 7 0xD, blDuty := u.laneNum n 7 0xE, blInvert := bitOf (u.laneNum n 7 0xF) 1 })
      ((u.lane n).blLow = true → exec (.blpwmPeriodStart dt n) s = .next t) ∧
      ((u.lane n).blLow = false → exec (.blpwmPeriodStart dt n) s =
        .next (t.send (.pwm n (u.laneNum n 7 0xD * 1000) (t.lane n).pwmHigh (bitOf (u.laneNum n 7 0xF) 1)))))

/-- Pixel clocks and their references: lock tunes the synthesizer on the reference in use, restarts a gated lane and raises relock; loss of lock gates
the lane, idles its port and is that lane's umpire source; a window of the monitor judges the primary by its own count and the reference in use by
its own: within ±200 ppm it is good, to ±500 ppm it is warned of, beyond that and at a gross failure the device fails over and gates the lanes that
ran on it; a restore goes back to a good primary at the end of each lane's active lines and is refused else (08 R214 to R223). Lock and its loss are
met after what was due on the lane; a window with the watch oscillator as the reference is judged by that oscillator alone. -/
def Obligations.PixelClocks : Prop :=
  ∀ (dt n : Nat) (s : State),
    let u := s.tick dt
    let m := s.meet dt n
    (n < 8 → m.awake = true → m.lockReady n = true →
      let ref := if (m.lane n).mode = .limp ∧ m.modes.mode = .limp then 2 else m.clocks.active
      let (p, i, f) := synthOf (m.fRef ref) (m.laneNum n 1 8)
      let t := (m.modLane n (fun l => { l with synthRef := ref, synthP := p, synthN := i, synthF := f })).modLane n (fun k =>
        { k with locked := true, gated := false, porchSince := some m.now, tracking := false, trackOffset := 0, trackBeyond := false,
                 lastPixel := 0xC000_0000, stalls := [], lost := [] })
      exec (.pclkLock dt n) s = .next (if (m.lane n).gated && !((m.lane n).retime).any (fun r => r.enabling) then t.raise (portStatus n) [7] else t)) ∧
    (n < 8 → m.awake = true → m.clockRuns n = true →
      let t := (m.modLane n (fun l =>
        { l with gated := true, locked := false, tracking := false, evaluated := false, sStart := none, dueGate := false, genlockAligned := false,
                 heldLine := m.lineNow n, porchExtended := false, frameDue := false })).send (.portIdle n)
      exec (.pclkUnlock dt n) s = .next (((((((t.closeAll n).abandonWriteback n).loseGroup n)).raise (portStatus n) [6]).occur (8 + n) n))) ∧
    (u.awake = true → u.clocks.xtal32Failed = false → ∀ primary active hz : Nat,
      let near (x d : Nat) : Prop := 25_000_000 ≤ x + d ∧ x ≤ 25_000_000 + d
      let seen := if u.clocks.active = 0 then primary else active
      let j (good : Bool) : State := u.modClocks (fun c => { c with drift := (primary : Int) - 25_000_000, primaryGood := good && !c.grossBad, grossBad := false })
      let watch (v : State) : State := (v.modClocks (fun c => { c with watchHz := hz, watchBad := false })).lineOff 38
      let unwatched (v : State) : State := ((v.modClocks (fun c => { c with watchHz := hz, watchBad := true })).raise refStatus [3]).lineOn 38 0
      ∀ good, (good = true ↔ near primary 5_000) →
        let off := ((j good).raise refStatus [0]).lineOn 36 0
        (u.clocks.active ≠ 2 → 48_500_000 ≤ hz → hz ≤ 51_500_000 →
          (near seen 5_000 → exec (.refMonitorWindow dt ⟨primary, active⟩ hz) s = .next (watch ((j good).lineOff 36))) ∧
          (¬ near seen 5_000 → near seen 12_500 → exec (.refMonitorWindow dt ⟨primary, active⟩ hz) s = .next (off.judgeWatch hz))) ∧
        (u.clocks.active ≠ 2 → near seen 5_000 → hz < 48_500_000 ∨ 51_500_000 < hz →
          exec (.refMonitorWindow dt ⟨primary, active⟩ hz) s = .next (unwatched ((j good).lineOff 36))) ∧
        (u.clocks.active ≠ 2 → ¬ near seen 12_500 → exec (.refMonitorWindow dt ⟨primary, active⟩ hz) s =
          .next ((((((off.raise refStatus [1]).occur 37 off.clocks.active)).modClocks (fun c => { c with active := off.nextRef })).unlockAll).judgeWatch hz)) ∧
        (u.clocks.active = 2 → exec (.refMonitorWindow dt ⟨primary, active⟩ hz) s = .next ((j good).judgeWatch hz))) ∧
    (u.awake = true → u.clocks.active ≠ 2 →
      let t := u.raise refStatus [2]
      let g := if u.clocks.active = 0 then t.modClocks (fun c => { c with grossBad := true, primaryGood := false }) else t
      exec (.grossLoss dt) s = .next ((((g.raise refStatus [1]).occur 37 g.clocks.active).modClocks (fun c => { c with active := g.nextRef })).unlockAll)) ∧
    (u.awake = true → u.clocks.primaryGood = false → exec (.refRestore dt) s = .next (u.raise refStatus [6])) ∧
    (u.awake = true → u.clocks.primaryGood = true → exec (.refRestore dt) s = .next
      ((List.range 8).foldl (fun v k =>
        if !v.clockRuns k || v.limpLocked k || decide ((v.lane k).synthRef = 0) then v
        else if (v.lane k).retime.any (fun r => !r.f0) then v.modLane k (fun l => { l with locked := !l.retime.any (fun r => r.idle && !r.f0) })
        else v.modLane k (fun l => { l with dueGate := true })) (u.modClocks (fun c => { c with active := 0, noRef := false }))))

/-- Camera packets and lines: an uncorrectable header is counted, raised and the port's umpire source, and its packet is not used; a corrected one is
counted and its packet used; an unexpected data type is dropped and counted, one of format 0x12 is left aside; a line goes to every open frame of its
virtual channel and format, with a CRC error counted and raised; a frame start too soon after the last is dropped, and else opens a frame in a free
place of its ring; a frame end closes a short frame as one, counted and told to forwarding, and publishes a whole one; a received line is landed and
paces its request line; a stream without frames for 4 periods is lost (07 R176, 09 R232, R233, R236, R239, R244). -/
def Obligations.CameraPackets : Prop :=
  ∀ (dt p vc v line : Nat) (s : State), p < 8 → vc < 16 → v < 4 →
    let u := s.tick dt
    let k := p * 4 + v
    (u.camReady p = true →
      let counted := u.modCam p (fun c => { c with headerCorrected := c.headerCorrected + 1 })
      let lost := ((u.modCam p (fun c => { c with headerErrors := c.headerErrors + 1 })).raise (camStatus p) [5]).occur (24 + p) p
      exec (.csiFrameStart dt p ⟨vc, 2⟩) s = .next lost ∧ (∀ ty e xs, exec (.csiLongPacket dt p vc ty 2 e xs) s = .next lost) ∧
      exec (.csiFrameEnd dt p ⟨vc, 2⟩) s = .next lost ∧
      (∀ h w, (h = 0 ∧ w = u) ∨ (h = 1 ∧ w = counted) →
        exec (.csiFrameStart dt p ⟨vc, h⟩) s = .next ((w.slotsAt p vc).foldl State.startFrame w) ∧
        (∀ e xs, exec (.csiLongPacket dt p vc 0x12 h e xs) s = .next w) ∧
        (∀ ty e xs, ty ≠ 0x12 → formatOfType ty = none → exec (.csiLongPacket dt p vc ty h e xs) s =
          .next ((w.modCam p (fun c => { c with dtDrops := c.dtDrops + 1 })).raise (camStatus p) [6])) ∧
        (∀ ty xs f e, formatOfType ty = some f →
          let x := if e then (w.modCam p (fun c => { c with crcErrors := c.crcErrors + 1 })).raise (camStatus p) [4] else w
          exec (.csiLongPacket dt p vc ty h e xs) s =
            .next (((x.slotsAt p vc).filter (fun i => decide (x.slotNum i 3 = f))).foldl (fun t i => t.takeLine e xs i) x)) ∧
        exec (.csiFrameEnd dt p ⟨vc, h⟩) s = .next ((w.slotsAt p vc).foldl (fun t i => if (t.slot i).isOpen then t.endFrame i false else t) w) ∧
        (∀ i, w.slotsAt p vc = [i] → (w.slot i).isOpen = false →
          let r := (w.setRing i).modSlot i (fun q => { q with processing := w.processingOf i })
          let x := r.modSlot i (fun q => { q with startedAt := some w.now, mode := .streaming })
          let y := x.modSlot i (fun q =>
            { q with isOpen := true, crc := false, long := false, linesReceived := 0, landed := 0, lineStartAt := none, lineSum := 0,
                     ringBase := q.ringPos, frameSlot := ((x.slot i).freeSlot).getD 0, starts := q.starts + 1,
                     filled := if q.ring % 4 = 0 then q.filled else tabSet q.filled (((x.slot i).freeSlot).getD 0) (q.starts + 1) })
          (r.tooSoon i = true → exec (.csiFrameStart dt p ⟨vc, h⟩) s =
            .next ((r.count (camCount (i / 4) 8) 1).raise (camStatus (i / 4)) [3])) ∧
          (r.tooSoon i = false → (x.slot i).ring % 4 = 0 ∨ (x.slot i).freeSlot ≠ none →
            exec (.csiFrameStart dt p ⟨vc, h⟩) s = .next ((y.lockSeekers (w.slotNum i 1)).foldl State.scheduleLane (y.fwdFrame i)))) ∧
        (∀ i, w.slotsAt p vc = [i] → (w.slot i).isOpen = true → (w.slot i).linesReceived < 2 → (w.slot i).linesReceived < w.streamH i →
          let r := ((w.modSlot i (fun q => { q with isOpen := false, lastFlags := 1 + 2 * b2n q.long + 4 * b2n q.crc })).count (camCount (i / 4) 0x10) 1).raise
            (camStatus (i / 4)) [1]
          exec (.csiFrameEnd dt p ⟨vc, h⟩) s = .next (((w.lockedTo (w.slotNum i 1)).foldl State.cutLane (r.occur (24 + i / 4) (i / 4))).fwdFail i (w.slot i).starts 1)))) ∧
    (u.landReady k line = true → ¬ (u.fwdOn k = true ∧ u.processed k = true) →
      let t := u.modSlot k (fun q => { q with landed := line + 1 })
      let pulses := ceilDiv (u.ringLine k) 4096
      exec (.lineLanded dt p v line) s =
        .next ((if u.lineDone k then (List.range pulses).foldl (fun w _ => w.pulse (k / 4)) t else t).fwdRequest k (u.slot k).starts pulses)) ∧
    (u.landReady k line = true → u.fwdOn k = true → u.processed k = true →
      exec (.lineLanded dt p v line) s = .next ((u.modSlot k (fun q => { q with landed := line + 1 })).releaseBands k line)) ∧
    (u.lostReady k = true → exec (.streamLost dt p v) s =
      .next (((u.modSlot k (fun q => { q with mode := .lost })).raise (camStatus p) [8]).occur (24 + p) p))

/-- Managed forwarding: a band whose processing is 31 line periods late is skipped, and its frame is lost once with cause 3, counted, raised and posted
to its crew; a processed line is put into its ring, pulses its request line and paces the channel; the oldest frame, when it is wholly in memory, is
counted and posted with its buffer, unless a band of it was skipped, and leaves its place to the next (09 R247, R248). -/
def Obligations.ManagedForwarding : Prop :=
  ∀ (dt p v : Nat) (s : State), p < 8 → v < 4 →
    let u := s.tick dt
    let k := p * 4 + v
    (∀ band e, u.awake = true → u.lateBand k band = some e →
      let t := u.modSlot k (fun q => q.modFwd e.frame (fun x =>
        { x with bands := x.bands.filter (fun y => y.1 != band), skipped := band :: x.skipped, spoiled := true }))
      (e.spoiled = true ∨ u.crewEnabled (u.fwdNum k 3) = false → exec (.bandAbandoned dt p v band) s = .next t) ∧
      (e.spoiled = false → u.crewEnabled (u.fwdNum k 3) = true → exec (.bandAbandoned dt p v band) s =
        .next (((t.modSlot k (fun q => { q with fwdIncomplete := q.fwdIncomplete + 1 })).raise (camStatus p) [10]).fwdPost k 0x12 3))) ∧
    (∀ e b i t0, u.awake = true → u.nextProcessed k = some (e, b, i, t0) →
      let t := u.modSlot k (fun q =>
        { q with ringLines := tabSet q.ringLines (processedKey (32 * b + i)) (u.processedLine k e (32 * b + i)) }.modFwd e.frame (fun x =>
          { x with bands := if u.bandLines k b ≤ i + 1 then x.bands.drop 1 else (b, i + 1, t0) :: x.bands.drop 1 }))
      let w := if u.lineDone k then (List.range (u.fwdPulses k)).foldl (fun x _ => x.pulse p) t else t
      exec (.processedLineSignal dt p v) s = .next (w.fwdRequest k e.frame (u.fwdPulses k))) ∧
    (∀ e rest, u.awake = true → u.fwdComplete k = true → (u.slot k).fwd = e :: rest →
      let t := (u.modSlot k (fun q => { q with fwdFrames := q.fwdFrames + 1 })).fwdPost k 0x11 ((u.slot k).fwdFrames % (max 1 (u.fwdNum k 8)))
      (u.crewEnabled (u.fwdNum k 3) = true → e.spoiled = false → exec (.forwardDone dt p v) s = .next (t.fwdDrop k e.frame)) ∧
      (u.crewEnabled (u.fwdNum k 3) = false ∨ e.spoiled = true → exec (.forwardDone dt p v) s = .next (u.fwdDrop k e.frame)))

/-- Blits: with the right to blit, a refused drawing posts its item's error; one that writes nothing is complete at once, and posts its event only
where it asks for it; one that draws holds the crew's later items, with its blocks to write and its place among the crews that share blade time;
without the right the item ends with reason 5. A blit whose time has been given writes its remaining blocks, posts BLIT_DONE where it was asked for,
or BLIT_FAULT where one failed, and frees its crew's queue (06 R162, 10 R254, R255, R257, R263, R264). -/
def Obligations.BlitItems : Prop :=
  ∀ (dt crew : Nat) (s : State),
    let u := s.tick dt
    let i := u.head crew
    let cookie := cookieOf (i.word 0)
    let notify := bitOf (i.word 0) 55
    let after (v : State) (c : Instr) (d : Except Abort Drawing) : Prop :=
      let t := v.modCrew crew (fun k => { k with cq := k.cq.drop 1 })
      (u.crewRight crew 4 = false → exec c s = .next (t.post crew (eventWord 0x0A 0xF 5 cookie 0))) ∧
      (u.crewRight crew 4 = true → ∀ a, d = .error a → exec c s = .next (t.post crew (eventWord 0x0A 0xF a.reason cookie 0))) ∧
      (u.crewRight crew 4 = true → ∀ g, d = .ok g → g.blocks = [] →
        exec c s = .next (if notify then t.post crew (eventWord 0x13 0xF 0 cookie 0) else t)) ∧
      (u.crewRight crew 4 = true → ∀ g, d = .ok g → g.blocks ≠ [] →
        let run : BlitRun := { notify := notify, cookie := cookie, item := i, fill := u.free, left := g.blocks, clocks := g.cost, granted := 0, blocks := 0,
                               faulted := false, aperture := u.aperture, hostMem := u.hostMem }
        exec c s = .next ((t.modCrew crew (fun k => { k with holding := .blit run })).shareBlits))
    (u.headIs crew 0x10 = true → after u (.fill dt crew) (u.fillDrawing crew i)) ∧
    (u.headIs crew 0x11 = true → after u (.copy dt crew) (u.copyDrawing crew i)) ∧
    (u.headIs crew 0x12 = true → (surfOf (i.word 3) (i.word 4)).fmt ≠ 0x22 → after u (.blendCopy dt crew) (u.blendCopyDrawing crew i u.free)) ∧
    (u.headIs crew 0x12 = true → (surfOf (i.word 3) (i.word 4)).fmt = 0x22 →
      after { u with freeCount := u.freeCount + 1 } (.blendCopy dt crew) (u.blendCopyDrawing crew i u.free)) ∧
    (u.headIs crew 0x13 = true → after u (.rect dt crew) (u.rectDrawing crew i)) ∧
    (u.headIs crew 0x14 = true → after u (.line dt crew) (u.lineDrawing crew i)) ∧
    (u.headIs crew 0x15 = true → after u (.glyph dt crew) (u.glyphDrawing crew i)) ∧
    (∀ r0 r, u.running = true → (u.crew crew).holding = .blit r0 → r0.left.length ≤ r0.granted ∨ u.heatsRun = false →
      let t := u.blitWrite crew r0.left.length
      (t.crew crew).holding = .blit r →
      let w := t.modCrew crew (fun x => { x with holding := .idle })
      exec (.blitDone dt crew) s = .next (if r.faulted = true ∨ r.notify = true then
        w.post crew (eventWord (if r.faulted then 0x14 else 0x13) 0xF 0 r.cookie r.blocks) else w))

/-- Programs and pins: PROGRAM_SET with the right queues its block's reading and without it posts reason 5; a ninth program posts reason 2, a handle that
is not the crew's, an unreadable unit or a block that is not right reason 1, and a right one is installed under its handle, or beside the program
that it replaces, staged for its lane and posted; PROGRAM_DELETE frees a handle of the crew that no layer names; PIN stages a pin of the crew's
own layer, or of crew 0 a region's, and posts its refusal else (05 R122, R126, 06 R155, R156, 11 R309). -/
def Obligations.ProgramAndPinItems : Prop :=
  ∀ (dt crew : Nat) (s : State),
    let u := s.tick dt
    let v := u.modCrew crew (fun k => { k with cq := k.cq.drop 1 })
    let w := (u.head crew).word 0
    let others (h : Nat) (l : List Staged) : List Staged :=
      l.filter (fun (e : Staged) => match e with | .program x _ => decide (x % 0x1_0000 ≠ h) | _ => true)
    (u.headIs crew 0x07 = true →
      (u.crewRight crew 5 = false → exec (.programSet dt crew) s = .next (v.post crew (eventWord 0x0B 0xF 5 (cookieOf w) 0xFFFF_FFFF))) ∧
      (u.crewRight crew 5 = true → exec (.programSet dt crew) s = .next (v.modCrew crew (fun k => { k with installing := k.installing ++
        [ProgramReq.mk (bits w 54 52) (bits w 47 32) ((u.head crew).word 1) ((u.head crew).word 2) (cookieOf w)] })))) ∧
    (∀ r rest, u.running = true → (u.crew crew).installing = r :: rest →
      let t := u.modCrew crew (fun k => { k with installing := rest })
      let refused (x : State) (reason : Nat) : State := x.post crew (eventWord 0x0B 0xF reason r.cookie 0xFFFF_FFFF)
      let h := if r.replace = 0 then u.freeHandle else r.replace
      let key := if r.replace = 0 then h else pendingProgram h
      (r.replace = 0 → 8 ≤ (u.handlesOf crew).length → exec (.programReady dt crew) s = .next (refused t 2)) ∧
      (r.replace ≠ 0 → r.replace ∉ u.handlesOf crew → exec (.programReady dt crew) s = .next (refused t 1)) ∧
      ((r.replace = 0 → (u.handlesOf crew).length < 8) → (r.replace ≠ 0 → r.replace ∈ u.handlesOf crew) →
        (∀ b, u.badBlock crew r = some b → exec (.programReady dt crew) s = .next (refused (t.unitError b.1 b.2) 1)) ∧
        (u.badBlock crew r = none → u.readProgram crew r = none → exec (.programReady dt crew) s = .next (refused t 1)) ∧
        (∀ p, u.badBlock crew r = none → u.readProgram crew r = some p →
          exec (.programReady dt crew) s = .next ((({ t with programs := tabSet t.programs key p }).modCrew crew (fun k =>
            { k with staged := others h k.staged ++ [Staged.program key r.lane] })).post crew (eventWord 0x0B 0xF 0 r.cookie h))))) ∧
    (u.headIs crew 0x08 = true → let h := bits w 47 32
      (h ∉ u.handlesOf crew ∨ (∃ p ∈ u.layers, p.2.owner.isSome = true ∧ u.lyr p.1 0x1C = h) →
        exec (.programDelete dt crew) s = .next (v.post crew (eventWord 0x0A 0xF 1 (cookieOf w) 0))) ∧
      (h ∈ u.handlesOf crew → (∀ p ∈ u.layers, p.2.owner.isSome = true → u.lyr p.1 0x1C ≠ h) → exec (.programDelete dt crew) s =
        .next (({ v with programs := v.programs.filter (fun p => decide (p.1 % 0x1_0000 ≠ h)) }).modCrew crew (fun k => { k with staged := others h k.staged })))) ∧
    (u.headIs crew 0x09 = true →
      let refused (reason : Nat) : State := v.post crew (eventWord 0x0A 0xF reason (cookieOf w) 0)
      let mine := u.crewRight crew 6 = true ∧ (u.layer (layerField w)).owner = some crew
      let place := bits w 51 48 ≤ 2 ∨ bits w 51 48 = 0xF
      let x := (u.head crew).word 1
      (bits w 55 52 = 1 → mine → place → exec (.pin dt crew) s = .next (v.modCrew crew (fun k =>
        { k with staged := k.staged.filter (fun (e : Staged) => match e with | .surfacePin y _ => decide (y ≠ layerField w) | _ => true) ++
                             [.surfacePin (layerField w) (bits w 51 48)] }))) ∧
      (bits w 55 52 = 1 → ¬ mine → exec (.pin dt crew) s = .next (refused 5)) ∧
      (bits w 55 52 = 1 → mine → ¬ place → exec (.pin dt crew) s = .next (refused 7)) ∧
      (bits w 55 52 = 2 → u.crewRight crew 6 = true ∧ crew = 0 → exec (.pin dt crew) s = .next (v.modCrew crew (fun k =>
        { k with staged := k.staged ++ [.regionPin (bits x 50 48) (bits x 47 40) (bits x 39 32) (bits x 15 0)] }))) ∧
      (bits w 55 52 = 2 → ¬ (u.crewRight crew 6 = true ∧ crew = 0) → exec (.pin dt crew) s = .next (refused 5)) ∧
      (bits w 55 52 ≠ 1 → bits w 55 52 ≠ 2 → exec (.pin dt crew) s = .next (refused 7)))

/-- Writeback, residences, shedding, self-tests and scrubbing: a writeback written whole is counted, posted and pulses its line; an abandoned one has
written part of its buffer, is counted and posts its event; a copied surface lives in its new memory; the 1 ms evaluation runs over the eleven
resources; a shell's self-test starts on the shell that is due; a failed shell is removed, raised and its umpire source; a scrub counts its corrected
units, tells the uncorrectable ones, and sets its channel's repair where one is bad, or 16 were corrected within a second, until a clean pass ends
it; a self-test request is deferred to the next LAUNCH, and in LAUNCH is asked of it (05 R138, R139, 06 R142, R165, R168 to R170). -/
def Obligations.PlanUpkeep : Prop :=
  ∀ (dt n : Nat) (s : State), n < 8 →
    let u := s.tick dt
    (∀ c, u.running = true → (u.lane n).wbActive = true → (u.lane n).wbOwner = some c →
      (∀ t, u.writeRuns c (decide (u.laneNum n 5 4 = 1)) 5 n (u.wbRuns n) = (t, true) → exec (.writebackDone dt n) s =
        .next (((t.modLane n (fun l => { l with wbActive := false, wbFrames := l.wbFrames + 1 })).post c
          (eventWord 0x0C n ((u.lane n).wbFrames % (max 1 (u.laneNum n 5 0xA))) 0 (u.frame n))).pulse (8 + n))) ∧
      (let runs := (u.wbRuns n).take (Config.freeValue u.freeCount % ((u.wbRuns n).length + 1))
       let t := (({ u with freeCount := u.freeCount + 1 } : State).writeRuns c (decide (u.laneNum n 5 4 = 1)) 5 n runs).1
       (t.lane n).wbOwner = some c → exec (.writebackAbandoned dt n) s =
         .next ((t.modLane n (fun l => { l with wbActive := false, wbAbandoned := l.wbAbandoned + 1 })).post c (eventWord 0xD n 0 0 0)))) ∧
    (∀ l d, u.coxUp = true → (u.layer l).copying = some d → u.copyHeld l = false →
      (d ≠ 3 → exec (.residenceCopyDone dt l) s = .next (u.modLayer l (fun k => { k with residence := d, copying := none }))) ∧
      (d = 3 → exec (.residenceCopyDone dt l) s = .next ((u.prefetchLayer u l true []).modLayer l (fun k => { k with residence := d, copying := none })))) ∧
    (u.running = true → exec (.shedEvaluation dt) s = .next ((List.range 11).foldl (fun t r => (t.shedEntry r).shedExit r) u)) ∧
    (u.shellReady = true → ∃ i, u.shellDue = some i ∧ exec (.shellSelftestStart dt) s = .next (u.modPlacement (fun p => { p with shellTest := some i }))) ∧
    (∀ i, u.coxUp = true → u.placement.shellTest = some i →
      let t := u.modPlacement (fun p => { p with shellTest := none, nextShell := (i + 1) % 16, lastShellTest := tabSet p.lastShellTest i u.now })
      exec (.shellSelftestEnd dt true) s = .next t ∧
      exec (.shellSelftestEnd dt false) s =
        .next ((((t.modPlacement (fun p => { p with shellOk := p.shellOk &&& (0xFFFF ^^^ 2 ^ i) })).raise coxStatus [5]).occur (96 + i) i).followShells)) ∧
    (∀ lp5 fixed bad, u.coxUp = true →
      let a := if fixed = [] then u else (u.count (if lp5 then 0x50 else 0x48) fixed.length).modPlacement (fun p =>
        { p with corrections := (p.corrections.filter (fun c => decide (u.now < c.2 + 1_000_000_000))) ++
                                (List.range fixed.length).map (fun _ => (scrubKey lp5 n, u.now)) })
      let b := (bad.foldl (fun t x => t.occur ((if lp5 then 120 else 112) + n) x) a).modPlacement (fun p =>
        { p with badUnits := p.badUnits.filter (fun x => !(decide (x % 2 = b2n lp5) && decide (bits (x / 2) 10 8 = n))) ++ bad.map (badUnit lp5) })
      let many := 16 ≤ b.placement.corrections.countP (fun c => decide (c.1 = scrubKey lp5 n) && decide (u.now < c.2 + 1_000_000_000))
      (bad ≠ [] ∨ many → exec (.scrubPass dt lp5 n fixed bad) s = .next (b.setRepair lp5 n true)) ∧
      (bad = [] → ¬ many → fixed ≠ [] → exec (.scrubPass dt lp5 n fixed bad) s = .next b) ∧
      (bad = [] → ¬ many → fixed = [] → exec (.scrubPass dt lp5 n fixed bad) s = .next (b.setRepair lp5 n false))) ∧
    (u.coxUp = true → ∀ dual v, dual = false ∨ v.toNat = 1 →
      (u.modes.mode ≠ .launch → exec (.selftestRequest dt dual v) s = .next ((u.modModes (fun m => { m with selftestAsked := true, selftest := 2 })).raise coxStatus [6])) ∧
      (u.modes.mode = .launch → u.planBuilt = true → exec (.selftestRequest dt dual v) s =
        .next (u.modModes (fun m => { m with selftestAsked := true, selftest := 1, step := .planned }))) ∧
      (u.modes.mode = .launch → u.planBuilt = false → exec (.selftestRequest dt dual v) s = .next (u.modModes (fun m => { m with selftestAsked := true })))) ∧
    (∀ v, u.coxUp = true → v.toNat ≠ 1 → exec (.selftestRequest dt true v) s = .next u)

/-- The controls of a mover channel, written alone by its owner or by the cox: start of an idle or failed channel runs its transfer or reports its
error, start of any other is refused; resume continues a channel that the stop or a translation error ended, and is refused of any other; abort
makes it idle with error 6 and drops its requests; a software request is counted, up to 15, and lost beyond (10 R271, R272, R281, R282). -/
def Obligations.MoverControls : Prop :=
  ∀ (dt k : Nat) (acc : Acc) (s : State), k < 64 →
    let u := s.tick dt
    let c := u.channel k
    lands u acc .move (k * 0x100 + 0x40) = true → c.managed = none →
      let t := u.modChannel k (fun x =>
        ({ x with err := 0, pending := 0, outer := 0, middle := 0, desc := 0, descWords := [], hops := 0, transfers := 0, inFlight := [], abandoned := 0 }).settled (u.chPaced k))
      let refused := u.raise (channelStatus k) [4]
      let dropped := u.modChannel k (fun x => { x with pending := 0, leftover := c.pending })
      (c.mode = .idle ∨ c.mode = .error → u.mover.stoppedAll = false →
        exec (.moverStart dt acc k) s = .next (if t.startError k = 0 then t else t.chError k (t.startError k))) ∧
      (c.mode = .running ∨ c.mode = .waiting ∨ c.mode = .stopped ∨ u.mover.stoppedAll = true → exec (.moverStart dt acc k) s = .next refused) ∧
      ((c.mode = .stopped ∧ u.mover.stoppedAll = false) ∨ (c.mode = .error ∧ c.err = 1) → exec (.moverResume dt acc k) s =
        .next (u.modChannel k (fun x => { (x.settled (u.chPaced k || x.managed.isSome)) with err := 0 }))) ∧
      (c.mode = .idle ∨ c.mode = .running ∨ c.mode = .waiting ∨ (c.mode = .error ∧ c.err ≠ 1) ∨ (c.mode = .stopped ∧ u.mover.stoppedAll = true) →
        exec (.moverResume dt acc k) s = .next refused) ∧
      (let idle := (if c.pending = 0 then dropped else dropped.raise (channelStatus k) [5]).modChannel k
         (fun x => { x with mode := .idle, err := 6, inFlight := [], abandoned := 0 })
       exec (.moverAbort dt acc k) s = .next (if c.mode = .idle then idle else (idle.chRaise k 2).movePost k 0x17 6)) ∧
      (c.mode = .running ∨ c.mode = .waiting → c.pending < 15 → exec (.moverSwReq dt acc k) s =
        .next (u.modChannel k (fun x => ({ x with pending := x.pending + 1 }).settled true))) ∧
      (c.mode = .stopped → c.pending < 15 → exec (.moverSwReq dt acc k) s = .next (u.modChannel k (fun x => { x with pending := x.pending + 1 }))) ∧
      (c.mode = .running ∨ c.mode = .waiting ∨ c.mode = .stopped → 15 ≤ c.pending → exec (.moverSwReq dt acc k) s = .next (u.raise (channelStatus k) [1]))

/-- The mover's work: a line's edge, or a software line, is a request of each paced raw channel on it; the channel that the mover serves next starts a
burst, or ends with its translation error, or meets the bus error of a memory or link that does not answer; bursts are committed in order; the next
descriptor is fetched within the hop limit; the first bus error stops every channel once its surviving bursts are complete, and a clear, or the
time of mover.auto_resume, ends the stop (10 R268 to R278, 11 R309). -/
def Obligations.MoverWork : Prop :=
  ∀ (dt k line : Nat) (acc : Acc) (v : Word) (s : State),
    let u := s.tick dt
    let cleared := (List.range 64).foldl (fun (w : State) i => if (w.channel i).managed.isSome ∧ (w.channel i).mode = .stopped then w.chResume i else w)
      ((u.modMover (fun m => { m with stoppedAll := false })).raise moveStatus [1])
    (u.awake = true → line < 64 → u.lineMapped line = true → exec (.requestEdge dt line) s = .next ((List.range 64).foldl (fun (t : State) i =>
      if t.chPaced i ∧ t.chLine i = line ∧ (t.channel i).managed.isNone then t.request i else t) u)) ∧
    (lands u acc .move 0xD4 = true → exec (.swLineWrite dt acc v) s =
      .next ((List.range 32).foldl (fun (t : State) i => if bitOf v.toNat i then t.pulse (32 + i) else t) u)) ∧
    (k < 64 → u.awake = true → u.moverNext = some k →
      (∀ j, (u.channel k).managed = some j → exec (.moverBurstStart dt k) s = .next (u.fwdBurst k j)) ∧
      ((u.channel k).managed = none →
        let taken := if u.chPaced k then u.modChannel k (fun x => { x with pending := x.pending - 1 }) else u
        let (o, m) := placeAfter (u.xfer k) (u.channel k) (u.channel k).inFlight.length
        let (src, dst) := u.elements k (u.xfer k) o m
        (u.chOwner k = none → exec (.moverBurstStart dt k) s = .next (taken.chError k 1)) ∧
        (∀ c, u.chOwner k = some c →
          (∀ t, taken.reachAll c (u.ws k) false k src = (t, false) → exec (.moverBurstStart dt k) s = .next (t.chError k 1)) ∧
          (∀ t, taken.reachAll c (u.ws k) false k src = (t, true) →
            (∀ w, t.reachAll c (u.wd k) true k dst = (w, false) → exec (.moverBurstStart dt k) s = .next (w.chError k 1)) ∧
            (∀ w, t.reachAll c (u.wd k) true k dst = (w, true) →
              (∀ e b, w.targetError c (u.ws k) k false src = some (e, b) → exec (.moverBurstStart dt k) s = .next (w.failAccess k e b)) ∧
              (w.targetError c (u.ws k) k false src = none → exec (.moverBurstStart dt k) s =
                .next ((w.modMover (fun m => { m with served := k })).modChannel k (fun x =>
                  ({ x with inFlight := x.inFlight ++ [w.makeBurst c k o m src dst] }).settled (u.chPaced k))))))))) ∧
    (k < 64 → u.awake = true → ∀ b rest, (u.channel k).inFlight = b :: rest →
      (∀ j, (u.channel k).managed = some j → exec (.moverBurstDone dt k) s = .next (u.fwdBurstDone k j)) ∧
      ((u.channel k).managed = none → u.writeFails k b = true → exec (.moverBurstDone dt k) s = .next (u.failWrite k b)) ∧
      ((u.channel k).managed = none → u.writeFails k b = false →
        let (o, m) := placeAfter (u.xfer k) (u.channel k) 1
        let t := ((u.commitBurst b).count (chanCount k) 1).modChannel k (fun x =>
          if x.mode = .running ∨ x.mode = .waiting then ({ x with inFlight := rest, outer := o, middle := m }).settled (u.chPaced k)
          else { x with inFlight := rest, outer := o, middle := m })
        exec (.moverBurstDone dt k) s = .next (if (u.xfer k).outer ≤ o then t.endTransfer k else t))) ∧
    (u.awake = true → u.fetchReady k = true →
      let a := u.nextDesc k
      let el := [(bitOf a 62, a % 2 ^ 62)]
      let at_ := u.modChannel k (fun x => { x with desc := a })
      (u.chReg k 0x3C ≤ (u.channel k).hops → exec (.descriptorFetch dt k) s = .next (at_.chainError k 3)) ∧
      ((u.channel k).hops < u.chReg k 0x3C → spaceOk a = false ∨ a % 32 ≠ 0 → exec (.descriptorFetch dt k) s = .next (at_.chainError k 5)) ∧
      ((u.channel k).hops < u.chReg k 0x3C → spaceOk a = true → a % 32 = 0 →
        (u.chOwner k = none → exec (.descriptorFetch dt k) s = .next (u.chError k 1)) ∧
        (∀ w, u.chOwner k = some w →
          (∀ t, u.reachAll w 32 false k el = (t, false) → exec (.descriptorFetch dt k) s = .next (t.chError k 1)) ∧
          (∀ t e b, u.reachAll w 32 false k el = (t, true) → t.targetError w 32 k false el = some (e, b) → exec (.descriptorFetch dt k) s =
            .next ((t.failAccess k e b).modChannel k (fun x => { x with abandoned := (u.channel k).abandoned }))) ∧
          (∀ t, u.reachAll w 32 false k el = (t, true) → t.targetError w 32 k false el = none →
            let word (i : Nat) : Nat := leNat (((el.flatMap (t.elementBytes w 32)).drop (8 * i)).take 8)
            let d := t.modChannel k (fun x =>
              { x with desc := a, hops := x.hops + 1, outer := 0, middle := 0, descWords := [word 0, word 1, word 2, word 3] })
            exec (.descriptorFetch dt k) s = .next (if bits (word 2) 63 50 ≠ 0 ∨ d.xferError k (d.xfer k) ≠ 0 then d.chainError k 5
              else d.modChannel k (fun x => x.settled (u.chPaced k))))))) ∧
    (∀ e complete, u.awake = true → u.mover.stopping = none → u.mover.stoppedAll = false →
      (∃ p ∈ u.channels, p.1 < 64 ∧ (p.2.inFlight ≠ [] ∨ u.fetchReady p.1 = true)) →
      exec (.moverBusError dt e complete) s = .next (((List.range 64).foldl (fun (t : State) i =>
        if (t.channel i).inFlight.isEmpty then t
        else
          let n := ((complete.find? (fun p => decide (p.1 = i))).map Prod.snd).getD 0
          t.modChannel i (fun x => { x with inFlight := x.inFlight.take n, abandoned := x.inFlight.length - (x.inFlight.take n).length })) u).modMover
          (fun m => { m with stopping := some e }))) ∧
    (∀ e, u.awake = true → u.mover.stopping = some e → (∀ i, i < 64 → (u.channel i).inFlight = []) →
      let hit := (List.range 64).filter (fun i => decide ((u.channel i).mode = .running ∨ (u.channel i).mode = .waiting))
      let stopped := hit.foldl (fun (t : State) i => (t.modChannel i (fun c =>
        { c with mode := .stopped, pending := if u.chPaced i ∨ c.managed.isSome then min 15 (c.pending + c.abandoned) else c.pending, abandoned := 0 })).raise
          (channelStatus i) [3]) (u.modMover (fun m =>
            { m with syndrome := syndromeOf e, errAddr := e.address, stopping := none, stoppedAll := true, stoppedAt := u.now }))
      exec (.allStopComplete dt) s = .next
        (hit.foldl (fun (t : State) i => t.movePost i 0x16 (u.counter (chanCount i) % 2 ^ 32)) ((stopped.raise moveStatus [0]).occur 44 e.address))) ∧
    (lands u acc .move 0xC4 = true →
      (u.mover.stoppedAll = false → exec (.stopClear dt acc) s = .next u) ∧
      (u.mover.stoppedAll = true → exec (.stopClear dt acc) s = .next cleared)) ∧
    (u.coxUp = true → u.mover.stoppedAll = true → 0 < u.num 0x2240 2 → u.mover.stoppedAt + u.num 0x2240 2 * 1_000_000 ≤ u.now →
      exec (.autoResume dt) s = .next cleared)

/-- The utility DMA: its controls are a channel's; its engine carries out the served channel's bursts in turn, or ends the channel with its
translation error, or stops it at a memory or link that does not answer; a bus error stops only the channel of the burst that failed
(10 R279, R280, R282). -/
def Obligations.UtilityDma : Prop :=
  ∀ (dt n : Nat) (acc : Acc) (s : State), n < 8 →
    let u := s.tick dt
    let k := 64 + n
    let c := u.channel k
    let failed (t : State) : State := ((t.modChannel k (fun x => { x with mode := .stopped, err := 7 })).chRaise k 2).chRaise k 3
    (lands u acc .udma (n * 0x100 + 0x40) = true → c.managed = none →
      let t := u.modChannel k (fun x =>
        ({ x with err := 0, pending := 0, outer := 0, middle := 0, desc := 0, descWords := [], hops := 0, transfers := 0, inFlight := [], abandoned := 0 }).settled (u.chPaced k))
      (c.mode = .idle ∨ c.mode = .error → exec (.udmaStart dt acc n) s = .next (if t.startError k = 0 then t else t.chError k (t.startError k))) ∧
      (c.mode = .stopped ∨ (c.mode = .error ∧ c.err = 1) → exec (.udmaResume dt acc n) s =
        .next (u.modChannel k (fun x => { (x.settled (u.chPaced k || x.managed.isSome)) with err := 0 }))) ∧
      (c.mode ≠ .idle → exec (.udmaAbort dt acc n) s = .next (((u.modChannel k (fun x =>
        { x with mode := .idle, err := 6, inFlight := [], abandoned := 0 })).chRaise k 2).movePost k 0x17 6))) ∧
    (u.awake = true → u.udmaNext = some k →
      let served := u.modMover (fun m => { m with udmaLast := n })
      let (o, m) := placeAfter (u.xfer k) c 0
      let (src, dst) := u.elements k (u.xfer k) o m
      (∀ t, served.reachAll 0 (u.ws k) false k src = (t, false) → exec (.udmaBurstDone dt) s = .next (t.chError k 1)) ∧
      (∀ t, served.reachAll 0 (u.ws k) false k src = (t, true) →
        (∀ w, t.reachAll 0 (u.wd k) true k dst = (w, false) → exec (.udmaBurstDone dt) s = .next (w.chError k 1)) ∧
        (∀ w, t.reachAll 0 (u.wd k) true k dst = (w, true) →
          (∀ e, w.targetError 0 (u.ws k) k false src = some (e, none) → exec (.udmaBurstDone dt) s = .next (failed w)) ∧
          (∀ e b, w.targetError 0 (u.ws k) k false src = some (e, some b) → exec (.udmaBurstDone dt) s = .next (failed (w.unitError b.1 b.2))) ∧
          (∀ e, w.targetError 0 (u.ws k) k false src = none → w.targetError 0 (u.wd k) k true dst = some e → exec (.udmaBurstDone dt) s = .next (failed w)) ∧
          (w.targetError 0 (u.ws k) k false src = none → w.targetError 0 (u.wd k) k true dst = none →
            let (o', m') := placeAfter (u.xfer k) c 1
            let x := (w.commitBurst (w.makeBurst 0 k o m src dst)).modChannel k (fun y => { y with outer := o', middle := m' })
            exec (.udmaBurstDone dt) s = .next (if (u.xfer k).outer ≤ o' then x.endTransfer k else x))))) ∧
    (∀ e : BusError, u.awake = true → e.channel % 8 = n → u.udmaRuns k = true → exec (.udmaBusError dt e) s = .next (failed u))

/-- A word pushed into an enabled crew's command queue is handled by its framing state, its tag and the queue's length, as the table of 11 R296 says:
appended, dropped and counted, or discarded and counted, with the open item marked malformed where the table marks it. -/
def Obligations.CommandQueueFraming : Prop :=
  ∀ (dt crew : Nat) (hi : Word) (s : State),
    let u := s.tick dt
    let k := u.crew crew
    let w := hi.toNat * 2 ^ 32 + k.pushLo
    let full := decide (128 ≤ (k.cq.map (fun i => i.words.length)).sum)
    let open_ := (k.cq.getLast?.map (fun i => i.words.length)).getD 0
    let drop (v : State) : State := (v.count (crewCount crew 0) 1).raiseCrew crew 3
    let discard (v : State) : State := (v.count (crewCount crew 8) 1).raiseCrew crew 4
    let marked := u.modCrew crew (fun x => { x with cq := x.cq.dropLast ++ (x.cq.getLast?.map (fun i => { i with malformed := true })).toList, inItem := false })
    let grown (last : Bool) := u.modCrew crew (fun x =>
      { x with cq := x.cq.dropLast ++ (x.cq.getLast?.map (fun i => { i with words := i.words ++ [bare w], closed := last })).toList, inItem := !last })
    let begun (closed : Bool) := u.modCrew crew (fun x => { x with cq := x.cq ++ [CqItem.mk [bare w] closed false], inItem := !closed })
    lands u (pageAcc crew 4) (.crew crew) 4 = true → u.crewEnabled crew = true →
      (k.inItem = false →
        (full = true → exec (.cqPush dt crew hi) s = .next (drop u)) ∧
        (full = false → tagOf w = 2 → exec (.cqPush dt crew hi) s = .next (begun false)) ∧
        (full = false → tagOf w = 3 → exec (.cqPush dt crew hi) s = .next (begun true)) ∧
        (full = false → tagOf w = 0 ∨ tagOf w = 1 → exec (.cqPush dt crew hi) s = .next (discard u))) ∧
      (k.inItem = true →
        (full = true → tagOf w = 0 ∨ tagOf w = 1 → exec (.cqPush dt crew hi) s = .next (drop marked)) ∧
        (full = false → open_ < 16 → tagOf w = 0 → exec (.cqPush dt crew hi) s = .next (grown false)) ∧
        (full = false → open_ < 16 → tagOf w = 1 → exec (.cqPush dt crew hi) s = .next (grown true)) ∧
        (full = false → 16 ≤ open_ → tagOf w = 0 ∨ tagOf w = 1 → exec (.cqPush dt crew hi) s = .next (discard marked)) ∧
        (full = true → tagOf w = 2 ∨ tagOf w = 3 → exec (.cqPush dt crew hi) s = .next (drop marked)) ∧
        (full = false → tagOf w = 2 ∨ tagOf w = 3 → exec (.cqPush dt crew hi) s = .next (marked.modCrew crew (fun x =>
          { x with cq := x.cq ++ [CqItem.mk [bare w] (decide (tagOf w = 3)) false], inItem := decide (tagOf w = 2) }))))

/-- Completion queue, flush, doorbell: a pop takes the oldest item, returns its low half and holds its high half; on an empty queue it waits, and
after 40 µs reads the empty word; arming a queue with items sends vector 0 at once; a flush empties the command queue and ends its
fence wait; a doorbell pulses line 16 + p
from the port's doorbell crew and is ignored, raised, from another (11 R299 to R303). -/
def Obligations.CompletionQueues : Prop :=
  ∀ (dt crew : Nat) (v : Word) (s : State),
    let u := s.tick dt
    let k := u.crew crew
    (u.accOpen (pageAcc crew 0x20) = true → k.popSince = none →
      (∀ w rest, k.eq = w :: rest → exec (.eqPop dt crew) s =
        .next ((u.modCrew crew (fun x => { x with eq := rest, eqPopHi := w / 2 ^ 32 })).send (.readData crew (w % 2 ^ 32)))) ∧
      (k.eq = [] → exec (.eqPop dt crew) s = .next (u.modCrew crew (fun x => { x with popSince := some u.now })))) ∧
    (∀ t, u.awake = true → k.popSince = some t → t + 40_000 ≤ u.now → exec (.eqPopTimeout dt crew) s =
      .next ((u.modCrew crew (fun x => { x with popSince := none, eqPopHi := 0 })).send (.readData crew 0x000F_FFFF))) ∧
    (lands u (pageAcc crew 0x30) (.crew crew) 0x30 = true →
      (bitOf v.toNat 0 = false → exec (.eqArm dt crew v) s = .next u) ∧
      (bitOf v.toNat 0 = true → k.eq = [] → exec (.eqArm dt crew v) s = .next (u.modCrew crew (fun x => { x with eqArmed := true }))) ∧
      (bitOf v.toNat 0 = true → k.eq ≠ [] → exec (.eqArm dt crew v) s =
        .next (((u.modCrew crew (fun x => { x with eqArmed := true })).modCrew crew (fun x => { x with eqArmed := false })).msix crew 0))) ∧
    (lands u (pageAcc crew 0xC) (.crew crew) 0xC = true → exec (.cqFlush dt crew) s = .next (u.modCrew crew (fun x =>
      { x with cq := [], inItem := false, holding := match x.holding with | .fenceWait _ _ _ _ _ => .idle | h => h }))) ∧
    (lands u (pageAcc crew 0x4C) (.crew crew) 0x4C = true →
      (u.reg ((Block.host (crew / 128)).base + 8) 0 % 128 = crew % 128 → exec (.doorbell dt crew) s = .next (u.pulse (16 + crew / 128))) ∧
      (u.reg ((Block.host (crew / 128)).base + 8) 0 % 128 ≠ crew % 128 → exec (.doorbell dt crew) s = .next (u.raiseCrew crew 5)))

/-- An event posted to an enabled crew's completion queue is appended after the others; at 256 items it is dropped, counted in CREW.EQ_DROPS and raises
eq_overflow; one for a disabled crew is dropped without a count (02 R23, 11 R300). No read of EQ_POP_LO waits. -/
def Obligations.CompletionQueueHolds256 : Prop :=
  ∀ (s : State) (c w : Nat), s.quiet = false → (s.crew c).popSince = none →
    (s.crewEnabled c = true → (s.crew c).eq.length < 256 → ((s.post c w).crew c).eq = (s.crew c).eq ++ [w] ∧ ((s.post c w).crew c).eqDrops = (s.crew c).eqDrops) ∧
    (s.crewEnabled c = true → 256 ≤ (s.crew c).eq.length → ((s.post c w).crew c).eq = (s.crew c).eq ∧
      ((s.post c w).crew c).eqDrops = (s.crew c).eqDrops + 1 ∧ ((s.post c w).statusAt (crewStatus c)).has 2 = true) ∧
    (s.crewEnabled c = false → s.post c w = s) ∧
    (∀ d, d ≠ c → (s.post c w).crew d = s.crew d)

/-- Host ports: PERST resets the link and the configuration space and is raised; its end leaves the port answering with retries until the port is ready;
a link that goes down or comes up is raised and moves the port's umpire source; a change of width or speed is raised; the functions on the bus change
with VF Enable and NumVFs, and their crews keep their state (11 R287, R289, R317, 06 R142). -/
def Obligations.HostPorts : Prop :=
  ∀ (dt p : Nat) (s : State), p < 4 →
    let u := s.tick dt
    let x := u.port p
    let down (v : State) : State :=
      let t := v.modPort p (fun y => { y with linkUp := false, l0 := false, lanes := 0, speed := 0, tags := 0 })
      ({ t with crews := t.crews.map (fun (e : Nat × Crew) => if e.1 / 128 = p then (e.1, { e.2 with popSince := none }) else e) }.raise
        (hostStatus p) [0]).lineOn (32 + p) p
    (u.awake = true → x.perst = false →
      let t := (u.modPort p (fun y => { y with perst := true, crs := false, vfEnable := false, numVfs := 0 })).raise (hostStatus p) [5]
      exec (.perstAssert dt p) s = .next (if x.linkUp then down t else t)) ∧
    (u.awake = true → x.perst = true → exec (.perstDeassert dt p) s = .next (u.modPort p (fun y => { y with perst := false, crs := true }))) ∧
    (u.configured = true → x.crs = true → x.perst = false → exec (.portReady dt p) s = .next (u.modPort p (fun y => { y with crs := false }))) ∧
    (u.awake = true → x.linkUp = true → exec (.hostLinkDown dt p) s = .next (down u)) ∧
    (∀ lanes speed, u.portUp p = true → x.linkUp = false → exec (.hostLinkUp dt p lanes speed) s =
      .next (((u.modPort p (fun y => { y with linkUp := true, l0 := true, lanes := lanes % 16, speed := speed % 8 })).raise (hostStatus p) [1]).lineOff (32 + p))) ∧
    (∀ lanes speed, u.awake = true → x.linkUp = true →
      let t := (u.modPort p (fun y => { y with lanes := lanes % 16, speed := speed % 8 })).raise (hostStatus p) [2]
      (x.lanes = lanes % 16 → x.speed = speed % 8 → exec (.linkRetrain dt p lanes speed) s = .next u) ∧
      (x.lanes ≠ lanes % 16 ∨ x.speed ≠ speed % 8 → exec (.linkRetrain dt p lanes speed) s = .next t)) ∧
    (∀ on n, u.portUp p = true → x.linkUp = true → exec (.vfEnableChange dt p on n) s =
      .next (u.modPort p (fun y => { y with vfEnable := on, numVfs := min 127 n })))

/-- The aperture and translation: a read returns the stored bytes, and its uncorrectable unit, newly found or known to be bad, poisons it and is
an umpire source's occurrence; a root or an invalidation
drops the crew's cached entries until its old accesses are done, which is raised; an outbound read that times out is raised and is the port's source
(04 R73, 11 R290, R292, R309, R315 to R317). -/
def Obligations.ApertureAndTranslation : Prop :=
  ∀ (dt crew : Nat) (v : Word) (s : State),
    let u := s.tick dt
    (∀ offset n, u.apertureOpen crew offset n = true →
      let told (lp5 : Bool) (a : Nat) : State :=
        (u.send (.readBytes crew (memReads u.aperture (apertureKey crew offset) n) true)).occur ((if lp5 then 120 else 112) + channelAt (a % 2 ^ 32)) (a % 2 ^ 32)
      (u.badRead crew offset n = none → exec (.apertureRead dt crew offset n none) s =
        .next (u.send (.readBytes crew (memReads u.aperture (apertureKey crew offset) n) false))) ∧
      (∀ lp5 a, u.badRead crew offset n = some (lp5, a) → exec (.apertureRead dt crew offset n none) s = .next (told lp5 a)) ∧
      (∀ lp5 a, exec (.apertureRead dt crew offset n (some (lp5, a))) s = .next (told lp5 (unitAddress crew a lp5)))) ∧
    (∀ acc c, lands u acc (.crew c) 0x68 = true → (u.reg ((Block.crew c).base + 0x68) 0 ^^^ v.toNat) &&& 0xFFFF_FFFC = 0 →
      (bitOf v.toNat 0 = true → exec (.xltInvalidate dt acc v) s = .next (u.modCrew c (fun x => { x with xltCache := [], xltBusy := true }))) ∧
      (bitOf v.toNat 0 = false → exec (.xltInvalidate dt acc v) s = .next u)) ∧
    (u.awake = true → (u.crew crew).xltBusy = true → exec (.xltInvalDone dt crew) s =
      .next ((u.modCrew crew (fun x => { x with xltBusy := false })).raiseCrew crew 1)) ∧
    (∀ p, p < 4 → u.portUp p = true →
      let t := (u.raise (hostStatus p) [3]).occur (32 + p) p
      exec (.cplTimeout dt p none) s = .next t ∧
      (∀ e : BusError, 64 ≤ e.channel → exec (.cplTimeout dt p (some e)) s = .next (t.udmaFail e.channel)) ∧
      (∀ e : BusError, e.channel < 64 → t.mover.stopping = none → t.mover.stoppedAll = false →
        exec (.cplTimeout dt p (some e)) s = .next (t.busError e [])) ∧
      (∀ e : BusError, e.channel < 64 → t.mover.stoppedAll = true → exec (.cplTimeout dt p (some e)) s = .next t))

/-- A host write of an aperture range stores exactly its bytes: each byte of the range reads as written, every other byte of every crew's aperture
reads as before. Where the range's granules are backed nothing else of the state changes; where some are not, and the backing has room, those are
backed first and the LP5X domains are on; where it has no room nothing is stored and the crew's translation fault reports cause 8 of requester 7
(04 R73, 11 R290, R294). The premise on memory is the invariant that every step keeps. -/
def Obligations.ApertureWriteStoresItsBytes : Prop :=
  ∀ (dt crew offset : Nat) (data : List Byte) (s : State), memWf s.aperture = true →
    let u := s.tick dt
    let need := (granulesOf offset data.length).filter (fun g => !(u.crew crew).granules.contains g)
    let room := ((u.crews.map (fun p => p.2.granules.length)).sum + need.length) * (2 * mib) ≤ u.backingCapacity
    let stored (t : State) : Prop := ∃ m, exec (.apertureWrite dt crew offset data) s = .next { t with aperture := m } ∧ memWf m = true ∧
        (∀ i b, data[i]? = some b → memRead m (apertureKey crew (offset + i)) = b) ∧
        (∀ a, (∀ i, i < data.length → a ≠ apertureKey crew (offset + i)) → memRead m a = memRead u.aperture a)
    u.apertureOpen crew offset data.length = true →
      ((∀ g ∈ granulesOf offset data.length, g ∈ (u.crew crew).granules) → stored u) ∧
      (need ≠ [] → room → stored (((u.modCrew crew (fun k => { k with granules := k.granules ++ need })).setDomain 84 true).setDomain 85 true)) ∧
      (need ≠ [] → ¬ room → exec (.apertureWrite dt crew offset data) s = .next (u.xltFault crew offset 8 7 0 true))

/-- UMPIRE.CLEAR with the current snapshot number clears exactly the sources below 128 that are in the snapshot and in CLEAR_SEL, have had no occurrence
since, are of class C0 to C2 and have an inactive line; with any other number it clears nothing and raises clear_refused (12 R337). -/
def Obligations.UmpireClearIsExact : Prop :=
  ∀ (dt : Nat) (acc : Acc) (v : Word) (s : State),
    let u := s.tick dt
    lands u acc .umpire 0xC = true →
      (v.toNat % 2 ^ 16 = u.umpire.snapSeq → ∃ t, exec (.umpireClear dt acc v) s = .next t ∧
        ∀ n, n < 128 → (t.umpire.latched.testBit n = true ↔ u.umpire.latched.testBit n = true ∧
          ¬ (u.umpire.snap.testBit n = true ∧ u.umpire.clearSel.testBit n = true ∧ tabGet 0 u.umpire.lastAt n ≤ u.umpire.snapAt ∧
            u.classOf n ≤ 2 ∧ u.umpire.active.testBit n = false))) ∧
      (v.toNat % 2 ^ 16 ≠ u.umpire.snapSeq → exec (.umpireClear dt acc v) s = .next (u.raise umpireStatus [2]))

/-- Umpire commands: an occurrence of a source with no bit set yet is latched, ordered and logged, raises its status, a FAULT event where its class is C1 or
higher, and brings about the reaction of its class: for C2 and C3 outside FACTORY, LIMP where the limp path is intact, else all ports disabled; one whose
bit stands is only counted and logged. A snapshot copies the latched word; an injection outside FACTORY is refused and an occurrence of source 46, in
FACTORY it fires or holds the source (12 R332, R335, R337, R341, R345). -/
def Obligations.UmpireOccurrences : Prop :=
  ∀ (dt n detail : Nat) (acc : Acc) (v : Word) (s : State),
    let u := s.tick dt
    let seen := if n = 43 then (u.modAccess (fun a => { a with matrixAddr := detail, matrixInfo := u.free % 2 ^ 32 })).used.raise matrixStatus [0]
      else if n = 41 then u.modModes (fun m => { m with causePending := m.causePending ||| 8 }) else u
    let cls := seen.classOf n
    let was := seen.umpire.latched.testBit n
    let sets := !was || (decide (n = 48) && decide (seen.umpire.class48 < cls))
    let logged := seen.modUmpire (fun x =>
      { x with latched := x.latched ||| 2 ^ n, occurrences := x.occurrences + 1, lastAt := tabSet x.lastAt n (x.occurrences + 1),
               log := ({ source := n, cls := cls, setBit := sets, detail := detail, time := seen.uptime } :: x.log).take 16,
               logCount := x.logCount + 1, class48 := if n = 48 then (if was then max x.class48 cls else cls) else x.class48 })
    let raised := logged.raiseUmpire [0]
    let posted := if cls = 0 then raised else
      (((raised.post 0 (eventWord 0x19 0xF cls 0 n)).post 128 (eventWord 0x19 0xF cls 0 n)).post 256 (eventWord 0x19 0xF cls 0 n)).post 384 (eventWord 0x19 0xF cls 0 n)
    let mark (limp : Bool) : State := if cls = 3 then posted.recordC3 n detail limp else posted
    let done (t : State) : State := if n = 49 then t.setValidity false else t
    (seen.awake = true → n < 59 ∨ 64 ≤ n → n < 128 →
      (sets = false → exec (.faultOccurrence dt n detail) s = .next logged.followNfault) ∧
      (sets = true → cls < 2 → exec (.faultOccurrence dt n detail) s = .next (done posted)) ∧
      (sets = true → 2 ≤ cls → posted.modes.mode = .factory ∨ posted.modes.portsDisabled = true →
        exec (.faultOccurrence dt n detail) s = .next (done (mark false))) ∧
      (sets = true → 2 ≤ cls → posted.modes.mode ≠ .factory → posted.modes.mode ≠ .limp → posted.modes.portsDisabled = false →
        (posted.limpIntact = true → exec (.faultOccurrence dt n detail) s = .next (done (mark true).enterLimp)) ∧
        (posted.limpIntact = false → exec (.faultOccurrence dt n detail) s = .next (done (mark false).disablePorts))) ∧
      (sets = true → 2 ≤ cls → posted.modes.mode = .limp → posted.modes.portsDisabled = false →
        (posted.limpIntact = false → cls = 3 → exec (.faultOccurrence dt n detail) s = .next (done (mark false).disablePorts)) ∧
        (posted.limpIntact = true ∨ cls ≠ 3 → exec (.faultOccurrence dt n detail) s = .next (done (mark false))))) ∧
    (lands u acc .umpire 4 = true → exec (.umpireSnapshot dt acc) s =
      .next (u.modUmpire (fun x => { x with snap := x.latched, snapSeq := (x.snapSeq + 1) % 2 ^ 16, snapAt := x.occurrences }))) ∧
    (lands u acc .umpire 0x300 = true → (u.reg (Block.umpire.base + 0x300) 0 ^^^ v.toNat) &&& 0xFFFF_FC80 = 0 →
      let m := v.toNat % 128
      let hold := bitOf v.toNat 8
      let t := if u.umpire.injectHold && (!hold || decide (u.umpire.injectSource ≠ m)) then u.lineOff u.umpire.injectSource else u
      let w := t.modUmpire (fun x => { x with injectSource := m, injectHold := hold && (x.injectHold || bitOf v.toNat 9) })
      (u.modes.mode ≠ .factory → exec (.faultInject dt acc v) s = .next ((u.raise umpireStatus [6]).occur 46 (Block.umpire.base + 0x300))) ∧
      (u.modes.mode = .factory →
        (bitOf v.toNat 9 = false ∨ within 59 63 m = true → exec (.faultInject dt acc v) s = .next w) ∧
        (bitOf v.toNat 9 = true → within 59 63 m = false → hold = true → exec (.faultInject dt acc v) s = .next (w.lineOn m (plainDetail m))) ∧
        (bitOf v.toNat 9 = true → within 59 63 m = false → hold = false → exec (.faultInject dt acc v) s = .next (w.occur m (plainDetail m)))))

/-- Photo-finish and the limp picture: a golden region that passes is judged, recorded and no longer failed; one that fails less often than fail_after
only counts; one that reaches it raises its failure; a rearm arms it from the next frame; a limp frame is counted and written whole; the limp record is
loaded in LAUNCH (12 R321, R322, R328, R330, R339, R340, 15 R396, R397). -/
def Obligations.PhotoAndLimp : Prop :=
  ∀ (dt n i : Nat) (s : State), n < 8 → i < 32 →
    let u := s.tick dt
    let r := (u.region (n * 32 + i)).rearmed (u.frame n)
    (∀ k, u.regionReady n i = true → u.checkOf n i = some k →
      let ws := u.regionWords n k.rect
      let crc := regionCrc ws
      let o := (u.outcome n i k r crc (classCounts ws)).1
      let judged (run code : Nat) (failed : Bool) : State := u.modRegion (n * 32 + i) (fun _ =>
        { r with crcs := ((u.frame n, crc) :: r.crcs).take 8, history := (r.history * 4 + code) % 2 ^ 16, counts := classCounts ws,
                 run := run, frame := u.frame n, window := (u.outcome n i k r crc (classCounts ws)).2, failed := failed })
      let told (t : State) (ok : Bool) : State := if k.source = 49 then t.judgeIndication ok else t
      (k.mode = 1 → o = some (decide (crc = k.expected))) ∧
      (o = some true → exec (.regionEvaluation dt n i) s = .next (told (judged 0 1 false) true)) ∧
      (o = some false → r.run + 1 < k.failAfter → exec (.regionEvaluation dt n i) s = .next (told (judged (r.run + 1) 2 r.failed) false)) ∧
      (o = some false → k.failAfter ≤ r.run + 1 →
        exec (.regionEvaluation dt n i) s = .next ((told (judged 0 2 r.failed) false).photoFail n i k)) ∧
      (o = none → exec (.regionEvaluation dt n i) s = .next (told (judged r.run 3 r.failed) false))) ∧
    (∀ crew, u.awake = true → u.mayRearm crew n i = true → exec (.photoRearm dt crew n i) s =
      .next (u.modRegion (n * 32 + i) (fun x => { x with rearmAt := some (u.frame n + 1) }))) ∧
    (∀ gpio, u.limpReady = true →
      let d := u.limp.lane
      let t := (((u.dropKept d).count (laneCount d 0) 1).modLane d (fun l =>
        { l with frameAt := u.now, timing := some (u.frameTiming d), stalls := [], lost := [],
                 lastPixel := u.sentPixel d (u.laneW d - 1) (u.laneH d - 1) })).sendFrame d
      (∀ q, t.limp.record = some q →
        let w := t.setPixels t.limp.lane ((t.active t.limp.lane).pixels.map (fun p => (p, t.limpWord q gpio p.1 p.2)))
        exec (.limpFrameStart dt gpio) s = .next (w.modLimp (fun l => { l with gpio := gpio, expected := q.bitmaps.zipIdx.map (fun b =>
          (b.2, regionCrc ((limpRect b.1).pixels.map (fun p => w.pixel t.limp.lane p.1.toNat p.2.toNat)))) }))) ∧
      (t.limp.record = none → exec (.limpFrameStart dt gpio) s = .next t)) ∧
    (∀ q, u.limpLoadReady = true → exec (.limpRecordLoaded dt q) s = .next (u.limpStart q))

/-- The sealed measuring unit's own events: it starts with the slot that the monotonic counter names; a pulse of the running unit is counted in its input
alone; an overrate clears after 1 s; the tick serves the requests in order; an indication is posted with its CRC; a gap ends its validity; the seal, its
time-out, SHOW_ID's end, a failed close and 30 minutes without a request act as 13 says (13 R351, R354, R359 to R362, R365, R366, R368, 15 R400). -/
def Obligations.SmuEvents : Prop :=
  ∀ (dt : Nat) (s : State),
    let u := s.tick dt
    (∀ slots fwSigned, u.smu.running = false → u.powered = true →
      let b := u.modSmu (fun q => { q with running := true, tick := 0, tickAt := u.now, fwOk := fwSigned, slots := slots, judgedAt := u.now, timeValid := !u.clocks.xtal32Failed && !u.modes.rcWindow })
      let up (t : State) : State := (t.modModes (fun m => { m with counting := false, wakePulses := 0, seconds := 0 })).smuFault
      let bad := (b.modSmu (fun q => { q with storageFault := true, pulses := [0, 0, 0, 0], window := [0] })).smuEvent 4
      let lost := u.modes.monotonic = 0 ∧ ∀ y ∈ slots, y.authentic = true → y.counter ≠ 0
      (¬ lost → ∀ x, slots.find? (fun y => y.authentic && decide (y.counter = u.modes.monotonic)) = some x →
        exec (.smuStart dt slots fwSigned) s = .next (up (b.loadSlot x))) ∧
      (¬ lost → slots.find? (fun y => y.authentic && decide (y.counter = u.modes.monotonic)) = none → exec (.smuStart dt slots fwSigned) s = .next (up bad)) ∧
      (lost → ∀ x, newestSlot slots = some x → exec (.smuStart dt slots fwSigned) s = .next (up (((b.loadSlot x).setNeeds true).auditEvent 5))) ∧
      (lost → newestSlot slots = none → exec (.smuStart dt slots fwSigned) s = .next (up bad))) ∧
    (∀ k, k < 4 → u.modes.mode ≠ .unpowered →
      let p := if k = 0 then u.modModes (fun m => { m with pulse0At := some u.now }) else u
      let counted := (p.modSmu (fun q =>
        { q with pulses := (List.range 4).map (fun i => q.pulses.getD i 0 + b2n (decide (i = k))) })).overrateCheck k
      (u.smu.running = true → k ≠ u.num 0x7801 2 → exec (.smuPulseEdge dt k) s = .next counted) ∧
      (u.smu.running = true → k = u.num 0x7801 2 → exec (.smuPulseEdge dt k) s = .next counted.checkKm) ∧
      (u.smu.running = false → k = 0 → u.modes.counting = true →
        exec (.smuPulseEdge dt k) s = .next (p.modModes (fun m => { m with wakePulses := min 0xFFFF (m.wakePulses + 1) }))) ∧
      (u.smu.running = false → k ≠ 0 ∨ u.modes.counting = false → exec (.smuPulseEdge dt k) s = .next p)) ∧
    (u.smu.overrate = true → u.smu.overrateAt + 1_000_000_000 ≤ u.now → exec (.overrateClear dt) s = .next (u.modSmu (fun q => { q with overrate := false }))) ∧
    (u.smu.running = true → u.smu.timeValid = false ∨ u.smu.nextTick ≤ u.now →
      let odo := u.odometer
      let t1 := (u.accrue (odo - (u.smu.window.head?).getD odo)).modSmu (fun q =>
        { q with journey := { q.journey with ticks := if q.journey.kind = 0 then 0 else q.journey.ticks + 1 }, window := (odo :: q.window).take 11, effects := [] })
      let t2 := (u.smu.effects.foldl State.smuServe t1).modSmu (fun q => { q with tick := q.tick + 1, tickAt := if q.timeValid then u.smu.nextTick else u.now, subTicks := (q.subTicks + 1) % 10, time := if q.subTicks = 9 then q.time + 1 else q.time })
      let due := (∃ a ∈ u.smu.effects, a.effect ≠ .refused) ∨ t2.smu.recordOdo + 1000 ≤ t2.odometer
      (due → exec (.smuTick dt) s = .next (t2.writeRecord.placeIndication.modSmu (fun q => { q with view := t2.writeRecord.placeIndication.smuView }))) ∧
      (¬ due → exec (.smuTick dt) s = .next (t2.placeIndication.modSmu (fun q => { q with view := t2.placeIndication.smuView })))) ∧
    (∀ b raster, u.smu.running = true → b < 2 → u.bufferFree b = true → u.rasterOk raster = true → exec (.indicationPost dt b raster) s =
      .next (u.modSmu (fun q => { q with rasters := q.rasters.set b raster, posted := some b, crcs := q.crcs.set b (regionCrc (raster.map (paletteWord (valContent (u.obj 0x7801 0xA))))) }))) ∧
    (u.smu.running = true → u.smu.indValid = true → u.smu.judgedAt + u.num 0x7801 9 * 1_000_000 ≤ u.now → exec (.indicationGapTimeout dt) s =
      .next (((u.modSmu (fun q => { q with indValid := false, out := true, passes := 0 })).count 0x680 1).smuEvent 1)) ∧
    (u.smu.running = true → u.smu.sealOpen = false → exec (.smuSealChange dt true) s =
      .next (u.modSmu (fun q => { q with sealOpen := true, sealSince := u.now, sealAnswered := false }))) ∧
    (u.smu.running = true → u.smu.sealOpen = true → u.smu.verifying = false → exec (.smuSealChange dt false) s =
      .next (u.modSmu (fun q => { q with sealOpen := false }))) ∧
    (u.smu.running = true → u.smu.sealOpen = true → u.smu.verifying = true →
      let t := u.modSmu (fun q => { q with sealOpen := false })
      (u.smu.closing = none → exec (.smuSealChange dt false) s =
        .next ((t.modSmu (fun q => { q with verifying := false, closing := none, stagedParams := [], savedParams := [], stagedFw := [] })).smuEvent 6)) ∧
      (u.smu.closing.isSome = true → exec (.smuSealChange dt false) s = .next t)) ∧
    (u.smu.running = true → u.smu.sealOpen = true → u.smu.sealAnswered = false → u.smu.sealSince + 60_000_000_000 ≤ u.now → exec (.sealOpenTimeout dt) s =
      .next ((((u.modSmu (fun q => { q with sealAnswered := true })).auditEvent 6).setNeeds true).alarm 5)) ∧
    (u.smu.showId = true → u.smu.showIdAt + 10_000_000_000 ≤ u.now → exec (.showIdEnd dt) s = .next (u.modSmu (fun q => { q with showId := false }))) ∧
    (∀ k, u.smu.closing = some k → k.since + 1_000_000_000 ≤ u.now → exec (.verifyCloseTimeout dt) s =
      .next ((((u.smu.savedParams.foldl (fun w p => w.setKey p.1 p.2) u).modSmu (fun q => { q with closing := none, savedParams := [] })).placeIndication).smuAnswer k.crew k.cookie 5 0)) ∧
    (u.smu.verifying = true → u.smu.closing = none → u.smu.lastAuth + 1_800_000_000_000 ≤ u.now → exec (.verifyInactivityTimeout dt) s =
      .next ((u.modSmu (fun q => { q with verifying := false, closing := none, stagedParams := [], savedParams := [], stagedFw := [] })).smuEvent 6))

/-- Requests to the sealed measuring unit: one from another crew than smu.requester ends with ITEM_ERROR; a malformed one waits for the tick with result
8; a well-formed one waits with its result and effect, judged against the requests before it. HIRE, STOP and SUPPLEMENT are judged by the journey, the
authenticated ones by verification mode (13 R355, R364, R369). -/
def Obligations.SmuRequests : Prop :=
  ∀ (dt crew : Nat) (s : State),
    let u := s.tick dt
    let i := u.head crew
    let v := u.modCrew crew (fun k => { k with cq := k.cq.drop 1 })
    let w := v.smuImage
    let waits (r : Nat × SmuEffect) : State :=
      { v.modSmu (fun q => { q with effects := q.effects ++ [SmuAnswer.mk crew (cookieOf (i.word 0)) r.1 r.2] }) with freeCount := u.freeCount + 13 }
    let asks (c : Instr) (code : Nat) : Prop := u.headSmu crew code = true →
      (crew ≠ u.num 0x7801 5 → exec c s = .next (v.post crew (eventWord 0x0A 0xF 5 (cookieOf (i.word 0)) 0))) ∧
      (crew = u.num 0x7801 5 → i.words.length ≠ smuLength code ∨ (2 ≤ i.words.length ∧ i.word 1 &&& smuWord1 code ≠ i.word 1) → exec c s = .next (waits (8, .refused))) ∧
      (crew = u.num 0x7801 5 → i.words.length = smuLength code → (2 ≤ i.words.length → i.word 1 &&& smuWord1 code = i.word 1) →
        exec c s = .next (waits (w.smuJudge code i)))
    asks (.hire dt crew) 1 ∧ asks (.tariff dt crew) 2 ∧ asks (.stop dt crew) 3 ∧ asks (.endJourney dt crew) 4 ∧ asks (.supplement dt crew) 5 ∧
    asks (.tripReset dt crew) 6 ∧ asks (.showId dt crew) 7 ∧ asks (.timeOffset dt crew) 8 ∧ asks (.verifyChallenge dt crew) 0x10 ∧
    asks (.verifyOpen dt crew) 0x11 ∧ asks (.paramWrite dt crew) 0x12 ∧ asks (.verifyClose dt crew) 0x13 ∧ asks (.fwBlock dt crew) 0x14 ∧
    asks (.logClear dt crew) 0x15 ∧
    (w.smu.running = true → w.smu.journey.kind = 1 → w.smuJudge 1 i = (1, .refused) ∧ w.smuJudge 3 i = (0, .stop) ∧ w.smuJudge 4 i = (1, .refused) ∧
      w.smuJudge 5 i = (0, .supplement (i.word 1 % 8))) ∧
    (w.smu.running = true → w.smu.verifying = false → w.smuJudge 0x12 i = (3, .refused) ∧ w.smuJudge 0x13 i = (3, .refused) ∧
      w.smuJudge 0x14 i = (3, .refused) ∧ w.smuJudge 0x15 i = (3, .refused))

/-- Security: image A is taken if it passes every check, else image B, with SEC.BOOT_STATUS naming both results, else every port is disabled; a challenge
is read as 32 bytes, or nothing while it is withheld; a verified signed scope opens debug and clears the failure count, a failed one counts and withholds
the next challenge for 2^(f − 1) s up to 256 s; an alarm closes debug, is logged and acts by its policy (14 R374 to R388). -/
def Obligations.SecurityEvents : Prop :=
  ∀ (dt : Nat) (s : State),
    let u := s.tick dt
    let act (v : State) (p : Nat) : State :=
      let w := v.modSec (fun c => { c with policyMax := max c.policyMax p })
      let wiped (kill : Bool) : State := w.modSec (fun c =>
        { c with keys := none, erased := true, fuses := { c.fuses with epoch := min 16 (c.fuses.epoch + 1), keyKill := c.fuses.keyKill || kill } })
      if v.sec.erased = true ∧ p < 2 then v
      else if p = 0 then w else if p = 1 then w.modSec (fun c => { c with lock := true }) else if p = 2 then wiped false else wiped true
    let alarmed (v : State) (a : Nat) : State :=
      let t := (v.modSec (fun c => { c with debugOpen := false, scope := 0, challenge := none, alarmLog := (AlarmEntry.mk a (v.policyNow a) v.uptime :: c.alarmLog).take 16 })).raise secStatus [0]
      let x := act (t.followNfault.occurAs 48 (alarmClass v.sec.policy a) a) (v.policyNow a)
      if v.romBusy = true then x.resetDomains 16 else x
    let f := min 255 (u.sec.debugFails + 1)
    let failed := (u.modSec (fun c => { c with debugFails := f, challenge := none, withheld := true, withheldUntil := u.now + min 256 (2 ^ (f - 1)) * 1_000_000_000 })).raise secStatus [2]
    let opened (scope : Nat) : State := (u.modSec (fun c =>
      { c with challenge := none, debugOpen := true, scope := scope % 8, debugFails := 0, withheld := false, withheldUntil := 0 })).followNfault
    let booted (t : State) : State := if t.modes.step = .configured then t.startEarly.startLinks else t.startLinks
    (∀ a b, u.bootReady = true →
      (u.imageResult a = 0 → exec (.bootImageCheck dt a b) s = .next (booted (u.acceptImage a 0x10))) ∧
      (u.imageResult a ≠ 0 → u.imageResult b = 0 → exec (.bootImageCheck dt a b) s = .next (booted (u.acceptImage b (u.imageResult a)))) ∧
      (u.imageResult a ≠ 0 → u.imageResult b ≠ 0 → exec (.bootImageCheck dt a b) s =
        .next (booted ((u.modSec (fun c => { c with bootStatus := u.imageResult a + u.imageResult b * 2 ^ 4 })).refuseImages)))) ∧
    (u.awake = true →
      (u.sec.withheld = true → exec (.dbgChallengeRead dt) s = .next (u.send (.jtag []))) ∧
      (u.sec.withheld = false → exec (.dbgChallengeRead dt) s =
        .next ((u.used.modSec (fun c => { c with challenge := some (u.free % 2 ^ 256) })).send (.jtag (leBytes 32 (u.free % 2 ^ 256))))) ∧
      (∀ scope signature,
        (u.modes.mode = .factory ∧ u.sec.lock = false → exec (.dbgUnlock dt scope signature) s = .next (opened scope)) ∧
        (¬ (u.modes.mode = .factory ∧ u.sec.lock = false) →
          let good := ∃ v h, u.sec.challenge = some v ∧ u.sec.fuses.debugHash = some h ∧ u.sec.lock = false ∧
            Config.ecdsaVerifies h (leBytes 32 v ++ leBytes 4 sysId ++ leBytes 4 scope) signature = true
          (good → exec (.dbgUnlock dt scope signature) s = .next (opened scope)) ∧
          (¬ good → failed.failsExceeded = false → exec (.dbgUnlock dt scope signature) s = .next failed) ∧
          (¬ good → failed.failsExceeded = true → exec (.dbgUnlock dt scope signature) s = .next (alarmed failed 4)))) ∧
      (∀ a, a < 7 →
        (u.sec.challenge = none → exec (.securityAlarm dt a) s = .next (alarmed u a)) ∧
        (u.sec.challenge ≠ none → failed.failsExceeded = false → exec (.securityAlarm dt a) s = .next (alarmed failed a)) ∧
        (u.sec.challenge ≠ none → failed.failsExceeded = true → exec (.securityAlarm dt a) s = .next (alarmed (alarmed failed a) 4)))) ∧
    (u.sec.withheld = true → u.sec.withheldUntil ≤ u.now → exec (.dbgBackoffExpiry dt) s = .next (u.modSec (fun c => { c with withheld := false }))) ∧
    (u.holdOver = true → exec (.provisionWindowExpiry dt) s = .next u.goLimp)

/-- A revocation blows the fuse of its slot, unless that slot verified the running image or no other unrevoked slot holds a hash: then refused_last_slot is
raised and no fuse is blown (14 R378). LOCK is not in force (R385). -/
def Obligations.RevocationSparesTheLastSlot : Prop :=
  ∀ (dt : Nat) (acc : Acc) (v : Word) (s : State),
    let u := s.tick dt
    let f := u.sec.fuses
    lands u acc .sec 0x18 = true → v.toNat < 4 → u.sec.lock = false →
    (u.sec.runningSlot = v.toNat ∨ (∀ k, k < 4 → k ≠ v.toNat → f.revoked.testBit k = true ∨ tabFind f.bootHashes k = none) →
      ∃ t, exec (.revoke dt acc v) s = .next t ∧ t.sec = u.sec ∧ t = (u.setReg 0x80_0018 v.toNat).raise secStatus [4]) ∧
    (∀ k, u.sec.runningSlot ≠ v.toNat → k < 4 → k ≠ v.toNat → f.revoked.testBit k = false → tabFind f.bootHashes k ≠ none →
      ∃ t, exec (.revoke dt acc v) s = .next t ∧ t.sec.fuses.revoked.testBit v.toNat = true ∧
        t = (u.setReg 0x80_0018 v.toNat).modSec (fun c => { c with fuses := { c.fuses with revoked := f.revoked ||| 2 ^ v.toNat } }))

/-- A write of SEC.ALARM_POLICY never makes a policy or a class less strict: it is taken whole where it weakens no field, else every field is
kept and policy_refused is raised (14 R388). -/
def Obligations.AlarmPoliciesNeverWeaken : Prop :=
  ∀ (dt : Nat) (acc : Acc) (v : Word) (s : State), lands (s.tick dt) acc .sec 0x10 = true →
    let old := (s.tick dt).sec.policy
    ∃ t, exec (.alarmPolicyWrite dt acc v) s = .next t ∧
      (∀ a, a < 7 → policyOf old a ≤ policyOf t.sec.policy a ∧ alarmClass old a ≤ alarmClass t.sec.policy a) ∧
      (v.toNat < 2 ^ 21 → (∀ a, a < 7 → policyOf old a ≤ policyOf v.toNat a ∧ alarmClass old a ≤ alarmClass v.toNat a) →
        t = (s.tick dt).modSec (fun c => { c with policy := v.toNat })) ∧
      ((∃ a, a < 7 ∧ (policyOf v.toNat a < policyOf old a ∨ alarmClass v.toNat a < alarmClass old a)) → t = (s.tick dt).raise secStatus [3])

/-- LAUNCH and sleep: the plan is built, a full self-test ends passed or with its failed shells and channels, and the last step enters RUN, LIMP or a
provisioning hold; sleep parks the device in STANDBY or WATCH; a wake source is recorded, and where it is enabled it wakes the sleeping device
(14 R386, 15 R396, R398 to R400). -/
def Obligations.LaunchAndSleep : Prop :=
  ∀ (dt : Nat) (s : State),
    let u := s.tick dt
    (u.planReady = true → exec (.planBuilt dt) s = .next (u.takePlan.modModes (fun m =>
      { m with step := .planned, selftest := if m.selftestAsked then 1 else m.selftest }))) ∧
    (∀ shells boathouse lp5 limpOk, u.testRuns = true →
      let passed := shells = [] ∧ boathouse = [] ∧ lp5 = [] ∧ limpOk = true
      let t := (u.modModes (fun m => { m with step := .selftest, selftest := if passed then 3 else 4, selftestAsked := false })).modPlacement
        (fun p => { p with shellOk := shells.foldl (fun w k => w &&& (0xFFFF ^^^ 2 ^ (k % 16))) p.shellOk })
      let x := lp5.foldl (fun v k => v.occur (120 + k % 8) (k % 8)) (boathouse.foldl (fun v k => v.occur (112 + k % 8) (k % 8))
        (shells.foldl (fun v k => v.occur (96 + k % 16) (k % 16)) t))
      (shells = [] → exec (.fullSelftestDone dt shells boathouse lp5 limpOk) s = .next x) ∧
      (shells ≠ [] → exec (.fullSelftestDone dt shells boathouse lp5 limpOk) s = .next x.followShells)) ∧
    (u.launchReady = true → u.modes.mode ≠ .factory →
      (u.sec.keysErased = false → u.num 0x2000 2 ≠ 4 → exec (.launchComplete dt) s =
        .next ((((u.setMode .run).modModes (fun m => { m with step := .ready })).modSec (fun c =>
          { c with fuses := { c.fuses with minVersion := max c.fuses.minVersion ((c.raiseMin).getD 0) }, raiseMin := none })).startLanes)) ∧
      (u.sec.keysErased = false → u.num 0x2000 2 = 4 → exec (.launchComplete dt) s = .next u.goLimp) ∧
      (u.sec.keysErased = true → u.sec.fuses.keyKill = false → u.sec.provisionWindow ≠ 0 → exec (.launchComplete dt) s =
        .next ((u.modModes (fun m => { m with step := .hold })).modSec (fun c => { c with holdSince := u.now }))) ∧
      (u.sec.keysErased = true → u.sec.fuses.keyKill = true ∨ u.sec.provisionWindow = 0 → exec (.launchComplete dt) s = .next u.goLimp)) ∧
    (u.launchReady = true → u.modes.mode = .factory →
      exec (.launchComplete dt) s = .next ((u.modModes (fun m => { m with step := .ready })).startLanes)) ∧
    (∀ watch, u.modes.sleeping = some watch →
      (∀ n, n < 8 → ((u.lane n).scans = true ∨ (u.lane n).mode = .limp) → (u.lane n).gated = true ∨ u.activeEnd n ≤ u.lineNow n) →
      let rest (v : State) (n : Nat) : State :=
        if (v.lane n).mode = .off then v
        else if v.laneNum n 1 0xA = 0 ∨ (v.lane n).link ≠ .up then v.stopLane n
        else (v.send (.panelOff n (v.laneNum n 1 0xA))).stopLane n
      let t := ((List.range 8).foldl rest u).stopBlocks.writeRecord.asleep watch
      (u.modes.wakeDuringSleep = false → exec (.sleepComplete dt) s = .next t) ∧
      (u.modes.wakeDuringSleep = true → exec (.sleepComplete dt) s = .next (t.wakeUp (decide (u.modes.wakePinAt = none))))) ∧
    (u.modes.mode ≠ .unpowered → ∀ w k,
      (w = .wakePin ∧ k = 0) ∨ (w = .smuPulse0 ∧ k = 1) →
      let t := u.modModes (fun m => if k = 0 then { m with wakePinAt := some u.now } else { m with pulse0At := some u.now })
      (bitOf (u.reg 0x1_0040 3) k = false → exec (.wake dt w) s = .next t) ∧
      (bitOf (u.reg 0x1_0040 3) k = true → u.modes.sleeping.isSome = true → exec (.wake dt w) s =
        .next (t.modModes (fun m => { m with wakeDuringSleep := true }))) ∧
      (bitOf (u.reg 0x1_0040 3) k = true → u.modes.sleeping = none →
        (u.modes.mode = .watch → u.modes.inReset = false → exec (.wake dt w) s =
          .next (t.modModes (fun m => { m with inReset := true, causePending := m.causePending ||| 4 }))) ∧
        (u.modes.mode = .standby → u.modes.inReset = false → exec (.wake dt w) s = .next (t.modModes (fun m =>
          { m with pwrReq := true, causePending := m.causePending ||| 4, counting := true, wakePulses := if m.counting then m.wakePulses else k,
                   seconds := m.seconds + (t.now - m.standbySince) / 1_000_000_000, standbySince := t.now }))) ∧
        (u.modes.mode ≠ .watch → u.modes.mode ≠ .standby → exec (.wake dt w) s = .next t) ∧
        (u.modes.inReset = true → exec (.wake dt w) s = .next t)))

/-- Resets and supplies: RESET_N under 100 ns does nothing and from 1 µs is a reset, which keeps the pending commands, the fuses, LOCK, the debug failure count,
the C3 record and the unit's journey; its release enters LAUNCH, or FACTORY by TEST_EN at power-up; a supply out of range is source 53, and a core
supply below its threshold a reset; VSTBY starts a second of RC clock and, removed, loses what the island holds; the throttle moves by one step; the
cox turns an idle domain off, PD[84] with PD[85] (08 R220, 12 R332, R344, 14 R380, R385, 15 R392, R393, R403, R404, R406, R412, 17 R441, R447). -/
def Obligations.ResetsAndSupplies : Prop :=
  ∀ (dt : Nat) (s : State),
    let u := s.tick dt
    (u.powered = true →
      (∀ t, t < 100 → exec (.resetN dt t) s = .next u) ∧
      (∀ t, 100 ≤ t → t < 1000 → exec (.resetN dt t) s = .next (if u.free % 2 = 0 then u.used else u.used.resetDomains 2)) ∧
      (∀ t, 1000 ≤ t → exec (.resetN dt t) s = .next (u.resetDomains 2))) ∧
    (u.powered = false → ∀ t, exec (.resetN dt t) s = .next u) ∧
    (u.resetDomains 2).pending = u.pending ∧ (u.resetDomains 2).sec.fuses = u.sec.fuses ∧ (u.resetDomains 2).sec.lock = u.sec.lock ∧
    (u.resetDomains 2).sec.debugFails = u.sec.debugFails ∧ (u.resetDomains 2).umpire.c3 = u.umpire.c3 ∧
    (u.resetDomains 2).smu.journey = u.smu.journey ∧ (u.resetDomains 2).modes.inReset = true ∧ (u.resetDomains 2).crews = [] ∧
    (∀ straps, u.releaseReady = true →
      let t := u.resetDomains 0
      let up (mode : Mode) (cause : Nat) : State := ({ t with
        umpire := { t.umpire with nfaultLow := true }
        modes := { t.modes with mode := mode, inReset := false, releasedAt := u.now, resetAt := u.now, causePending := 0, cause := cause, straps := straps % 64, pwrReq := true } }.followNfault.standingLevels).repeatC3
      (u.powered = true → u.modes.mode = .factory → exec (.resetRelease dt straps) s = .next (up .factory u.modes.causePending)) ∧
      (u.powered = true → u.modes.mode ≠ .factory → exec (.resetRelease dt straps) s = .next (up .launch u.modes.causePending)) ∧
      (u.powered = false →
        let cause := u.modes.causePending ||| (1 + 32 * b2n u.umpire.c3.isSome)
        (bitOf straps 6 = true → u.sec.fuses.fieldLock = false → exec (.resetRelease dt straps) s = .next (up .factory cause)) ∧
        (bitOf straps 6 = false ∨ u.sec.fuses.fieldLock = true → exec (.resetRelease dt straps) s = .next (up .launch cause)))) ∧
    (u.awake = true → ∀ k,
      (∀ b, b = false ∨ resetSupply k = false → exec (.supplyFault dt k b) s = .next (u.occur 53 k)) ∧
      (resetSupply k = true → exec (.supplyFault dt k true) s = .next ((u.occur 53 k).resetDomains 0))) ∧
    (u.modes.mode = .unpowered → exec (.vstbyApplied dt) s =
      .next (u.modModes (fun m => { m with vstby := true, vstbyAt := u.now, rcWindow := true, mode := .standby, standbySince := u.now }))) ∧
    (u.modes.vstby = false → u.modes.mode ≠ .unpowered → exec (.vstbyApplied dt) s =
      .next (u.modModes (fun m => { m with vstby := true, vstbyAt := u.now, rcWindow := true }))) ∧
    (
      let t := u.unpower (if u.modes.vstby then .standby else .unpowered)
      (u.powered = true → exec (.powerCycle dt) s = .next (t.modModes (fun m => { m with standbySince := u.now }))) ∧
      (u.powered = false → exec (.powerCycle dt) s = .next (t.modModes (fun m => { m with causePending := u.modes.causePending, pwrReq := u.modes.pwrReq })))) ∧
    (u.modes.vstby = true → exec (.vstbyRemoved dt) s =
      .next (u.islandLost.modModes (fun m => { m with rcWindow := false, mode := if m.mode = .standby then .unpowered else m.mode }))) ∧
    (u.modes.rcWindow = true → u.modes.vstbyAt + 1_000_000_000 ≤ u.now → exec (.xtal32RcWindowEnd dt) s =
      .next ((u.modModes (fun m => { m with rcWindow := false })).modSmu (fun q => { q with timeValid := q.running && !u.clocks.xtal32Failed }))) ∧
    (u.modes.mode ≠ .unpowered → u.clocks.xtal32Failed = false →
      (u.modes.rcWindow = true → exec (.xtal32Fault dt) s = .next u) ∧
      (u.modes.rcWindow = false → exec (.xtal32Fault dt) s =
        .next ((((u.modClocks (fun c => { c with xtal32Failed := true })).raise refStatus [4]).lineOn 39 0).modSmu (fun q => { q with timeValid := false })))) ∧
    (u.awake = true → u.power.throttle < 7 → (∀ a, u.power.throttledAt = some a → a + 10_000_000 ≤ u.now) →
      let t := (u.modPower (fun p => { p with throttle := u.power.throttle + 1, throttledAt := some u.now })).raise powerStatus [4]
      (3 ≤ u.power.throttle → exec (.throttleRaise dt) s = .next (t.lineOn 51 0)) ∧
      (u.power.throttle < 3 → exec (.throttleRaise dt) s = .next (t.lineOff 51))) ∧
    (u.awake = true → 0 < u.power.throttle → (∀ a, u.power.throttledAt = some a → a + 100_000_000 ≤ u.now) →
      let t := (u.modPower (fun p => { p with throttle := u.power.throttle - 1, throttledAt := some u.now })).raise powerStatus [4]
      (5 ≤ u.power.throttle → exec (.throttleLower dt) s = .next (t.lineOn 51 0)) ∧
      (u.power.throttle < 5 → exec (.throttleLower dt) s = .next (t.lineOff 51))) ∧
    (∀ d, u.idleOffReady d = true →
      (d = 84 ∨ d = 85 → exec (.domainIdleOff dt d) s = .next ((u.setDomain 84 false).setDomain 85 false)) ∧
      (d < 64 ∨ 72 ≤ d → d ≠ 84 → d ≠ 85 → exec (.domainIdleOff dt d) s = .next (u.setDomain d false)) ∧
      (64 ≤ d → d < 72 → exec (.domainIdleOff dt d) s = .next ((u.follow (d - 64)).setDomain d false)))

/-- Links of the cascade: a bring-up ends up, or refused with its reason (a duplicate node, two masters, a loop, keys missing, authentication); a refused link
is tried again; a lost one trains again, and a subordinate that loses its master's side loses the cascade reference; a request that a node leaves
unanswered for 50 ms is answered NODE_UNREACHABLE (16 R414, R415, R421, R424, R427). -/
def Obligations.CascadeLinks : Prop :=
  ∀ (dt k peer delay : Nat) (pm tow auth loop : Bool) (s : State), k < 2 →
    let u := s.tick dt
    (u.linkUpReady k = true →
      let no (r : Nat) := ((u.modLink k (fun l => { l with mode := .refused, peer := peer % 4, reason := r, delay := 0, refusedAt := u.now })).raise slkStatus [3]).linkLevel
      let up := (((u.modLink k (fun l => { l with mode := .up, peer := peer % 4, towards := tow, reason := 0, delay := delay % 2 ^ 16 })).raise slkStatus [1]).setReachable (peer % 4) true).linkLevel
      (peer % 4 = u.ownNode → exec (.silithLinkUp dt k peer pm tow auth loop delay) s = .next (no 3)) ∧
      (peer % 4 ≠ u.ownNode → pm = true → u.cascMaster = true → exec (.silithLinkUp dt k peer pm tow auth loop delay) s = .next (no 4)) ∧
      (peer % 4 ≠ u.ownNode → ¬ (pm = true ∧ u.cascMaster = true) →
        (loop = true → exec (.silithLinkUp dt k peer pm tow auth loop delay) s = .next (no 5)) ∧
        (loop = false → u.sec.keys = none → exec (.silithLinkUp dt k peer pm tow auth loop delay) s = .next (no 2)) ∧
        (loop = false → u.sec.keys ≠ none → (auth = false ∨ u.sec.lock = true) → exec (.silithLinkUp dt k peer pm tow auth loop delay) s = .next (no 1)) ∧
        (loop = false → u.sec.keys ≠ none → auth = true → u.sec.lock = false →
          (tow = false ∨ up.subordinate = false → exec (.silithLinkUp dt k peer pm tow auth loop delay) s = .next up) ∧
          (tow = true → up.subordinate = true → exec (.silithLinkUp dt k peer pm tow auth loop delay) s = .next up.masterReturns.takeCascadeRef)))) ∧
    (u.slkOn = true → (u.link k).mode = .refused → (u.link k).refusedAt + 1_000_000_000 ≤ u.now → exec (.silithLinkRetry dt k) s = .next (u.modLink k (fun l => { l with mode := .training, reason := 0 }))) ∧
    (u.linkLossReady k = true →
      let lost := (u.modLink k (fun x => { x with mode := .training, towards := false, delay := 0 })).raise slkStatus [2]
      let gone := (List.range 4).filter (fun n => decide (n ≠ u.ownNode) && decide ((u.link k).mode = .up) && u.behind k n)
      let v := ((gone.foldl (fun w n => w.setReachable n false) lost).holdSpans).linkLevel
      (v.subordinate = false ∨ (u.link k).mode ≠ .up ∨ (u.link k).towards = false → exec (.silithLinkLost dt k) s = .next v) ∧
      (v.subordinate = true → (u.link k).mode = .up → (u.link k).towards = true →
        (v.clocks.active = 3 → exec (.silithLinkLost dt k) s = .next v.failover.loseCascade) ∧
        (v.clocks.active ≠ 3 → exec (.silithLinkLost dt k) s = .next v.loseCascade))) ∧
    (∀ n f, u.configured = true → u.cascade.forwarded.find? (fun x => x.node == n) = some f → f.at_ + 50_000_000 ≤ u.now →
      let mine := u.cascade.forwarded.filter (fun x => x.node == n && decide (x.via = f.via) && x.req.tag == f.req.tag && x.at_ == f.at_)
      let t := u.modCascade (fun c => { c with forwarded := c.forwarded.filter (fun x => !mine.contains x) })
      let rs := mine.map (fun x => (x.req, Rsp.abort .nodeUnreachable))
      (∀ i c, f.via = .can i c → exec (.forwardTimeout dt n) s = .next (rs.foldl (fun v r => v.canRsp i c r.1 0xF r.2.data) t)) ∧
      (∀ i ip port, f.via = .eth i ip port → exec (.forwardTimeout dt n) s = .next (t.send (.udp i ip port (buildDatagram n f.req.tag rs)))) ∧
      (∀ c, f.via = .mailbox c → exec (.forwardTimeout dt n) s = .next (t.modCrew c (fun x => { x with mbxReply := buildDatagram n f.req.tag rs }))))

/-- Markers, summaries and events of the cascade: a marker is the group's frame start, and a catch where the master says so; a late one catches without a
commit; a silent or leaving master is source 56, and its return gives the reference back; a summary that changes nothing only brings the node's record up to
date; SLK.EVENT_TX reaches the named nodes that have a path; a span copied again takes commits (16 R417, R420, R422 to R425). ARP and echo
requests are answered (02 R36). -/
def Obligations.CascadeMessages : Prop :=
  ∀ (dt : Nat) (s : State),
    let u := s.tick dt
    (u.masterHere = true →
      exec (.frameStartMarker dt false) s = .next (u.modCascade (fun c => { c with markerAt := some u.now, catchAt := c.catchAt })) ∧
      (let ms := (List.range 8).filter u.cascadeLane
       let marked (t : State) : State := t.modCascade (fun c => { c with markerAt := some u.now, catchAt := some u.now })
       (u.applies = false ∨ (∃ n ∈ ms, u.groupCatch n = false) → exec (.frameStartMarker dt true) s = .next (marked u)) ∧
       (u.applies = true → (∀ n ∈ ms, u.groupCatch n = true) →
        let here := u.commits.filter (fun k => k.linked && (lanesIn k.lanes).all ms.contains)
        let late := (here.filter (fun k => !k.eligible && u.fenceExpired (((lanesIn k.lanes).head?).getD 0) k)).foldl
          (fun t k => t.expire (((lanesIn k.lanes).head?).getD 0) k) u
        let put := { late with commits := late.commits.map (fun k =>
          if here.any (fun x => decide (x.seq = k.seq)) && !k.eligible then { k with deferred := true } else k) }
        exec (.frameStartMarker dt true) s = .next (marked (ms.foldl (fun t n => t.modLane n (fun l => { l with groupAt := some u.now }))
          ((here.filter (fun k => k.eligible)).foldl State.applyCommit put))))) ∧
      (let gone := (((u.modCascade (fun c => { c with masterLost := true })).raise slkStatus [6]).loseCascade).lineOn 56 0
       exec (.leavingMarker dt) s = .next gone ∧ exec (.masterKeepaliveTimeout dt) s = .next gone)) ∧
    (∀ n, n < 8 → u.subordinate = true → u.cascadeLane n = true →
      exec (.markerLate dt n) s = .next ((((u.raise slkStatus [0]).markCatch n).bindIndication n).bindHeat n (u.frame n + 1))) ∧
    (u.masterGone = true → exec (.masterBack dt) s =
      .next ((((u.modCascade (fun c => { c with masterLost := false })).lineOff 56).raise slkStatus [7]).takeCascadeRef)) ∧
    (∀ n m low links w, u.summaryReady n = true →
      let t := u.modNode n (fun y => { y with mode := m, nfaultLow := low, links := links, umpire := w, reachable := true, updatedAt := u.uptime })
      ((u.node n).reachable = true → (u.node n).mode = m → (u.node n).umpire = w → (u.node n).nfaultLow = low → (u.node n).links = links →
        exec (.nodeSummary dt n m low links w) s = .next t) ∧
      ((u.node n).reachable = true → (u.node n).mode = m → (u.node n).umpire = w → (u.node n).nfaultLow ≠ low ∨ (u.node n).links ≠ links →
        exec (.nodeSummary dt n m low links w) s = .next (t.nodeChanged n false)) ∧
      ((u.node n).reachable = false ∨ (u.node n).mode ≠ m ∨ (u.node n).umpire ≠ w → exec (.nodeSummary dt n m low links w) s = .next (t.nodeChanged n true))) ∧
    (∀ acc mask, lands u acc .slk 0x40 = true → mask < 16 → exec (.eventTx dt acc mask) s =
      .next ((List.range 4).foldl (fun t n => if mask.testBit n ∧ n ≠ u.ownNode ∧ (u.node n).reachable then t.send (.slkEvent n (20 + u.ownNode)) else t) u)) ∧
    (∀ j, u.spanCopyReady j = true → exec (.spanResync dt j) s =
      .next ((u.modCascade (fun c => { c with spanHeld := c.spanHeld &&& (0xF ^^^ 2 ^ j) })).raise slkStatus [5])) ∧
    (u.configured = true → ∀ k ip data, k < 2 → exec (.arpRequest dt k ip) s = .next (u.send (.arpReply k ip)) ∧
      exec (.icmpEchoRequest dt k ip data) s = .next (u.send (.icmpReply k ip data)))
end

