-- ==== Sys2Proof/Laws/Tables.lean ====
section
/-! SUPPORT. Reading after writing a table, and memory that keeps its canonical form under every operation on it. -/

set_option Elab.async false

namespace Sys2Proof.Machine

open Sys2Proof

variable {α : Type}

@[simp] theorem tabFind_tabSet_same (t : Tab α) (k : Nat) (v : α) : tabFind (tabSet t k v) k = some v := by
  induction t with
  | nil => simp [tabSet, tabFind]
  | cons p t ih =>
    obtain ⟨k', v'⟩ := p
    simp only [tabSet]
    split
    · simp [tabFind]
    · split
      · simp [tabFind]
      · rename_i h1 h2
        simp [tabFind, Ne.symm h2, ih]

theorem tabFind_tabSet_other (t : Tab α) {k k' : Nat} (v : α) (h : k ≠ k') : tabFind (tabSet t k v) k' = tabFind t k' := by
  induction t with
  | nil => simp [tabSet, tabFind, h]
  | cons p t ih =>
    obtain ⟨k1, v1⟩ := p
    simp only [tabSet]
    split
    · simp [tabFind, h]
    · split
      · rename_i h1 h2
        subst h2
        simp [tabFind, h]
      · simp [tabFind, ih]

/-- What a table holds after one entry is written. -/
theorem tabGet_tabSet (d : α) (t : Tab α) (k k' : Nat) (v : α) : tabGet d (tabSet t k v) k' = if k = k' then v else tabGet d t k' := by
  by_cases h : k = k'
  · subst h; simp [tabGet]
  · simp [tabGet, tabFind_tabSet_other t v h, h]

theorem tabGet_tabMod (d : α) (t : Tab α) (k k' : Nat) (f : α → α) :
    tabGet d (tabMod d t k f) k' = if k = k' then f (tabGet d t k') else tabGet d t k' := by
  simp only [tabMod, tabGet_tabSet]
  split
  · rename_i h; rw [h]
  · rfl

/-- Where a property holds of what an unlisted key holds and of every entry, it holds of what the table gives. -/
theorem tabGet_of_all {P : α → Prop} (d : α) (t : Tab α) (hd : P d) (h : ∀ p ∈ t, P p.2) (k : Nat) : P (tabGet d t k) := by
  unfold tabGet
  induction t with
  | nil => simpa [tabFind] using hd
  | cons p t ih =>
    obtain ⟨k', v'⟩ := p
    simp only [tabFind]
    split
    · simpa using h (k', v') (by simp)
    · exact ih (fun q hq => h q (by simp [hq]))

/-- Entries changed one by one, each under its own key. -/
theorem tabFind_map (f : Nat × α → Nat × α) (hf : ∀ p, (f p).1 = p.1) (t : Tab α) (k : Nat) :
    tabFind (t.map f) k = (tabFind t k).map (fun v => (f (k, v)).2) := by
  induction t with
  | nil => simp [tabFind]
  | cons p t ih =>
    obtain ⟨k', v'⟩ := p
    rw [List.map_cons, show f (k', v') = (k', (f (k', v')).2) from Prod.ext (hf _) rfl]
    simp only [tabFind]
    split
    · rename_i hk
      subst hk
      rfl
    · exact ih

/-! ### Rising keys -/

/-- The first key is above a bound. -/
def headAbove (b : Nat) : Tab α → Prop
  | [] => True
  | p :: _ => b < p.1

theorem tabRising_cons (p : Nat × α) (t : Tab α) : tabRising (p :: t) = true ↔ headAbove p.1 t ∧ tabRising t = true := by
  cases t with
  | nil => simp [tabRising, headAbove]
  | cons q t => simp [tabRising, headAbove]

theorem headAbove_tabSet {b : Nat} {t : Tab α} {k : Nat} {v : α} (hk : b < k) (h : headAbove b t) : headAbove b (tabSet t k v) := by
  cases t with
  | nil => simpa [tabSet, headAbove] using hk
  | cons p t =>
    obtain ⟨k', v'⟩ := p
    simp only [tabSet]
    split
    · simpa [headAbove] using hk
    · split
      · simpa [headAbove] using hk
      · simpa [headAbove] using h

theorem tabRising_tabSet (t : Tab α) (k : Nat) (v : α) (h : tabRising t = true) : tabRising (tabSet t k v) = true := by
  induction t with
  | nil => simp [tabSet, tabRising]
  | cons p t ih =>
    obtain ⟨k', v'⟩ := p
    have h' := (tabRising_cons _ _).1 h
    simp only [tabSet]
    split
    · rename_i h1
      exact (tabRising_cons _ _).2 ⟨h1, h⟩
    · split
      · rename_i h1 h2
        subst h2
        exact (tabRising_cons _ _).2 h'
      · rename_i h1 h2
        exact (tabRising_cons _ _).2 ⟨headAbove_tabSet (by simp; omega) h'.1, ih h'.2⟩

theorem headAbove_mono {b c : Nat} {t : Tab α} (hb : b ≤ c) (h : headAbove c t) : headAbove b t := by
  cases t with
  | nil => trivial
  | cons p t => simp only [headAbove] at *; omega

theorem headAbove_of_cons {b : Nat} {p : Nat × α} {t : Tab α} (hb : b < p.1) (h : tabRising (p :: t) = true) : headAbove b t :=
  headAbove_mono (Nat.le_of_lt hb) ((tabRising_cons _ _).1 h).1

theorem headAbove_tabErase {b k : Nat} {t : Tab α} (hb : headAbove b t) (h : tabRising t = true) : headAbove b (tabErase t k) := by
  cases t with
  | nil => trivial
  | cons p t =>
    obtain ⟨k', v'⟩ := p
    simp only [tabErase]
    split
    · exact headAbove_of_cons hb h
    · simpa [headAbove] using hb

theorem tabRising_tabErase (t : Tab α) (k : Nat) (h : tabRising t = true) : tabRising (tabErase t k) = true := by
  induction t with
  | nil => simp [tabErase, tabRising]
  | cons p t ih =>
    obtain ⟨k', v'⟩ := p
    have h' := (tabRising_cons _ _).1 h
    simp only [tabErase]
    split
    · exact h'.2
    · exact (tabRising_cons _ _).2 ⟨headAbove_tabErase h'.1 h'.2, ih h'.2⟩

theorem headAbove_filter {b : Nat} {t : Tab α} (f : Nat × α → Bool) (hb : headAbove b t) (h : tabRising t = true) :
    headAbove b (t.filter f) := by
  induction t with
  | nil => trivial
  | cons p t ih =>
    have h' := (tabRising_cons _ _).1 h
    by_cases hf : f p
    · rw [List.filter_cons_of_pos hf]; exact hb
    · rw [List.filter_cons_of_neg hf]
      exact ih (headAbove_of_cons hb h) h'.2

theorem tabRising_filter (t : Tab α) (f : Nat × α → Bool) (h : tabRising t = true) : tabRising (t.filter f) = true := by
  induction t with
  | nil => simp [tabRising]
  | cons p t ih =>
    have h' := (tabRising_cons _ _).1 h
    by_cases hf : f p
    · rw [List.filter_cons_of_pos hf]
      exact (tabRising_cons _ _).2 ⟨headAbove_filter f h'.1 h'.2, ih h'.2⟩
    · rw [List.filter_cons_of_neg hf]; exact ih h'.2

/-! ### Entries -/

theorem mem_tabSet {t : Tab α} {k : Nat} {v : α} {p : Nat × α} (h : p ∈ tabSet t k v) : p = (k, v) ∨ p ∈ t := by
  induction t with
  | nil => simpa [tabSet] using h
  | cons q t ih =>
    obtain ⟨k', v'⟩ := q
    simp only [tabSet] at h
    split at h
    · simpa using h
    · split at h
      · simp only [List.mem_cons] at h ⊢; tauto
      · simp only [List.mem_cons] at h ⊢
        rcases h with h | h
        · tauto
        · rcases ih h with h | h <;> tauto

theorem mem_tabErase {t : Tab α} {k : Nat} {p : Nat × α} (h : p ∈ tabErase t k) : p ∈ t := by
  induction t with
  | nil => simp [tabErase] at h
  | cons q t ih =>
    obtain ⟨k', v'⟩ := q
    simp only [tabErase] at h
    split at h
    · simp [h]
    · simp only [List.mem_cons] at h ⊢
      rcases h with h | h
      · exact .inl h
      · exact .inr (ih h)

/-! ### Memory -/

theorem memWf_iff (m : List Host.Cell) : memWf m = true ↔ tabRising m = true ∧ ∀ p ∈ m, p.2 ≠ 0 := by
  simp [memWf]

theorem memWf_memWrite (m : List Host.Cell) (a : Nat) (b : Byte) (h : memWf m = true) : memWf (memWrite m a b) = true := by
  rw [memWf_iff] at *
  unfold memWrite
  split
  · exact ⟨tabRising_tabErase _ _ h.1, fun p hp => h.2 p (mem_tabErase hp)⟩
  · rename_i hb
    refine ⟨tabRising_tabSet _ _ _ h.1, fun p hp => ?_⟩
    rcases mem_tabSet hp with rfl | hp
    · exact hb
    · exact h.2 p hp

theorem memWf_memWrites (bs : List Byte) (m : List Host.Cell) (a : Nat) (h : memWf m = true) : memWf (memWrites m a bs) = true := by
  induction bs generalizing m a with
  | nil => simpa [memWrites] using h
  | cons b bs ih => exact ih _ _ (memWf_memWrite m a b h)

theorem memWf_filter (m : List Host.Cell) (f : Host.Cell → Bool) (h : memWf m = true) : memWf (m.filter f) = true := by
  rw [memWf_iff] at *
  exact ⟨tabRising_filter _ _ h.1, fun p hp => h.2 p (List.mem_filter.1 hp).1⟩

theorem memWf_foldl (l : List (Nat × Byte)) (m : List Host.Cell) (h : memWf m = true) :
    memWf (l.foldl (fun m p => memWrite m p.1 p.2) m) = true := by
  induction l generalizing m with
  | nil => simpa using h
  | cons p l ih => exact ih _ (memWf_memWrite m _ _ h)

theorem tabFind_none_of_headAbove {t : Tab α} {k : Nat} (hb : headAbove k t) (h : tabRising t = true) : tabFind t k = none := by
  induction t with
  | nil => simp [tabFind]
  | cons p t ih =>
    obtain ⟨k', v'⟩ := p
    have hk : k < k' := hb
    simp only [tabFind]
    rw [if_neg (by omega)]
    exact ih (headAbove_of_cons hb h) ((tabRising_cons _ _).1 h).2

theorem tabFind_tabErase_same (t : Tab α) (k : Nat) (h : tabRising t = true) : tabFind (tabErase t k) k = none := by
  induction t with
  | nil => simp [tabErase, tabFind]
  | cons p t ih =>
    obtain ⟨k', v'⟩ := p
    have h' := (tabRising_cons _ _).1 h
    simp only [tabErase]
    split
    · rename_i hk
      subst hk
      exact tabFind_none_of_headAbove h'.1 h'.2
    · rename_i hk
      simp [tabFind, hk, ih h'.2]

theorem tabFind_tabErase_other (t : Tab α) {k k' : Nat} (h : k ≠ k') : tabFind (tabErase t k) k' = tabFind t k' := by
  induction t with
  | nil => simp [tabErase]
  | cons p t ih =>
    obtain ⟨k1, v1⟩ := p
    simp only [tabErase]
    split
    · rename_i hk
      subst hk
      simp [tabFind, h]
    · simp [tabFind, ih]

/-- A byte reads as it was last written, and every other byte as before. -/
theorem memRead_memWrite (m : List Host.Cell) (a a' : Nat) (b : Byte) (h : memWf m = true) :
    memRead (memWrite m a b) a' = if a = a' then b else memRead m a' := by
  rw [memWf_iff] at h
  unfold memWrite memRead
  split
  · rename_i hb
    by_cases ha : a = a'
    · subst ha; simp [tabGet, tabFind_tabErase_same m a h.1, hb]
    · simp [tabGet, tabFind_tabErase_other m ha, ha]
  · exact tabGet_tabSet 0 m a a' b

/-- A test on an entry that is there. `rw` with this, not `rfl` or `simp`, keeps the kernel from unfolding a comparison with a large number
of nanoseconds. -/
theorem any_of_some {o : Option α} {x : α} {p : α → Bool} (h : o = some x) (hp : p x = true) : o.any p = true := by
  rw [h]
  exact hp

theorem mem_insertBy {α : Type} {le : α → α → Bool} {x y : α} {l : List α} (h : x ∈ insertBy le y l) : x = y ∨ x ∈ l := by
  induction l with
  | nil => simpa [insertBy] using h
  | cons z l ih =>
    unfold insertBy at h
    split at h
    · simpa using h
    · rcases List.mem_cons.1 h with rfl | h
      · exact .inr List.mem_cons_self
      · exact (ih h).imp_right (List.mem_cons_of_mem _)

/-- Sorting adds no element. -/
theorem mem_sortBy {α : Type} {le : α → α → Bool} {x : α} {l : List α} (h : x ∈ sortBy le l) : x ∈ l := by
  induction l with
  | nil => exact h
  | cons y l ih => exact (mem_insertBy h).elim (fun e => e ▸ List.mem_cons_self) (fun k => List.mem_cons_of_mem _ (ih k))

end Sys2Proof.Machine
end

