-- ==== Sys2Proof/Laws/State.lean ====
section
/-! SUPPORT. What each update of the state leaves each field: one lemma for each field and update, so that no later proof unfolds a record
update; and the entry of a table that an update changed. -/

set_option Elab.async false

namespace Sys2Proof.Machine

open Sys2Proof

variable (s : State)

/-! ### tick -/

@[simp] theorem State.tick_pending (dt : Nat) : (s.tick dt).pending = s.pending := rfl
@[simp] theorem State.tick_now (dt : Nat) : (s.tick dt).now = s.now + dt := rfl
@[simp] theorem State.tick_freeCount (dt : Nat) : (s.tick dt).freeCount = s.freeCount := rfl
@[simp] theorem State.tick_out (dt : Nat) : (s.tick dt).out = s.out := rfl
@[simp] theorem State.tick_objs (dt : Nat) : (s.tick dt).objs = s.objs := rfl
@[simp] theorem State.tick_regs (dt : Nat) : (s.tick dt).regs = s.regs := rfl
@[simp] theorem State.tick_latches (dt : Nat) : (s.tick dt).latches = s.latches := rfl
@[simp] theorem State.tick_status (dt : Nat) : (s.tick dt).status = s.status := rfl
@[simp] theorem State.tick_counts (dt : Nat) : (s.tick dt).counts = s.counts := rfl
@[simp] theorem State.tick_keys (dt : Nat) : (s.tick dt).keys = s.keys := rfl
@[simp] theorem State.tick_access (dt : Nat) : (s.tick dt).access = s.access := rfl
@[simp] theorem State.tick_aperture (dt : Nat) : (s.tick dt).aperture = s.aperture := rfl
@[simp] theorem State.tick_hostMem (dt : Nat) : (s.tick dt).hostMem = s.hostMem := rfl
@[simp] theorem State.tick_frames (dt : Nat) : (s.tick dt).frames = s.frames := rfl
@[simp] theorem State.tick_prefetch (dt : Nat) : (s.tick dt).prefetch = s.prefetch := rfl
@[simp] theorem State.tick_nextSeq (dt : Nat) : (s.tick dt).nextSeq = s.nextSeq := rfl
@[simp] theorem State.tick_commits (dt : Nat) : (s.tick dt).commits = s.commits := rfl
@[simp] theorem State.tick_crews (dt : Nat) : (s.tick dt).crews = s.crews := rfl
@[simp] theorem State.tick_layers (dt : Nat) : (s.tick dt).layers = s.layers := rfl
@[simp] theorem State.tick_lanes (dt : Nat) : (s.tick dt).lanes = s.lanes := rfl
@[simp] theorem State.tick_programs (dt : Nat) : (s.tick dt).programs = s.programs := rfl
@[simp] theorem State.tick_cams (dt : Nat) : (s.tick dt).cams = s.cams := rfl
@[simp] theorem State.tick_slots (dt : Nat) : (s.tick dt).slots = s.slots := rfl
@[simp] theorem State.tick_channels (dt : Nat) : (s.tick dt).channels = s.channels := rfl
@[simp] theorem State.tick_mover (dt : Nat) : (s.tick dt).mover = s.mover := rfl
@[simp] theorem State.tick_ports (dt : Nat) : (s.tick dt).ports = s.ports := rfl
@[simp] theorem State.tick_regions (dt : Nat) : (s.tick dt).regions = s.regions := rfl
@[simp] theorem State.tick_umpire (dt : Nat) : (s.tick dt).umpire = s.umpire := rfl
@[simp] theorem State.tick_limp (dt : Nat) : (s.tick dt).limp = s.limp := rfl
@[simp] theorem State.tick_smu (dt : Nat) : (s.tick dt).smu = s.smu := rfl
@[simp] theorem State.tick_sec (dt : Nat) : (s.tick dt).sec = s.sec := rfl
@[simp] theorem State.tick_modes (dt : Nat) : (s.tick dt).modes = s.modes := rfl
@[simp] theorem State.tick_clocks (dt : Nat) : (s.tick dt).clocks = s.clocks := rfl
@[simp] theorem State.tick_placement (dt : Nat) : (s.tick dt).placement = s.placement := rfl
@[simp] theorem State.tick_power (dt : Nat) : (s.tick dt).power = s.power := rfl
@[simp] theorem State.tick_cascade (dt : Nat) : (s.tick dt).cascade = s.cascade := rfl
@[simp] theorem State.tick_nodes (dt : Nat) : (s.tick dt).nodes = s.nodes := rfl
@[simp] theorem State.tick_segments (dt : Nat) : (s.tick dt).segments = s.segments := rfl
@[simp] theorem State.tick_bootQueues (dt : Nat) : (s.tick dt).bootQueues = s.bootQueues := rfl
@[simp] theorem State.tick_panelInit (dt : Nat) : (s.tick dt).panelInit = s.panelInit := rfl
@[simp] theorem State.tick_early (dt : Nat) : (s.tick dt).early = s.early := rfl

/-! ### setObj -/

@[simp] theorem State.setObj_pending (i j : Nat) (v : Val) : (s.setObj i j v).pending = s.pending := rfl
@[simp] theorem State.setObj_now (i j : Nat) (v : Val) : (s.setObj i j v).now = s.now := rfl
@[simp] theorem State.setObj_freeCount (i j : Nat) (v : Val) : (s.setObj i j v).freeCount = s.freeCount := rfl
@[simp] theorem State.setObj_out (i j : Nat) (v : Val) : (s.setObj i j v).out = s.out := rfl
@[simp] theorem State.setObj_objs (i j : Nat) (v : Val) : (s.setObj i j v).objs = tabSet s.objs (objKey i j) v := rfl
@[simp] theorem State.setObj_regs (i j : Nat) (v : Val) : (s.setObj i j v).regs = s.regs := rfl
@[simp] theorem State.setObj_latches (i j : Nat) (v : Val) : (s.setObj i j v).latches = s.latches := rfl
@[simp] theorem State.setObj_status (i j : Nat) (v : Val) : (s.setObj i j v).status = s.status := rfl
@[simp] theorem State.setObj_counts (i j : Nat) (v : Val) : (s.setObj i j v).counts = s.counts := rfl
@[simp] theorem State.setObj_keys (i j : Nat) (v : Val) : (s.setObj i j v).keys = s.keys := rfl
@[simp] theorem State.setObj_access (i j : Nat) (v : Val) : (s.setObj i j v).access = s.access := rfl
@[simp] theorem State.setObj_aperture (i j : Nat) (v : Val) : (s.setObj i j v).aperture = s.aperture := rfl
@[simp] theorem State.setObj_hostMem (i j : Nat) (v : Val) : (s.setObj i j v).hostMem = s.hostMem := rfl
@[simp] theorem State.setObj_frames (i j : Nat) (v : Val) : (s.setObj i j v).frames = s.frames := rfl
@[simp] theorem State.setObj_prefetch (i j : Nat) (v : Val) : (s.setObj i j v).prefetch = s.prefetch := rfl
@[simp] theorem State.setObj_nextSeq (i j : Nat) (v : Val) : (s.setObj i j v).nextSeq = s.nextSeq := rfl
@[simp] theorem State.setObj_commits (i j : Nat) (v : Val) : (s.setObj i j v).commits = s.commits := rfl
@[simp] theorem State.setObj_crews (i j : Nat) (v : Val) : (s.setObj i j v).crews = s.crews := rfl
@[simp] theorem State.setObj_layers (i j : Nat) (v : Val) : (s.setObj i j v).layers = s.layers := rfl
@[simp] theorem State.setObj_lanes (i j : Nat) (v : Val) : (s.setObj i j v).lanes = s.lanes := rfl
@[simp] theorem State.setObj_programs (i j : Nat) (v : Val) : (s.setObj i j v).programs = s.programs := rfl
@[simp] theorem State.setObj_cams (i j : Nat) (v : Val) : (s.setObj i j v).cams = s.cams := rfl
@[simp] theorem State.setObj_slots (i j : Nat) (v : Val) : (s.setObj i j v).slots = s.slots := rfl
@[simp] theorem State.setObj_channels (i j : Nat) (v : Val) : (s.setObj i j v).channels = s.channels := rfl
@[simp] theorem State.setObj_mover (i j : Nat) (v : Val) : (s.setObj i j v).mover = s.mover := rfl
@[simp] theorem State.setObj_ports (i j : Nat) (v : Val) : (s.setObj i j v).ports = s.ports := rfl
@[simp] theorem State.setObj_regions (i j : Nat) (v : Val) : (s.setObj i j v).regions = s.regions := rfl
@[simp] theorem State.setObj_umpire (i j : Nat) (v : Val) : (s.setObj i j v).umpire = s.umpire := rfl
@[simp] theorem State.setObj_limp (i j : Nat) (v : Val) : (s.setObj i j v).limp = s.limp := rfl
@[simp] theorem State.setObj_smu (i j : Nat) (v : Val) : (s.setObj i j v).smu = s.smu := rfl
@[simp] theorem State.setObj_sec (i j : Nat) (v : Val) : (s.setObj i j v).sec = s.sec := rfl
@[simp] theorem State.setObj_modes (i j : Nat) (v : Val) : (s.setObj i j v).modes = s.modes := rfl
@[simp] theorem State.setObj_clocks (i j : Nat) (v : Val) : (s.setObj i j v).clocks = s.clocks := rfl
@[simp] theorem State.setObj_placement (i j : Nat) (v : Val) : (s.setObj i j v).placement = s.placement := rfl
@[simp] theorem State.setObj_power (i j : Nat) (v : Val) : (s.setObj i j v).power = s.power := rfl
@[simp] theorem State.setObj_cascade (i j : Nat) (v : Val) : (s.setObj i j v).cascade = s.cascade := rfl
@[simp] theorem State.setObj_nodes (i j : Nat) (v : Val) : (s.setObj i j v).nodes = s.nodes := rfl
@[simp] theorem State.setObj_segments (i j : Nat) (v : Val) : (s.setObj i j v).segments = s.segments := rfl
@[simp] theorem State.setObj_bootQueues (i j : Nat) (v : Val) : (s.setObj i j v).bootQueues = s.bootQueues := rfl
@[simp] theorem State.setObj_panelInit (i j : Nat) (v : Val) : (s.setObj i j v).panelInit = s.panelInit := rfl
@[simp] theorem State.setObj_early (i j : Nat) (v : Val) : (s.setObj i j v).early = s.early := rfl

/-! ### setNum -/

@[simp] theorem State.setNum_pending (i j n : Nat) : (s.setNum i j n).pending = s.pending := rfl
@[simp] theorem State.setNum_now (i j n : Nat) : (s.setNum i j n).now = s.now := rfl
@[simp] theorem State.setNum_freeCount (i j n : Nat) : (s.setNum i j n).freeCount = s.freeCount := rfl
@[simp] theorem State.setNum_out (i j n : Nat) : (s.setNum i j n).out = s.out := rfl
@[simp] theorem State.setNum_objs (i j n : Nat) : (s.setNum i j n).objs = tabSet s.objs (objKey i j) (.num n) := rfl
@[simp] theorem State.setNum_regs (i j n : Nat) : (s.setNum i j n).regs = s.regs := rfl
@[simp] theorem State.setNum_latches (i j n : Nat) : (s.setNum i j n).latches = s.latches := rfl
@[simp] theorem State.setNum_status (i j n : Nat) : (s.setNum i j n).status = s.status := rfl
@[simp] theorem State.setNum_counts (i j n : Nat) : (s.setNum i j n).counts = s.counts := rfl
@[simp] theorem State.setNum_keys (i j n : Nat) : (s.setNum i j n).keys = s.keys := rfl
@[simp] theorem State.setNum_access (i j n : Nat) : (s.setNum i j n).access = s.access := rfl
@[simp] theorem State.setNum_aperture (i j n : Nat) : (s.setNum i j n).aperture = s.aperture := rfl
@[simp] theorem State.setNum_hostMem (i j n : Nat) : (s.setNum i j n).hostMem = s.hostMem := rfl
@[simp] theorem State.setNum_frames (i j n : Nat) : (s.setNum i j n).frames = s.frames := rfl
@[simp] theorem State.setNum_prefetch (i j n : Nat) : (s.setNum i j n).prefetch = s.prefetch := rfl
@[simp] theorem State.setNum_nextSeq (i j n : Nat) : (s.setNum i j n).nextSeq = s.nextSeq := rfl
@[simp] theorem State.setNum_commits (i j n : Nat) : (s.setNum i j n).commits = s.commits := rfl
@[simp] theorem State.setNum_crews (i j n : Nat) : (s.setNum i j n).crews = s.crews := rfl
@[simp] theorem State.setNum_layers (i j n : Nat) : (s.setNum i j n).layers = s.layers := rfl
@[simp] theorem State.setNum_lanes (i j n : Nat) : (s.setNum i j n).lanes = s.lanes := rfl
@[simp] theorem State.setNum_programs (i j n : Nat) : (s.setNum i j n).programs = s.programs := rfl
@[simp] theorem State.setNum_cams (i j n : Nat) : (s.setNum i j n).cams = s.cams := rfl
@[simp] theorem State.setNum_slots (i j n : Nat) : (s.setNum i j n).slots = s.slots := rfl
@[simp] theorem State.setNum_channels (i j n : Nat) : (s.setNum i j n).channels = s.channels := rfl
@[simp] theorem State.setNum_mover (i j n : Nat) : (s.setNum i j n).mover = s.mover := rfl
@[simp] theorem State.setNum_ports (i j n : Nat) : (s.setNum i j n).ports = s.ports := rfl
@[simp] theorem State.setNum_regions (i j n : Nat) : (s.setNum i j n).regions = s.regions := rfl
@[simp] theorem State.setNum_umpire (i j n : Nat) : (s.setNum i j n).umpire = s.umpire := rfl
@[simp] theorem State.setNum_limp (i j n : Nat) : (s.setNum i j n).limp = s.limp := rfl
@[simp] theorem State.setNum_smu (i j n : Nat) : (s.setNum i j n).smu = s.smu := rfl
@[simp] theorem State.setNum_sec (i j n : Nat) : (s.setNum i j n).sec = s.sec := rfl
@[simp] theorem State.setNum_modes (i j n : Nat) : (s.setNum i j n).modes = s.modes := rfl
@[simp] theorem State.setNum_clocks (i j n : Nat) : (s.setNum i j n).clocks = s.clocks := rfl
@[simp] theorem State.setNum_placement (i j n : Nat) : (s.setNum i j n).placement = s.placement := rfl
@[simp] theorem State.setNum_power (i j n : Nat) : (s.setNum i j n).power = s.power := rfl
@[simp] theorem State.setNum_cascade (i j n : Nat) : (s.setNum i j n).cascade = s.cascade := rfl
@[simp] theorem State.setNum_nodes (i j n : Nat) : (s.setNum i j n).nodes = s.nodes := rfl
@[simp] theorem State.setNum_segments (i j n : Nat) : (s.setNum i j n).segments = s.segments := rfl
@[simp] theorem State.setNum_bootQueues (i j n : Nat) : (s.setNum i j n).bootQueues = s.bootQueues := rfl
@[simp] theorem State.setNum_panelInit (i j n : Nat) : (s.setNum i j n).panelInit = s.panelInit := rfl
@[simp] theorem State.setNum_early (i j n : Nat) : (s.setNum i j n).early = s.early := rfl

/-! ### setKey -/

@[simp] theorem State.setKey_pending (k : Nat) (v : Val) : (s.setKey k v).pending = s.pending := rfl
@[simp] theorem State.setKey_now (k : Nat) (v : Val) : (s.setKey k v).now = s.now := rfl
@[simp] theorem State.setKey_freeCount (k : Nat) (v : Val) : (s.setKey k v).freeCount = s.freeCount := rfl
@[simp] theorem State.setKey_out (k : Nat) (v : Val) : (s.setKey k v).out = s.out := rfl
@[simp] theorem State.setKey_objs (k : Nat) (v : Val) : (s.setKey k v).objs = tabSet s.objs k v := rfl
@[simp] theorem State.setKey_regs (k : Nat) (v : Val) : (s.setKey k v).regs = s.regs := rfl
@[simp] theorem State.setKey_latches (k : Nat) (v : Val) : (s.setKey k v).latches = s.latches := rfl
@[simp] theorem State.setKey_status (k : Nat) (v : Val) : (s.setKey k v).status = s.status := rfl
@[simp] theorem State.setKey_counts (k : Nat) (v : Val) : (s.setKey k v).counts = s.counts := rfl
@[simp] theorem State.setKey_keys (k : Nat) (v : Val) : (s.setKey k v).keys = s.keys := rfl
@[simp] theorem State.setKey_access (k : Nat) (v : Val) : (s.setKey k v).access = s.access := rfl
@[simp] theorem State.setKey_aperture (k : Nat) (v : Val) : (s.setKey k v).aperture = s.aperture := rfl
@[simp] theorem State.setKey_hostMem (k : Nat) (v : Val) : (s.setKey k v).hostMem = s.hostMem := rfl
@[simp] theorem State.setKey_frames (k : Nat) (v : Val) : (s.setKey k v).frames = s.frames := rfl
@[simp] theorem State.setKey_prefetch (k : Nat) (v : Val) : (s.setKey k v).prefetch = s.prefetch := rfl
@[simp] theorem State.setKey_nextSeq (k : Nat) (v : Val) : (s.setKey k v).nextSeq = s.nextSeq := rfl
@[simp] theorem State.setKey_commits (k : Nat) (v : Val) : (s.setKey k v).commits = s.commits := rfl
@[simp] theorem State.setKey_crews (k : Nat) (v : Val) : (s.setKey k v).crews = s.crews := rfl
@[simp] theorem State.setKey_layers (k : Nat) (v : Val) : (s.setKey k v).layers = s.layers := rfl
@[simp] theorem State.setKey_lanes (k : Nat) (v : Val) : (s.setKey k v).lanes = s.lanes := rfl
@[simp] theorem State.setKey_programs (k : Nat) (v : Val) : (s.setKey k v).programs = s.programs := rfl
@[simp] theorem State.setKey_cams (k : Nat) (v : Val) : (s.setKey k v).cams = s.cams := rfl
@[simp] theorem State.setKey_slots (k : Nat) (v : Val) : (s.setKey k v).slots = s.slots := rfl
@[simp] theorem State.setKey_channels (k : Nat) (v : Val) : (s.setKey k v).channels = s.channels := rfl
@[simp] theorem State.setKey_mover (k : Nat) (v : Val) : (s.setKey k v).mover = s.mover := rfl
@[simp] theorem State.setKey_ports (k : Nat) (v : Val) : (s.setKey k v).ports = s.ports := rfl
@[simp] theorem State.setKey_regions (k : Nat) (v : Val) : (s.setKey k v).regions = s.regions := rfl
@[simp] theorem State.setKey_umpire (k : Nat) (v : Val) : (s.setKey k v).umpire = s.umpire := rfl
@[simp] theorem State.setKey_limp (k : Nat) (v : Val) : (s.setKey k v).limp = s.limp := rfl
@[simp] theorem State.setKey_smu (k : Nat) (v : Val) : (s.setKey k v).smu = s.smu := rfl
@[simp] theorem State.setKey_sec (k : Nat) (v : Val) : (s.setKey k v).sec = s.sec := rfl
@[simp] theorem State.setKey_modes (k : Nat) (v : Val) : (s.setKey k v).modes = s.modes := rfl
@[simp] theorem State.setKey_clocks (k : Nat) (v : Val) : (s.setKey k v).clocks = s.clocks := rfl
@[simp] theorem State.setKey_placement (k : Nat) (v : Val) : (s.setKey k v).placement = s.placement := rfl
@[simp] theorem State.setKey_power (k : Nat) (v : Val) : (s.setKey k v).power = s.power := rfl
@[simp] theorem State.setKey_cascade (k : Nat) (v : Val) : (s.setKey k v).cascade = s.cascade := rfl
@[simp] theorem State.setKey_nodes (k : Nat) (v : Val) : (s.setKey k v).nodes = s.nodes := rfl
@[simp] theorem State.setKey_segments (k : Nat) (v : Val) : (s.setKey k v).segments = s.segments := rfl
@[simp] theorem State.setKey_bootQueues (k : Nat) (v : Val) : (s.setKey k v).bootQueues = s.bootQueues := rfl
@[simp] theorem State.setKey_panelInit (k : Nat) (v : Val) : (s.setKey k v).panelInit = s.panelInit := rfl
@[simp] theorem State.setKey_early (k : Nat) (v : Val) : (s.setKey k v).early = s.early := rfl

/-! ### setReg -/

@[simp] theorem State.setReg_pending (a v : Nat) : (s.setReg a v).pending = s.pending := rfl
@[simp] theorem State.setReg_now (a v : Nat) : (s.setReg a v).now = s.now := rfl
@[simp] theorem State.setReg_freeCount (a v : Nat) : (s.setReg a v).freeCount = s.freeCount := rfl
@[simp] theorem State.setReg_out (a v : Nat) : (s.setReg a v).out = s.out := rfl
@[simp] theorem State.setReg_objs (a v : Nat) : (s.setReg a v).objs = s.objs := rfl
@[simp] theorem State.setReg_regs (a v : Nat) : (s.setReg a v).regs = tabSet s.regs a (BitVec.ofNat 32 v) := rfl
@[simp] theorem State.setReg_latches (a v : Nat) : (s.setReg a v).latches = s.latches := rfl
@[simp] theorem State.setReg_status (a v : Nat) : (s.setReg a v).status = s.status := rfl
@[simp] theorem State.setReg_counts (a v : Nat) : (s.setReg a v).counts = s.counts := rfl
@[simp] theorem State.setReg_keys (a v : Nat) : (s.setReg a v).keys = s.keys := rfl
@[simp] theorem State.setReg_access (a v : Nat) : (s.setReg a v).access = s.access := rfl
@[simp] theorem State.setReg_aperture (a v : Nat) : (s.setReg a v).aperture = s.aperture := rfl
@[simp] theorem State.setReg_hostMem (a v : Nat) : (s.setReg a v).hostMem = s.hostMem := rfl
@[simp] theorem State.setReg_frames (a v : Nat) : (s.setReg a v).frames = s.frames := rfl
@[simp] theorem State.setReg_prefetch (a v : Nat) : (s.setReg a v).prefetch = s.prefetch := rfl
@[simp] theorem State.setReg_nextSeq (a v : Nat) : (s.setReg a v).nextSeq = s.nextSeq := rfl
@[simp] theorem State.setReg_commits (a v : Nat) : (s.setReg a v).commits = s.commits := rfl
@[simp] theorem State.setReg_crews (a v : Nat) : (s.setReg a v).crews = s.crews := rfl
@[simp] theorem State.setReg_layers (a v : Nat) : (s.setReg a v).layers = s.layers := rfl
@[simp] theorem State.setReg_lanes (a v : Nat) : (s.setReg a v).lanes = s.lanes := rfl
@[simp] theorem State.setReg_programs (a v : Nat) : (s.setReg a v).programs = s.programs := rfl
@[simp] theorem State.setReg_cams (a v : Nat) : (s.setReg a v).cams = s.cams := rfl
@[simp] theorem State.setReg_slots (a v : Nat) : (s.setReg a v).slots = s.slots := rfl
@[simp] theorem State.setReg_channels (a v : Nat) : (s.setReg a v).channels = s.channels := rfl
@[simp] theorem State.setReg_mover (a v : Nat) : (s.setReg a v).mover = s.mover := rfl
@[simp] theorem State.setReg_ports (a v : Nat) : (s.setReg a v).ports = s.ports := rfl
@[simp] theorem State.setReg_regions (a v : Nat) : (s.setReg a v).regions = s.regions := rfl
@[simp] theorem State.setReg_umpire (a v : Nat) : (s.setReg a v).umpire = s.umpire := rfl
@[simp] theorem State.setReg_limp (a v : Nat) : (s.setReg a v).limp = s.limp := rfl
@[simp] theorem State.setReg_smu (a v : Nat) : (s.setReg a v).smu = s.smu := rfl
@[simp] theorem State.setReg_sec (a v : Nat) : (s.setReg a v).sec = s.sec := rfl
@[simp] theorem State.setReg_modes (a v : Nat) : (s.setReg a v).modes = s.modes := rfl
@[simp] theorem State.setReg_clocks (a v : Nat) : (s.setReg a v).clocks = s.clocks := rfl
@[simp] theorem State.setReg_placement (a v : Nat) : (s.setReg a v).placement = s.placement := rfl
@[simp] theorem State.setReg_power (a v : Nat) : (s.setReg a v).power = s.power := rfl
@[simp] theorem State.setReg_cascade (a v : Nat) : (s.setReg a v).cascade = s.cascade := rfl
@[simp] theorem State.setReg_nodes (a v : Nat) : (s.setReg a v).nodes = s.nodes := rfl
@[simp] theorem State.setReg_segments (a v : Nat) : (s.setReg a v).segments = s.segments := rfl
@[simp] theorem State.setReg_bootQueues (a v : Nat) : (s.setReg a v).bootQueues = s.bootQueues := rfl
@[simp] theorem State.setReg_panelInit (a v : Nat) : (s.setReg a v).panelInit = s.panelInit := rfl
@[simp] theorem State.setReg_early (a v : Nat) : (s.setReg a v).early = s.early := rfl

/-! ### modCrew -/

@[simp] theorem State.modCrew_pending (k : Nat) (f : Crew → Crew) : (s.modCrew k f).pending = s.pending := rfl
@[simp] theorem State.modCrew_now (k : Nat) (f : Crew → Crew) : (s.modCrew k f).now = s.now := rfl
@[simp] theorem State.modCrew_freeCount (k : Nat) (f : Crew → Crew) : (s.modCrew k f).freeCount = s.freeCount := rfl
@[simp] theorem State.modCrew_out (k : Nat) (f : Crew → Crew) : (s.modCrew k f).out = s.out := rfl
@[simp] theorem State.modCrew_objs (k : Nat) (f : Crew → Crew) : (s.modCrew k f).objs = s.objs := rfl
@[simp] theorem State.modCrew_regs (k : Nat) (f : Crew → Crew) : (s.modCrew k f).regs = s.regs := rfl
@[simp] theorem State.modCrew_latches (k : Nat) (f : Crew → Crew) : (s.modCrew k f).latches = s.latches := rfl
@[simp] theorem State.modCrew_status (k : Nat) (f : Crew → Crew) : (s.modCrew k f).status = s.status := rfl
@[simp] theorem State.modCrew_counts (k : Nat) (f : Crew → Crew) : (s.modCrew k f).counts = s.counts := rfl
@[simp] theorem State.modCrew_keys (k : Nat) (f : Crew → Crew) : (s.modCrew k f).keys = s.keys := rfl
@[simp] theorem State.modCrew_access (k : Nat) (f : Crew → Crew) : (s.modCrew k f).access = s.access := rfl
@[simp] theorem State.modCrew_aperture (k : Nat) (f : Crew → Crew) : (s.modCrew k f).aperture = s.aperture := rfl
@[simp] theorem State.modCrew_hostMem (k : Nat) (f : Crew → Crew) : (s.modCrew k f).hostMem = s.hostMem := rfl
@[simp] theorem State.modCrew_frames (k : Nat) (f : Crew → Crew) : (s.modCrew k f).frames = s.frames := rfl
@[simp] theorem State.modCrew_prefetch (k : Nat) (f : Crew → Crew) : (s.modCrew k f).prefetch = s.prefetch := rfl
@[simp] theorem State.modCrew_nextSeq (k : Nat) (f : Crew → Crew) : (s.modCrew k f).nextSeq = s.nextSeq := rfl
@[simp] theorem State.modCrew_commits (k : Nat) (f : Crew → Crew) : (s.modCrew k f).commits = s.commits := rfl
@[simp] theorem State.modCrew_crews (k : Nat) (f : Crew → Crew) : (s.modCrew k f).crews = tabMod blankCrew s.crews k f := rfl
@[simp] theorem State.modCrew_layers (k : Nat) (f : Crew → Crew) : (s.modCrew k f).layers = s.layers := rfl
@[simp] theorem State.modCrew_lanes (k : Nat) (f : Crew → Crew) : (s.modCrew k f).lanes = s.lanes := rfl
@[simp] theorem State.modCrew_programs (k : Nat) (f : Crew → Crew) : (s.modCrew k f).programs = s.programs := rfl
@[simp] theorem State.modCrew_cams (k : Nat) (f : Crew → Crew) : (s.modCrew k f).cams = s.cams := rfl
@[simp] theorem State.modCrew_slots (k : Nat) (f : Crew → Crew) : (s.modCrew k f).slots = s.slots := rfl
@[simp] theorem State.modCrew_channels (k : Nat) (f : Crew → Crew) : (s.modCrew k f).channels = s.channels := rfl
@[simp] theorem State.modCrew_mover (k : Nat) (f : Crew → Crew) : (s.modCrew k f).mover = s.mover := rfl
@[simp] theorem State.modCrew_ports (k : Nat) (f : Crew → Crew) : (s.modCrew k f).ports = s.ports := rfl
@[simp] theorem State.modCrew_regions (k : Nat) (f : Crew → Crew) : (s.modCrew k f).regions = s.regions := rfl
@[simp] theorem State.modCrew_umpire (k : Nat) (f : Crew → Crew) : (s.modCrew k f).umpire = s.umpire := rfl
@[simp] theorem State.modCrew_limp (k : Nat) (f : Crew → Crew) : (s.modCrew k f).limp = s.limp := rfl
@[simp] theorem State.modCrew_smu (k : Nat) (f : Crew → Crew) : (s.modCrew k f).smu = s.smu := rfl
@[simp] theorem State.modCrew_sec (k : Nat) (f : Crew → Crew) : (s.modCrew k f).sec = s.sec := rfl
@[simp] theorem State.modCrew_modes (k : Nat) (f : Crew → Crew) : (s.modCrew k f).modes = s.modes := rfl
@[simp] theorem State.modCrew_clocks (k : Nat) (f : Crew → Crew) : (s.modCrew k f).clocks = s.clocks := rfl
@[simp] theorem State.modCrew_placement (k : Nat) (f : Crew → Crew) : (s.modCrew k f).placement = s.placement := rfl
@[simp] theorem State.modCrew_power (k : Nat) (f : Crew → Crew) : (s.modCrew k f).power = s.power := rfl
@[simp] theorem State.modCrew_cascade (k : Nat) (f : Crew → Crew) : (s.modCrew k f).cascade = s.cascade := rfl
@[simp] theorem State.modCrew_nodes (k : Nat) (f : Crew → Crew) : (s.modCrew k f).nodes = s.nodes := rfl
@[simp] theorem State.modCrew_segments (k : Nat) (f : Crew → Crew) : (s.modCrew k f).segments = s.segments := rfl
@[simp] theorem State.modCrew_bootQueues (k : Nat) (f : Crew → Crew) : (s.modCrew k f).bootQueues = s.bootQueues := rfl
@[simp] theorem State.modCrew_panelInit (k : Nat) (f : Crew → Crew) : (s.modCrew k f).panelInit = s.panelInit := rfl
@[simp] theorem State.modCrew_early (k : Nat) (f : Crew → Crew) : (s.modCrew k f).early = s.early := rfl

/-! ### modLayer -/

@[simp] theorem State.modLayer_pending (k : Nat) (f : Layer → Layer) : (s.modLayer k f).pending = s.pending := rfl
@[simp] theorem State.modLayer_now (k : Nat) (f : Layer → Layer) : (s.modLayer k f).now = s.now := rfl
@[simp] theorem State.modLayer_freeCount (k : Nat) (f : Layer → Layer) : (s.modLayer k f).freeCount = s.freeCount := rfl
@[simp] theorem State.modLayer_out (k : Nat) (f : Layer → Layer) : (s.modLayer k f).out = s.out := rfl
@[simp] theorem State.modLayer_objs (k : Nat) (f : Layer → Layer) : (s.modLayer k f).objs = s.objs := rfl
@[simp] theorem State.modLayer_regs (k : Nat) (f : Layer → Layer) : (s.modLayer k f).regs = s.regs := rfl
@[simp] theorem State.modLayer_latches (k : Nat) (f : Layer → Layer) : (s.modLayer k f).latches = s.latches := rfl
@[simp] theorem State.modLayer_status (k : Nat) (f : Layer → Layer) : (s.modLayer k f).status = s.status := rfl
@[simp] theorem State.modLayer_counts (k : Nat) (f : Layer → Layer) : (s.modLayer k f).counts = s.counts := rfl
@[simp] theorem State.modLayer_keys (k : Nat) (f : Layer → Layer) : (s.modLayer k f).keys = s.keys := rfl
@[simp] theorem State.modLayer_access (k : Nat) (f : Layer → Layer) : (s.modLayer k f).access = s.access := rfl
@[simp] theorem State.modLayer_aperture (k : Nat) (f : Layer → Layer) : (s.modLayer k f).aperture = s.aperture := rfl
@[simp] theorem State.modLayer_hostMem (k : Nat) (f : Layer → Layer) : (s.modLayer k f).hostMem = s.hostMem := rfl
@[simp] theorem State.modLayer_frames (k : Nat) (f : Layer → Layer) : (s.modLayer k f).frames = s.frames := rfl
@[simp] theorem State.modLayer_prefetch (k : Nat) (f : Layer → Layer) : (s.modLayer k f).prefetch = s.prefetch := rfl
@[simp] theorem State.modLayer_nextSeq (k : Nat) (f : Layer → Layer) : (s.modLayer k f).nextSeq = s.nextSeq := rfl
@[simp] theorem State.modLayer_commits (k : Nat) (f : Layer → Layer) : (s.modLayer k f).commits = s.commits := rfl
@[simp] theorem State.modLayer_crews (k : Nat) (f : Layer → Layer) : (s.modLayer k f).crews = s.crews := rfl
@[simp] theorem State.modLayer_layers (k : Nat) (f : Layer → Layer) : (s.modLayer k f).layers = tabMod blankLayer s.layers k f := rfl
@[simp] theorem State.modLayer_lanes (k : Nat) (f : Layer → Layer) : (s.modLayer k f).lanes = s.lanes := rfl
@[simp] theorem State.modLayer_programs (k : Nat) (f : Layer → Layer) : (s.modLayer k f).programs = s.programs := rfl
@[simp] theorem State.modLayer_cams (k : Nat) (f : Layer → Layer) : (s.modLayer k f).cams = s.cams := rfl
@[simp] theorem State.modLayer_slots (k : Nat) (f : Layer → Layer) : (s.modLayer k f).slots = s.slots := rfl
@[simp] theorem State.modLayer_channels (k : Nat) (f : Layer → Layer) : (s.modLayer k f).channels = s.channels := rfl
@[simp] theorem State.modLayer_mover (k : Nat) (f : Layer → Layer) : (s.modLayer k f).mover = s.mover := rfl
@[simp] theorem State.modLayer_ports (k : Nat) (f : Layer → Layer) : (s.modLayer k f).ports = s.ports := rfl
@[simp] theorem State.modLayer_regions (k : Nat) (f : Layer → Layer) : (s.modLayer k f).regions = s.regions := rfl
@[simp] theorem State.modLayer_umpire (k : Nat) (f : Layer → Layer) : (s.modLayer k f).umpire = s.umpire := rfl
@[simp] theorem State.modLayer_limp (k : Nat) (f : Layer → Layer) : (s.modLayer k f).limp = s.limp := rfl
@[simp] theorem State.modLayer_smu (k : Nat) (f : Layer → Layer) : (s.modLayer k f).smu = s.smu := rfl
@[simp] theorem State.modLayer_sec (k : Nat) (f : Layer → Layer) : (s.modLayer k f).sec = s.sec := rfl
@[simp] theorem State.modLayer_modes (k : Nat) (f : Layer → Layer) : (s.modLayer k f).modes = s.modes := rfl
@[simp] theorem State.modLayer_clocks (k : Nat) (f : Layer → Layer) : (s.modLayer k f).clocks = s.clocks := rfl
@[simp] theorem State.modLayer_placement (k : Nat) (f : Layer → Layer) : (s.modLayer k f).placement = s.placement := rfl
@[simp] theorem State.modLayer_power (k : Nat) (f : Layer → Layer) : (s.modLayer k f).power = s.power := rfl
@[simp] theorem State.modLayer_cascade (k : Nat) (f : Layer → Layer) : (s.modLayer k f).cascade = s.cascade := rfl
@[simp] theorem State.modLayer_nodes (k : Nat) (f : Layer → Layer) : (s.modLayer k f).nodes = s.nodes := rfl
@[simp] theorem State.modLayer_segments (k : Nat) (f : Layer → Layer) : (s.modLayer k f).segments = s.segments := rfl
@[simp] theorem State.modLayer_bootQueues (k : Nat) (f : Layer → Layer) : (s.modLayer k f).bootQueues = s.bootQueues := rfl
@[simp] theorem State.modLayer_panelInit (k : Nat) (f : Layer → Layer) : (s.modLayer k f).panelInit = s.panelInit := rfl
@[simp] theorem State.modLayer_early (k : Nat) (f : Layer → Layer) : (s.modLayer k f).early = s.early := rfl

/-! ### modLane -/

@[simp] theorem State.modLane_pending (k : Nat) (f : Lane → Lane) : (s.modLane k f).pending = s.pending := rfl
@[simp] theorem State.modLane_now (k : Nat) (f : Lane → Lane) : (s.modLane k f).now = s.now := rfl
@[simp] theorem State.modLane_freeCount (k : Nat) (f : Lane → Lane) : (s.modLane k f).freeCount = s.freeCount := rfl
@[simp] theorem State.modLane_out (k : Nat) (f : Lane → Lane) : (s.modLane k f).out = s.out := rfl
@[simp] theorem State.modLane_objs (k : Nat) (f : Lane → Lane) : (s.modLane k f).objs = s.objs := rfl
@[simp] theorem State.modLane_regs (k : Nat) (f : Lane → Lane) : (s.modLane k f).regs = s.regs := rfl
@[simp] theorem State.modLane_latches (k : Nat) (f : Lane → Lane) : (s.modLane k f).latches = s.latches := rfl
@[simp] theorem State.modLane_status (k : Nat) (f : Lane → Lane) : (s.modLane k f).status = s.status := rfl
@[simp] theorem State.modLane_counts (k : Nat) (f : Lane → Lane) : (s.modLane k f).counts = s.counts := rfl
@[simp] theorem State.modLane_keys (k : Nat) (f : Lane → Lane) : (s.modLane k f).keys = s.keys := rfl
@[simp] theorem State.modLane_access (k : Nat) (f : Lane → Lane) : (s.modLane k f).access = s.access := rfl
@[simp] theorem State.modLane_aperture (k : Nat) (f : Lane → Lane) : (s.modLane k f).aperture = s.aperture := rfl
@[simp] theorem State.modLane_hostMem (k : Nat) (f : Lane → Lane) : (s.modLane k f).hostMem = s.hostMem := rfl
@[simp] theorem State.modLane_frames (k : Nat) (f : Lane → Lane) : (s.modLane k f).frames = s.frames := rfl
@[simp] theorem State.modLane_prefetch (k : Nat) (f : Lane → Lane) : (s.modLane k f).prefetch = s.prefetch := rfl
@[simp] theorem State.modLane_nextSeq (k : Nat) (f : Lane → Lane) : (s.modLane k f).nextSeq = s.nextSeq := rfl
@[simp] theorem State.modLane_commits (k : Nat) (f : Lane → Lane) : (s.modLane k f).commits = s.commits := rfl
@[simp] theorem State.modLane_crews (k : Nat) (f : Lane → Lane) : (s.modLane k f).crews = s.crews := rfl
@[simp] theorem State.modLane_layers (k : Nat) (f : Lane → Lane) : (s.modLane k f).layers = s.layers := rfl
@[simp] theorem State.modLane_lanes (k : Nat) (f : Lane → Lane) : (s.modLane k f).lanes = tabMod blankLane s.lanes k f := rfl
@[simp] theorem State.modLane_programs (k : Nat) (f : Lane → Lane) : (s.modLane k f).programs = s.programs := rfl
@[simp] theorem State.modLane_cams (k : Nat) (f : Lane → Lane) : (s.modLane k f).cams = s.cams := rfl
@[simp] theorem State.modLane_slots (k : Nat) (f : Lane → Lane) : (s.modLane k f).slots = s.slots := rfl
@[simp] theorem State.modLane_channels (k : Nat) (f : Lane → Lane) : (s.modLane k f).channels = s.channels := rfl
@[simp] theorem State.modLane_mover (k : Nat) (f : Lane → Lane) : (s.modLane k f).mover = s.mover := rfl
@[simp] theorem State.modLane_ports (k : Nat) (f : Lane → Lane) : (s.modLane k f).ports = s.ports := rfl
@[simp] theorem State.modLane_regions (k : Nat) (f : Lane → Lane) : (s.modLane k f).regions = s.regions := rfl
@[simp] theorem State.modLane_umpire (k : Nat) (f : Lane → Lane) : (s.modLane k f).umpire = s.umpire := rfl
@[simp] theorem State.modLane_limp (k : Nat) (f : Lane → Lane) : (s.modLane k f).limp = s.limp := rfl
@[simp] theorem State.modLane_smu (k : Nat) (f : Lane → Lane) : (s.modLane k f).smu = s.smu := rfl
@[simp] theorem State.modLane_sec (k : Nat) (f : Lane → Lane) : (s.modLane k f).sec = s.sec := rfl
@[simp] theorem State.modLane_modes (k : Nat) (f : Lane → Lane) : (s.modLane k f).modes = s.modes := rfl
@[simp] theorem State.modLane_clocks (k : Nat) (f : Lane → Lane) : (s.modLane k f).clocks = s.clocks := rfl
@[simp] theorem State.modLane_placement (k : Nat) (f : Lane → Lane) : (s.modLane k f).placement = s.placement := rfl
@[simp] theorem State.modLane_power (k : Nat) (f : Lane → Lane) : (s.modLane k f).power = s.power := rfl
@[simp] theorem State.modLane_cascade (k : Nat) (f : Lane → Lane) : (s.modLane k f).cascade = s.cascade := rfl
@[simp] theorem State.modLane_nodes (k : Nat) (f : Lane → Lane) : (s.modLane k f).nodes = s.nodes := rfl
@[simp] theorem State.modLane_segments (k : Nat) (f : Lane → Lane) : (s.modLane k f).segments = s.segments := rfl
@[simp] theorem State.modLane_bootQueues (k : Nat) (f : Lane → Lane) : (s.modLane k f).bootQueues = s.bootQueues := rfl
@[simp] theorem State.modLane_panelInit (k : Nat) (f : Lane → Lane) : (s.modLane k f).panelInit = s.panelInit := rfl
@[simp] theorem State.modLane_early (k : Nat) (f : Lane → Lane) : (s.modLane k f).early = s.early := rfl

/-! ### modProgram -/

@[simp] theorem State.modProgram_pending (k : Nat) (f : Program → Program) : (s.modProgram k f).pending = s.pending := rfl
@[simp] theorem State.modProgram_now (k : Nat) (f : Program → Program) : (s.modProgram k f).now = s.now := rfl
@[simp] theorem State.modProgram_freeCount (k : Nat) (f : Program → Program) : (s.modProgram k f).freeCount = s.freeCount := rfl
@[simp] theorem State.modProgram_out (k : Nat) (f : Program → Program) : (s.modProgram k f).out = s.out := rfl
@[simp] theorem State.modProgram_objs (k : Nat) (f : Program → Program) : (s.modProgram k f).objs = s.objs := rfl
@[simp] theorem State.modProgram_regs (k : Nat) (f : Program → Program) : (s.modProgram k f).regs = s.regs := rfl
@[simp] theorem State.modProgram_latches (k : Nat) (f : Program → Program) : (s.modProgram k f).latches = s.latches := rfl
@[simp] theorem State.modProgram_status (k : Nat) (f : Program → Program) : (s.modProgram k f).status = s.status := rfl
@[simp] theorem State.modProgram_counts (k : Nat) (f : Program → Program) : (s.modProgram k f).counts = s.counts := rfl
@[simp] theorem State.modProgram_keys (k : Nat) (f : Program → Program) : (s.modProgram k f).keys = s.keys := rfl
@[simp] theorem State.modProgram_access (k : Nat) (f : Program → Program) : (s.modProgram k f).access = s.access := rfl
@[simp] theorem State.modProgram_aperture (k : Nat) (f : Program → Program) : (s.modProgram k f).aperture = s.aperture := rfl
@[simp] theorem State.modProgram_hostMem (k : Nat) (f : Program → Program) : (s.modProgram k f).hostMem = s.hostMem := rfl
@[simp] theorem State.modProgram_frames (k : Nat) (f : Program → Program) : (s.modProgram k f).frames = s.frames := rfl
@[simp] theorem State.modProgram_prefetch (k : Nat) (f : Program → Program) : (s.modProgram k f).prefetch = s.prefetch := rfl
@[simp] theorem State.modProgram_nextSeq (k : Nat) (f : Program → Program) : (s.modProgram k f).nextSeq = s.nextSeq := rfl
@[simp] theorem State.modProgram_commits (k : Nat) (f : Program → Program) : (s.modProgram k f).commits = s.commits := rfl
@[simp] theorem State.modProgram_crews (k : Nat) (f : Program → Program) : (s.modProgram k f).crews = s.crews := rfl
@[simp] theorem State.modProgram_layers (k : Nat) (f : Program → Program) : (s.modProgram k f).layers = s.layers := rfl
@[simp] theorem State.modProgram_lanes (k : Nat) (f : Program → Program) : (s.modProgram k f).lanes = s.lanes := rfl
@[simp] theorem State.modProgram_programs (k : Nat) (f : Program → Program) : (s.modProgram k f).programs = tabMod blankProgram s.programs k f := rfl
@[simp] theorem State.modProgram_cams (k : Nat) (f : Program → Program) : (s.modProgram k f).cams = s.cams := rfl
@[simp] theorem State.modProgram_slots (k : Nat) (f : Program → Program) : (s.modProgram k f).slots = s.slots := rfl
@[simp] theorem State.modProgram_channels (k : Nat) (f : Program → Program) : (s.modProgram k f).channels = s.channels := rfl
@[simp] theorem State.modProgram_mover (k : Nat) (f : Program → Program) : (s.modProgram k f).mover = s.mover := rfl
@[simp] theorem State.modProgram_ports (k : Nat) (f : Program → Program) : (s.modProgram k f).ports = s.ports := rfl
@[simp] theorem State.modProgram_regions (k : Nat) (f : Program → Program) : (s.modProgram k f).regions = s.regions := rfl
@[simp] theorem State.modProgram_umpire (k : Nat) (f : Program → Program) : (s.modProgram k f).umpire = s.umpire := rfl
@[simp] theorem State.modProgram_limp (k : Nat) (f : Program → Program) : (s.modProgram k f).limp = s.limp := rfl
@[simp] theorem State.modProgram_smu (k : Nat) (f : Program → Program) : (s.modProgram k f).smu = s.smu := rfl
@[simp] theorem State.modProgram_sec (k : Nat) (f : Program → Program) : (s.modProgram k f).sec = s.sec := rfl
@[simp] theorem State.modProgram_modes (k : Nat) (f : Program → Program) : (s.modProgram k f).modes = s.modes := rfl
@[simp] theorem State.modProgram_clocks (k : Nat) (f : Program → Program) : (s.modProgram k f).clocks = s.clocks := rfl
@[simp] theorem State.modProgram_placement (k : Nat) (f : Program → Program) : (s.modProgram k f).placement = s.placement := rfl
@[simp] theorem State.modProgram_power (k : Nat) (f : Program → Program) : (s.modProgram k f).power = s.power := rfl
@[simp] theorem State.modProgram_cascade (k : Nat) (f : Program → Program) : (s.modProgram k f).cascade = s.cascade := rfl
@[simp] theorem State.modProgram_nodes (k : Nat) (f : Program → Program) : (s.modProgram k f).nodes = s.nodes := rfl
@[simp] theorem State.modProgram_segments (k : Nat) (f : Program → Program) : (s.modProgram k f).segments = s.segments := rfl
@[simp] theorem State.modProgram_bootQueues (k : Nat) (f : Program → Program) : (s.modProgram k f).bootQueues = s.bootQueues := rfl
@[simp] theorem State.modProgram_panelInit (k : Nat) (f : Program → Program) : (s.modProgram k f).panelInit = s.panelInit := rfl
@[simp] theorem State.modProgram_early (k : Nat) (f : Program → Program) : (s.modProgram k f).early = s.early := rfl

/-! ### modCam -/

@[simp] theorem State.modCam_pending (k : Nat) (f : CamPort → CamPort) : (s.modCam k f).pending = s.pending := rfl
@[simp] theorem State.modCam_now (k : Nat) (f : CamPort → CamPort) : (s.modCam k f).now = s.now := rfl
@[simp] theorem State.modCam_freeCount (k : Nat) (f : CamPort → CamPort) : (s.modCam k f).freeCount = s.freeCount := rfl
@[simp] theorem State.modCam_out (k : Nat) (f : CamPort → CamPort) : (s.modCam k f).out = s.out := rfl
@[simp] theorem State.modCam_objs (k : Nat) (f : CamPort → CamPort) : (s.modCam k f).objs = s.objs := rfl
@[simp] theorem State.modCam_regs (k : Nat) (f : CamPort → CamPort) : (s.modCam k f).regs = s.regs := rfl
@[simp] theorem State.modCam_latches (k : Nat) (f : CamPort → CamPort) : (s.modCam k f).latches = s.latches := rfl
@[simp] theorem State.modCam_status (k : Nat) (f : CamPort → CamPort) : (s.modCam k f).status = s.status := rfl
@[simp] theorem State.modCam_counts (k : Nat) (f : CamPort → CamPort) : (s.modCam k f).counts = s.counts := rfl
@[simp] theorem State.modCam_keys (k : Nat) (f : CamPort → CamPort) : (s.modCam k f).keys = s.keys := rfl
@[simp] theorem State.modCam_access (k : Nat) (f : CamPort → CamPort) : (s.modCam k f).access = s.access := rfl
@[simp] theorem State.modCam_aperture (k : Nat) (f : CamPort → CamPort) : (s.modCam k f).aperture = s.aperture := rfl
@[simp] theorem State.modCam_hostMem (k : Nat) (f : CamPort → CamPort) : (s.modCam k f).hostMem = s.hostMem := rfl
@[simp] theorem State.modCam_frames (k : Nat) (f : CamPort → CamPort) : (s.modCam k f).frames = s.frames := rfl
@[simp] theorem State.modCam_prefetch (k : Nat) (f : CamPort → CamPort) : (s.modCam k f).prefetch = s.prefetch := rfl
@[simp] theorem State.modCam_nextSeq (k : Nat) (f : CamPort → CamPort) : (s.modCam k f).nextSeq = s.nextSeq := rfl
@[simp] theorem State.modCam_commits (k : Nat) (f : CamPort → CamPort) : (s.modCam k f).commits = s.commits := rfl
@[simp] theorem State.modCam_crews (k : Nat) (f : CamPort → CamPort) : (s.modCam k f).crews = s.crews := rfl
@[simp] theorem State.modCam_layers (k : Nat) (f : CamPort → CamPort) : (s.modCam k f).layers = s.layers := rfl
@[simp] theorem State.modCam_lanes (k : Nat) (f : CamPort → CamPort) : (s.modCam k f).lanes = s.lanes := rfl
@[simp] theorem State.modCam_programs (k : Nat) (f : CamPort → CamPort) : (s.modCam k f).programs = s.programs := rfl
@[simp] theorem State.modCam_cams (k : Nat) (f : CamPort → CamPort) : (s.modCam k f).cams = tabMod blankCam s.cams k f := rfl
@[simp] theorem State.modCam_slots (k : Nat) (f : CamPort → CamPort) : (s.modCam k f).slots = s.slots := rfl
@[simp] theorem State.modCam_channels (k : Nat) (f : CamPort → CamPort) : (s.modCam k f).channels = s.channels := rfl
@[simp] theorem State.modCam_mover (k : Nat) (f : CamPort → CamPort) : (s.modCam k f).mover = s.mover := rfl
@[simp] theorem State.modCam_ports (k : Nat) (f : CamPort → CamPort) : (s.modCam k f).ports = s.ports := rfl
@[simp] theorem State.modCam_regions (k : Nat) (f : CamPort → CamPort) : (s.modCam k f).regions = s.regions := rfl
@[simp] theorem State.modCam_umpire (k : Nat) (f : CamPort → CamPort) : (s.modCam k f).umpire = s.umpire := rfl
@[simp] theorem State.modCam_limp (k : Nat) (f : CamPort → CamPort) : (s.modCam k f).limp = s.limp := rfl
@[simp] theorem State.modCam_smu (k : Nat) (f : CamPort → CamPort) : (s.modCam k f).smu = s.smu := rfl
@[simp] theorem State.modCam_sec (k : Nat) (f : CamPort → CamPort) : (s.modCam k f).sec = s.sec := rfl
@[simp] theorem State.modCam_modes (k : Nat) (f : CamPort → CamPort) : (s.modCam k f).modes = s.modes := rfl
@[simp] theorem State.modCam_clocks (k : Nat) (f : CamPort → CamPort) : (s.modCam k f).clocks = s.clocks := rfl
@[simp] theorem State.modCam_placement (k : Nat) (f : CamPort → CamPort) : (s.modCam k f).placement = s.placement := rfl
@[simp] theorem State.modCam_power (k : Nat) (f : CamPort → CamPort) : (s.modCam k f).power = s.power := rfl
@[simp] theorem State.modCam_cascade (k : Nat) (f : CamPort → CamPort) : (s.modCam k f).cascade = s.cascade := rfl
@[simp] theorem State.modCam_nodes (k : Nat) (f : CamPort → CamPort) : (s.modCam k f).nodes = s.nodes := rfl
@[simp] theorem State.modCam_segments (k : Nat) (f : CamPort → CamPort) : (s.modCam k f).segments = s.segments := rfl
@[simp] theorem State.modCam_bootQueues (k : Nat) (f : CamPort → CamPort) : (s.modCam k f).bootQueues = s.bootQueues := rfl
@[simp] theorem State.modCam_panelInit (k : Nat) (f : CamPort → CamPort) : (s.modCam k f).panelInit = s.panelInit := rfl
@[simp] theorem State.modCam_early (k : Nat) (f : CamPort → CamPort) : (s.modCam k f).early = s.early := rfl

/-! ### modSlot -/

@[simp] theorem State.modSlot_pending (k : Nat) (f : Slot → Slot) : (s.modSlot k f).pending = s.pending := rfl
@[simp] theorem State.modSlot_now (k : Nat) (f : Slot → Slot) : (s.modSlot k f).now = s.now := rfl
@[simp] theorem State.modSlot_freeCount (k : Nat) (f : Slot → Slot) : (s.modSlot k f).freeCount = s.freeCount := rfl
@[simp] theorem State.modSlot_out (k : Nat) (f : Slot → Slot) : (s.modSlot k f).out = s.out := rfl
@[simp] theorem State.modSlot_objs (k : Nat) (f : Slot → Slot) : (s.modSlot k f).objs = s.objs := rfl
@[simp] theorem State.modSlot_regs (k : Nat) (f : Slot → Slot) : (s.modSlot k f).regs = s.regs := rfl
@[simp] theorem State.modSlot_latches (k : Nat) (f : Slot → Slot) : (s.modSlot k f).latches = s.latches := rfl
@[simp] theorem State.modSlot_status (k : Nat) (f : Slot → Slot) : (s.modSlot k f).status = s.status := rfl
@[simp] theorem State.modSlot_counts (k : Nat) (f : Slot → Slot) : (s.modSlot k f).counts = s.counts := rfl
@[simp] theorem State.modSlot_keys (k : Nat) (f : Slot → Slot) : (s.modSlot k f).keys = s.keys := rfl
@[simp] theorem State.modSlot_access (k : Nat) (f : Slot → Slot) : (s.modSlot k f).access = s.access := rfl
@[simp] theorem State.modSlot_aperture (k : Nat) (f : Slot → Slot) : (s.modSlot k f).aperture = s.aperture := rfl
@[simp] theorem State.modSlot_hostMem (k : Nat) (f : Slot → Slot) : (s.modSlot k f).hostMem = s.hostMem := rfl
@[simp] theorem State.modSlot_frames (k : Nat) (f : Slot → Slot) : (s.modSlot k f).frames = s.frames := rfl
@[simp] theorem State.modSlot_prefetch (k : Nat) (f : Slot → Slot) : (s.modSlot k f).prefetch = s.prefetch := rfl
@[simp] theorem State.modSlot_nextSeq (k : Nat) (f : Slot → Slot) : (s.modSlot k f).nextSeq = s.nextSeq := rfl
@[simp] theorem State.modSlot_commits (k : Nat) (f : Slot → Slot) : (s.modSlot k f).commits = s.commits := rfl
@[simp] theorem State.modSlot_crews (k : Nat) (f : Slot → Slot) : (s.modSlot k f).crews = s.crews := rfl
@[simp] theorem State.modSlot_layers (k : Nat) (f : Slot → Slot) : (s.modSlot k f).layers = s.layers := rfl
@[simp] theorem State.modSlot_lanes (k : Nat) (f : Slot → Slot) : (s.modSlot k f).lanes = s.lanes := rfl
@[simp] theorem State.modSlot_programs (k : Nat) (f : Slot → Slot) : (s.modSlot k f).programs = s.programs := rfl
@[simp] theorem State.modSlot_cams (k : Nat) (f : Slot → Slot) : (s.modSlot k f).cams = s.cams := rfl
@[simp] theorem State.modSlot_slots (k : Nat) (f : Slot → Slot) : (s.modSlot k f).slots = tabMod blankSlot s.slots k f := rfl
@[simp] theorem State.modSlot_channels (k : Nat) (f : Slot → Slot) : (s.modSlot k f).channels = s.channels := rfl
@[simp] theorem State.modSlot_mover (k : Nat) (f : Slot → Slot) : (s.modSlot k f).mover = s.mover := rfl
@[simp] theorem State.modSlot_ports (k : Nat) (f : Slot → Slot) : (s.modSlot k f).ports = s.ports := rfl
@[simp] theorem State.modSlot_regions (k : Nat) (f : Slot → Slot) : (s.modSlot k f).regions = s.regions := rfl
@[simp] theorem State.modSlot_umpire (k : Nat) (f : Slot → Slot) : (s.modSlot k f).umpire = s.umpire := rfl
@[simp] theorem State.modSlot_limp (k : Nat) (f : Slot → Slot) : (s.modSlot k f).limp = s.limp := rfl
@[simp] theorem State.modSlot_smu (k : Nat) (f : Slot → Slot) : (s.modSlot k f).smu = s.smu := rfl
@[simp] theorem State.modSlot_sec (k : Nat) (f : Slot → Slot) : (s.modSlot k f).sec = s.sec := rfl
@[simp] theorem State.modSlot_modes (k : Nat) (f : Slot → Slot) : (s.modSlot k f).modes = s.modes := rfl
@[simp] theorem State.modSlot_clocks (k : Nat) (f : Slot → Slot) : (s.modSlot k f).clocks = s.clocks := rfl
@[simp] theorem State.modSlot_placement (k : Nat) (f : Slot → Slot) : (s.modSlot k f).placement = s.placement := rfl
@[simp] theorem State.modSlot_power (k : Nat) (f : Slot → Slot) : (s.modSlot k f).power = s.power := rfl
@[simp] theorem State.modSlot_cascade (k : Nat) (f : Slot → Slot) : (s.modSlot k f).cascade = s.cascade := rfl
@[simp] theorem State.modSlot_nodes (k : Nat) (f : Slot → Slot) : (s.modSlot k f).nodes = s.nodes := rfl
@[simp] theorem State.modSlot_segments (k : Nat) (f : Slot → Slot) : (s.modSlot k f).segments = s.segments := rfl
@[simp] theorem State.modSlot_bootQueues (k : Nat) (f : Slot → Slot) : (s.modSlot k f).bootQueues = s.bootQueues := rfl
@[simp] theorem State.modSlot_panelInit (k : Nat) (f : Slot → Slot) : (s.modSlot k f).panelInit = s.panelInit := rfl
@[simp] theorem State.modSlot_early (k : Nat) (f : Slot → Slot) : (s.modSlot k f).early = s.early := rfl

/-! ### modChannel -/

@[simp] theorem State.modChannel_pending (k : Nat) (f : Channel → Channel) : (s.modChannel k f).pending = s.pending := rfl
@[simp] theorem State.modChannel_now (k : Nat) (f : Channel → Channel) : (s.modChannel k f).now = s.now := rfl
@[simp] theorem State.modChannel_freeCount (k : Nat) (f : Channel → Channel) : (s.modChannel k f).freeCount = s.freeCount := rfl
@[simp] theorem State.modChannel_out (k : Nat) (f : Channel → Channel) : (s.modChannel k f).out = s.out := rfl
@[simp] theorem State.modChannel_objs (k : Nat) (f : Channel → Channel) : (s.modChannel k f).objs = s.objs := rfl
@[simp] theorem State.modChannel_regs (k : Nat) (f : Channel → Channel) : (s.modChannel k f).regs = s.regs := rfl
@[simp] theorem State.modChannel_latches (k : Nat) (f : Channel → Channel) : (s.modChannel k f).latches = s.latches := rfl
@[simp] theorem State.modChannel_status (k : Nat) (f : Channel → Channel) : (s.modChannel k f).status = s.status := rfl
@[simp] theorem State.modChannel_counts (k : Nat) (f : Channel → Channel) : (s.modChannel k f).counts = s.counts := rfl
@[simp] theorem State.modChannel_keys (k : Nat) (f : Channel → Channel) : (s.modChannel k f).keys = s.keys := rfl
@[simp] theorem State.modChannel_access (k : Nat) (f : Channel → Channel) : (s.modChannel k f).access = s.access := rfl
@[simp] theorem State.modChannel_aperture (k : Nat) (f : Channel → Channel) : (s.modChannel k f).aperture = s.aperture := rfl
@[simp] theorem State.modChannel_hostMem (k : Nat) (f : Channel → Channel) : (s.modChannel k f).hostMem = s.hostMem := rfl
@[simp] theorem State.modChannel_frames (k : Nat) (f : Channel → Channel) : (s.modChannel k f).frames = s.frames := rfl
@[simp] theorem State.modChannel_prefetch (k : Nat) (f : Channel → Channel) : (s.modChannel k f).prefetch = s.prefetch := rfl
@[simp] theorem State.modChannel_nextSeq (k : Nat) (f : Channel → Channel) : (s.modChannel k f).nextSeq = s.nextSeq := rfl
@[simp] theorem State.modChannel_commits (k : Nat) (f : Channel → Channel) : (s.modChannel k f).commits = s.commits := rfl
@[simp] theorem State.modChannel_crews (k : Nat) (f : Channel → Channel) : (s.modChannel k f).crews = s.crews := rfl
@[simp] theorem State.modChannel_layers (k : Nat) (f : Channel → Channel) : (s.modChannel k f).layers = s.layers := rfl
@[simp] theorem State.modChannel_lanes (k : Nat) (f : Channel → Channel) : (s.modChannel k f).lanes = s.lanes := rfl
@[simp] theorem State.modChannel_programs (k : Nat) (f : Channel → Channel) : (s.modChannel k f).programs = s.programs := rfl
@[simp] theorem State.modChannel_cams (k : Nat) (f : Channel → Channel) : (s.modChannel k f).cams = s.cams := rfl
@[simp] theorem State.modChannel_slots (k : Nat) (f : Channel → Channel) : (s.modChannel k f).slots = s.slots := rfl
@[simp] theorem State.modChannel_channels (k : Nat) (f : Channel → Channel) : (s.modChannel k f).channels = tabMod blankChannel s.channels k f := rfl
@[simp] theorem State.modChannel_mover (k : Nat) (f : Channel → Channel) : (s.modChannel k f).mover = s.mover := rfl
@[simp] theorem State.modChannel_ports (k : Nat) (f : Channel → Channel) : (s.modChannel k f).ports = s.ports := rfl
@[simp] theorem State.modChannel_regions (k : Nat) (f : Channel → Channel) : (s.modChannel k f).regions = s.regions := rfl
@[simp] theorem State.modChannel_umpire (k : Nat) (f : Channel → Channel) : (s.modChannel k f).umpire = s.umpire := rfl
@[simp] theorem State.modChannel_limp (k : Nat) (f : Channel → Channel) : (s.modChannel k f).limp = s.limp := rfl
@[simp] theorem State.modChannel_smu (k : Nat) (f : Channel → Channel) : (s.modChannel k f).smu = s.smu := rfl
@[simp] theorem State.modChannel_sec (k : Nat) (f : Channel → Channel) : (s.modChannel k f).sec = s.sec := rfl
@[simp] theorem State.modChannel_modes (k : Nat) (f : Channel → Channel) : (s.modChannel k f).modes = s.modes := rfl
@[simp] theorem State.modChannel_clocks (k : Nat) (f : Channel → Channel) : (s.modChannel k f).clocks = s.clocks := rfl
@[simp] theorem State.modChannel_placement (k : Nat) (f : Channel → Channel) : (s.modChannel k f).placement = s.placement := rfl
@[simp] theorem State.modChannel_power (k : Nat) (f : Channel → Channel) : (s.modChannel k f).power = s.power := rfl
@[simp] theorem State.modChannel_cascade (k : Nat) (f : Channel → Channel) : (s.modChannel k f).cascade = s.cascade := rfl
@[simp] theorem State.modChannel_nodes (k : Nat) (f : Channel → Channel) : (s.modChannel k f).nodes = s.nodes := rfl
@[simp] theorem State.modChannel_segments (k : Nat) (f : Channel → Channel) : (s.modChannel k f).segments = s.segments := rfl
@[simp] theorem State.modChannel_bootQueues (k : Nat) (f : Channel → Channel) : (s.modChannel k f).bootQueues = s.bootQueues := rfl
@[simp] theorem State.modChannel_panelInit (k : Nat) (f : Channel → Channel) : (s.modChannel k f).panelInit = s.panelInit := rfl
@[simp] theorem State.modChannel_early (k : Nat) (f : Channel → Channel) : (s.modChannel k f).early = s.early := rfl

/-! ### modPort -/

@[simp] theorem State.modPort_pending (k : Nat) (f : Port → Port) : (s.modPort k f).pending = s.pending := rfl
@[simp] theorem State.modPort_now (k : Nat) (f : Port → Port) : (s.modPort k f).now = s.now := rfl
@[simp] theorem State.modPort_freeCount (k : Nat) (f : Port → Port) : (s.modPort k f).freeCount = s.freeCount := rfl
@[simp] theorem State.modPort_out (k : Nat) (f : Port → Port) : (s.modPort k f).out = s.out := rfl
@[simp] theorem State.modPort_objs (k : Nat) (f : Port → Port) : (s.modPort k f).objs = s.objs := rfl
@[simp] theorem State.modPort_regs (k : Nat) (f : Port → Port) : (s.modPort k f).regs = s.regs := rfl
@[simp] theorem State.modPort_latches (k : Nat) (f : Port → Port) : (s.modPort k f).latches = s.latches := rfl
@[simp] theorem State.modPort_status (k : Nat) (f : Port → Port) : (s.modPort k f).status = s.status := rfl
@[simp] theorem State.modPort_counts (k : Nat) (f : Port → Port) : (s.modPort k f).counts = s.counts := rfl
@[simp] theorem State.modPort_keys (k : Nat) (f : Port → Port) : (s.modPort k f).keys = s.keys := rfl
@[simp] theorem State.modPort_access (k : Nat) (f : Port → Port) : (s.modPort k f).access = s.access := rfl
@[simp] theorem State.modPort_aperture (k : Nat) (f : Port → Port) : (s.modPort k f).aperture = s.aperture := rfl
@[simp] theorem State.modPort_hostMem (k : Nat) (f : Port → Port) : (s.modPort k f).hostMem = s.hostMem := rfl
@[simp] theorem State.modPort_frames (k : Nat) (f : Port → Port) : (s.modPort k f).frames = s.frames := rfl
@[simp] theorem State.modPort_prefetch (k : Nat) (f : Port → Port) : (s.modPort k f).prefetch = s.prefetch := rfl
@[simp] theorem State.modPort_nextSeq (k : Nat) (f : Port → Port) : (s.modPort k f).nextSeq = s.nextSeq := rfl
@[simp] theorem State.modPort_commits (k : Nat) (f : Port → Port) : (s.modPort k f).commits = s.commits := rfl
@[simp] theorem State.modPort_crews (k : Nat) (f : Port → Port) : (s.modPort k f).crews = s.crews := rfl
@[simp] theorem State.modPort_layers (k : Nat) (f : Port → Port) : (s.modPort k f).layers = s.layers := rfl
@[simp] theorem State.modPort_lanes (k : Nat) (f : Port → Port) : (s.modPort k f).lanes = s.lanes := rfl
@[simp] theorem State.modPort_programs (k : Nat) (f : Port → Port) : (s.modPort k f).programs = s.programs := rfl
@[simp] theorem State.modPort_cams (k : Nat) (f : Port → Port) : (s.modPort k f).cams = s.cams := rfl
@[simp] theorem State.modPort_slots (k : Nat) (f : Port → Port) : (s.modPort k f).slots = s.slots := rfl
@[simp] theorem State.modPort_channels (k : Nat) (f : Port → Port) : (s.modPort k f).channels = s.channels := rfl
@[simp] theorem State.modPort_mover (k : Nat) (f : Port → Port) : (s.modPort k f).mover = s.mover := rfl
@[simp] theorem State.modPort_ports (k : Nat) (f : Port → Port) : (s.modPort k f).ports = tabMod blankPort s.ports k f := rfl
@[simp] theorem State.modPort_regions (k : Nat) (f : Port → Port) : (s.modPort k f).regions = s.regions := rfl
@[simp] theorem State.modPort_umpire (k : Nat) (f : Port → Port) : (s.modPort k f).umpire = s.umpire := rfl
@[simp] theorem State.modPort_limp (k : Nat) (f : Port → Port) : (s.modPort k f).limp = s.limp := rfl
@[simp] theorem State.modPort_smu (k : Nat) (f : Port → Port) : (s.modPort k f).smu = s.smu := rfl
@[simp] theorem State.modPort_sec (k : Nat) (f : Port → Port) : (s.modPort k f).sec = s.sec := rfl
@[simp] theorem State.modPort_modes (k : Nat) (f : Port → Port) : (s.modPort k f).modes = s.modes := rfl
@[simp] theorem State.modPort_clocks (k : Nat) (f : Port → Port) : (s.modPort k f).clocks = s.clocks := rfl
@[simp] theorem State.modPort_placement (k : Nat) (f : Port → Port) : (s.modPort k f).placement = s.placement := rfl
@[simp] theorem State.modPort_power (k : Nat) (f : Port → Port) : (s.modPort k f).power = s.power := rfl
@[simp] theorem State.modPort_cascade (k : Nat) (f : Port → Port) : (s.modPort k f).cascade = s.cascade := rfl
@[simp] theorem State.modPort_nodes (k : Nat) (f : Port → Port) : (s.modPort k f).nodes = s.nodes := rfl
@[simp] theorem State.modPort_segments (k : Nat) (f : Port → Port) : (s.modPort k f).segments = s.segments := rfl
@[simp] theorem State.modPort_bootQueues (k : Nat) (f : Port → Port) : (s.modPort k f).bootQueues = s.bootQueues := rfl
@[simp] theorem State.modPort_panelInit (k : Nat) (f : Port → Port) : (s.modPort k f).panelInit = s.panelInit := rfl
@[simp] theorem State.modPort_early (k : Nat) (f : Port → Port) : (s.modPort k f).early = s.early := rfl

/-! ### modRegion -/

@[simp] theorem State.modRegion_pending (k : Nat) (f : Region → Region) : (s.modRegion k f).pending = s.pending := rfl
@[simp] theorem State.modRegion_now (k : Nat) (f : Region → Region) : (s.modRegion k f).now = s.now := rfl
@[simp] theorem State.modRegion_freeCount (k : Nat) (f : Region → Region) : (s.modRegion k f).freeCount = s.freeCount := rfl
@[simp] theorem State.modRegion_out (k : Nat) (f : Region → Region) : (s.modRegion k f).out = s.out := rfl
@[simp] theorem State.modRegion_objs (k : Nat) (f : Region → Region) : (s.modRegion k f).objs = s.objs := rfl
@[simp] theorem State.modRegion_regs (k : Nat) (f : Region → Region) : (s.modRegion k f).regs = s.regs := rfl
@[simp] theorem State.modRegion_latches (k : Nat) (f : Region → Region) : (s.modRegion k f).latches = s.latches := rfl
@[simp] theorem State.modRegion_status (k : Nat) (f : Region → Region) : (s.modRegion k f).status = s.status := rfl
@[simp] theorem State.modRegion_counts (k : Nat) (f : Region → Region) : (s.modRegion k f).counts = s.counts := rfl
@[simp] theorem State.modRegion_keys (k : Nat) (f : Region → Region) : (s.modRegion k f).keys = s.keys := rfl
@[simp] theorem State.modRegion_access (k : Nat) (f : Region → Region) : (s.modRegion k f).access = s.access := rfl
@[simp] theorem State.modRegion_aperture (k : Nat) (f : Region → Region) : (s.modRegion k f).aperture = s.aperture := rfl
@[simp] theorem State.modRegion_hostMem (k : Nat) (f : Region → Region) : (s.modRegion k f).hostMem = s.hostMem := rfl
@[simp] theorem State.modRegion_frames (k : Nat) (f : Region → Region) : (s.modRegion k f).frames = s.frames := rfl
@[simp] theorem State.modRegion_prefetch (k : Nat) (f : Region → Region) : (s.modRegion k f).prefetch = s.prefetch := rfl
@[simp] theorem State.modRegion_nextSeq (k : Nat) (f : Region → Region) : (s.modRegion k f).nextSeq = s.nextSeq := rfl
@[simp] theorem State.modRegion_commits (k : Nat) (f : Region → Region) : (s.modRegion k f).commits = s.commits := rfl
@[simp] theorem State.modRegion_crews (k : Nat) (f : Region → Region) : (s.modRegion k f).crews = s.crews := rfl
@[simp] theorem State.modRegion_layers (k : Nat) (f : Region → Region) : (s.modRegion k f).layers = s.layers := rfl
@[simp] theorem State.modRegion_lanes (k : Nat) (f : Region → Region) : (s.modRegion k f).lanes = s.lanes := rfl
@[simp] theorem State.modRegion_programs (k : Nat) (f : Region → Region) : (s.modRegion k f).programs = s.programs := rfl
@[simp] theorem State.modRegion_cams (k : Nat) (f : Region → Region) : (s.modRegion k f).cams = s.cams := rfl
@[simp] theorem State.modRegion_slots (k : Nat) (f : Region → Region) : (s.modRegion k f).slots = s.slots := rfl
@[simp] theorem State.modRegion_channels (k : Nat) (f : Region → Region) : (s.modRegion k f).channels = s.channels := rfl
@[simp] theorem State.modRegion_mover (k : Nat) (f : Region → Region) : (s.modRegion k f).mover = s.mover := rfl
@[simp] theorem State.modRegion_ports (k : Nat) (f : Region → Region) : (s.modRegion k f).ports = s.ports := rfl
@[simp] theorem State.modRegion_regions (k : Nat) (f : Region → Region) : (s.modRegion k f).regions = tabMod blankRegion s.regions k f := rfl
@[simp] theorem State.modRegion_umpire (k : Nat) (f : Region → Region) : (s.modRegion k f).umpire = s.umpire := rfl
@[simp] theorem State.modRegion_limp (k : Nat) (f : Region → Region) : (s.modRegion k f).limp = s.limp := rfl
@[simp] theorem State.modRegion_smu (k : Nat) (f : Region → Region) : (s.modRegion k f).smu = s.smu := rfl
@[simp] theorem State.modRegion_sec (k : Nat) (f : Region → Region) : (s.modRegion k f).sec = s.sec := rfl
@[simp] theorem State.modRegion_modes (k : Nat) (f : Region → Region) : (s.modRegion k f).modes = s.modes := rfl
@[simp] theorem State.modRegion_clocks (k : Nat) (f : Region → Region) : (s.modRegion k f).clocks = s.clocks := rfl
@[simp] theorem State.modRegion_placement (k : Nat) (f : Region → Region) : (s.modRegion k f).placement = s.placement := rfl
@[simp] theorem State.modRegion_power (k : Nat) (f : Region → Region) : (s.modRegion k f).power = s.power := rfl
@[simp] theorem State.modRegion_cascade (k : Nat) (f : Region → Region) : (s.modRegion k f).cascade = s.cascade := rfl
@[simp] theorem State.modRegion_nodes (k : Nat) (f : Region → Region) : (s.modRegion k f).nodes = s.nodes := rfl
@[simp] theorem State.modRegion_segments (k : Nat) (f : Region → Region) : (s.modRegion k f).segments = s.segments := rfl
@[simp] theorem State.modRegion_bootQueues (k : Nat) (f : Region → Region) : (s.modRegion k f).bootQueues = s.bootQueues := rfl
@[simp] theorem State.modRegion_panelInit (k : Nat) (f : Region → Region) : (s.modRegion k f).panelInit = s.panelInit := rfl
@[simp] theorem State.modRegion_early (k : Nat) (f : Region → Region) : (s.modRegion k f).early = s.early := rfl

/-! ### modStatus -/

@[simp] theorem State.modStatus_pending (k : Nat) (f : Status → Status) : (s.modStatus k f).pending = s.pending := rfl
@[simp] theorem State.modStatus_now (k : Nat) (f : Status → Status) : (s.modStatus k f).now = s.now := rfl
@[simp] theorem State.modStatus_freeCount (k : Nat) (f : Status → Status) : (s.modStatus k f).freeCount = s.freeCount := rfl
@[simp] theorem State.modStatus_out (k : Nat) (f : Status → Status) : (s.modStatus k f).out = s.out := rfl
@[simp] theorem State.modStatus_objs (k : Nat) (f : Status → Status) : (s.modStatus k f).objs = s.objs := rfl
@[simp] theorem State.modStatus_regs (k : Nat) (f : Status → Status) : (s.modStatus k f).regs = s.regs := rfl
@[simp] theorem State.modStatus_latches (k : Nat) (f : Status → Status) : (s.modStatus k f).latches = s.latches := rfl
@[simp] theorem State.modStatus_status (k : Nat) (f : Status → Status) : (s.modStatus k f).status = tabMod blankStatus s.status k f := rfl
@[simp] theorem State.modStatus_counts (k : Nat) (f : Status → Status) : (s.modStatus k f).counts = s.counts := rfl
@[simp] theorem State.modStatus_keys (k : Nat) (f : Status → Status) : (s.modStatus k f).keys = s.keys := rfl
@[simp] theorem State.modStatus_access (k : Nat) (f : Status → Status) : (s.modStatus k f).access = s.access := rfl
@[simp] theorem State.modStatus_aperture (k : Nat) (f : Status → Status) : (s.modStatus k f).aperture = s.aperture := rfl
@[simp] theorem State.modStatus_hostMem (k : Nat) (f : Status → Status) : (s.modStatus k f).hostMem = s.hostMem := rfl
@[simp] theorem State.modStatus_frames (k : Nat) (f : Status → Status) : (s.modStatus k f).frames = s.frames := rfl
@[simp] theorem State.modStatus_prefetch (k : Nat) (f : Status → Status) : (s.modStatus k f).prefetch = s.prefetch := rfl
@[simp] theorem State.modStatus_nextSeq (k : Nat) (f : Status → Status) : (s.modStatus k f).nextSeq = s.nextSeq := rfl
@[simp] theorem State.modStatus_commits (k : Nat) (f : Status → Status) : (s.modStatus k f).commits = s.commits := rfl
@[simp] theorem State.modStatus_crews (k : Nat) (f : Status → Status) : (s.modStatus k f).crews = s.crews := rfl
@[simp] theorem State.modStatus_layers (k : Nat) (f : Status → Status) : (s.modStatus k f).layers = s.layers := rfl
@[simp] theorem State.modStatus_lanes (k : Nat) (f : Status → Status) : (s.modStatus k f).lanes = s.lanes := rfl
@[simp] theorem State.modStatus_programs (k : Nat) (f : Status → Status) : (s.modStatus k f).programs = s.programs := rfl
@[simp] theorem State.modStatus_cams (k : Nat) (f : Status → Status) : (s.modStatus k f).cams = s.cams := rfl
@[simp] theorem State.modStatus_slots (k : Nat) (f : Status → Status) : (s.modStatus k f).slots = s.slots := rfl
@[simp] theorem State.modStatus_channels (k : Nat) (f : Status → Status) : (s.modStatus k f).channels = s.channels := rfl
@[simp] theorem State.modStatus_mover (k : Nat) (f : Status → Status) : (s.modStatus k f).mover = s.mover := rfl
@[simp] theorem State.modStatus_ports (k : Nat) (f : Status → Status) : (s.modStatus k f).ports = s.ports := rfl
@[simp] theorem State.modStatus_regions (k : Nat) (f : Status → Status) : (s.modStatus k f).regions = s.regions := rfl
@[simp] theorem State.modStatus_umpire (k : Nat) (f : Status → Status) : (s.modStatus k f).umpire = s.umpire := rfl
@[simp] theorem State.modStatus_limp (k : Nat) (f : Status → Status) : (s.modStatus k f).limp = s.limp := rfl
@[simp] theorem State.modStatus_smu (k : Nat) (f : Status → Status) : (s.modStatus k f).smu = s.smu := rfl
@[simp] theorem State.modStatus_sec (k : Nat) (f : Status → Status) : (s.modStatus k f).sec = s.sec := rfl
@[simp] theorem State.modStatus_modes (k : Nat) (f : Status → Status) : (s.modStatus k f).modes = s.modes := rfl
@[simp] theorem State.modStatus_clocks (k : Nat) (f : Status → Status) : (s.modStatus k f).clocks = s.clocks := rfl
@[simp] theorem State.modStatus_placement (k : Nat) (f : Status → Status) : (s.modStatus k f).placement = s.placement := rfl
@[simp] theorem State.modStatus_power (k : Nat) (f : Status → Status) : (s.modStatus k f).power = s.power := rfl
@[simp] theorem State.modStatus_cascade (k : Nat) (f : Status → Status) : (s.modStatus k f).cascade = s.cascade := rfl
@[simp] theorem State.modStatus_nodes (k : Nat) (f : Status → Status) : (s.modStatus k f).nodes = s.nodes := rfl
@[simp] theorem State.modStatus_segments (k : Nat) (f : Status → Status) : (s.modStatus k f).segments = s.segments := rfl
@[simp] theorem State.modStatus_bootQueues (k : Nat) (f : Status → Status) : (s.modStatus k f).bootQueues = s.bootQueues := rfl
@[simp] theorem State.modStatus_panelInit (k : Nat) (f : Status → Status) : (s.modStatus k f).panelInit = s.panelInit := rfl
@[simp] theorem State.modStatus_early (k : Nat) (f : Status → Status) : (s.modStatus k f).early = s.early := rfl

/-! ### modUmpire -/

@[simp] theorem State.modUmpire_pending (f : Umpire → Umpire) : (s.modUmpire f).pending = s.pending := rfl
@[simp] theorem State.modUmpire_now (f : Umpire → Umpire) : (s.modUmpire f).now = s.now := rfl
@[simp] theorem State.modUmpire_freeCount (f : Umpire → Umpire) : (s.modUmpire f).freeCount = s.freeCount := rfl
@[simp] theorem State.modUmpire_out (f : Umpire → Umpire) : (s.modUmpire f).out = s.out := rfl
@[simp] theorem State.modUmpire_objs (f : Umpire → Umpire) : (s.modUmpire f).objs = s.objs := rfl
@[simp] theorem State.modUmpire_regs (f : Umpire → Umpire) : (s.modUmpire f).regs = s.regs := rfl
@[simp] theorem State.modUmpire_latches (f : Umpire → Umpire) : (s.modUmpire f).latches = s.latches := rfl
@[simp] theorem State.modUmpire_status (f : Umpire → Umpire) : (s.modUmpire f).status = s.status := rfl
@[simp] theorem State.modUmpire_counts (f : Umpire → Umpire) : (s.modUmpire f).counts = s.counts := rfl
@[simp] theorem State.modUmpire_keys (f : Umpire → Umpire) : (s.modUmpire f).keys = s.keys := rfl
@[simp] theorem State.modUmpire_access (f : Umpire → Umpire) : (s.modUmpire f).access = s.access := rfl
@[simp] theorem State.modUmpire_aperture (f : Umpire → Umpire) : (s.modUmpire f).aperture = s.aperture := rfl
@[simp] theorem State.modUmpire_hostMem (f : Umpire → Umpire) : (s.modUmpire f).hostMem = s.hostMem := rfl
@[simp] theorem State.modUmpire_frames (f : Umpire → Umpire) : (s.modUmpire f).frames = s.frames := rfl
@[simp] theorem State.modUmpire_prefetch (f : Umpire → Umpire) : (s.modUmpire f).prefetch = s.prefetch := rfl
@[simp] theorem State.modUmpire_nextSeq (f : Umpire → Umpire) : (s.modUmpire f).nextSeq = s.nextSeq := rfl
@[simp] theorem State.modUmpire_commits (f : Umpire → Umpire) : (s.modUmpire f).commits = s.commits := rfl
@[simp] theorem State.modUmpire_crews (f : Umpire → Umpire) : (s.modUmpire f).crews = s.crews := rfl
@[simp] theorem State.modUmpire_layers (f : Umpire → Umpire) : (s.modUmpire f).layers = s.layers := rfl
@[simp] theorem State.modUmpire_lanes (f : Umpire → Umpire) : (s.modUmpire f).lanes = s.lanes := rfl
@[simp] theorem State.modUmpire_programs (f : Umpire → Umpire) : (s.modUmpire f).programs = s.programs := rfl
@[simp] theorem State.modUmpire_cams (f : Umpire → Umpire) : (s.modUmpire f).cams = s.cams := rfl
@[simp] theorem State.modUmpire_slots (f : Umpire → Umpire) : (s.modUmpire f).slots = s.slots := rfl
@[simp] theorem State.modUmpire_channels (f : Umpire → Umpire) : (s.modUmpire f).channels = s.channels := rfl
@[simp] theorem State.modUmpire_mover (f : Umpire → Umpire) : (s.modUmpire f).mover = s.mover := rfl
@[simp] theorem State.modUmpire_ports (f : Umpire → Umpire) : (s.modUmpire f).ports = s.ports := rfl
@[simp] theorem State.modUmpire_regions (f : Umpire → Umpire) : (s.modUmpire f).regions = s.regions := rfl
@[simp] theorem State.modUmpire_umpire (f : Umpire → Umpire) : (s.modUmpire f).umpire = f s.umpire := rfl
@[simp] theorem State.modUmpire_limp (f : Umpire → Umpire) : (s.modUmpire f).limp = s.limp := rfl
@[simp] theorem State.modUmpire_smu (f : Umpire → Umpire) : (s.modUmpire f).smu = s.smu := rfl
@[simp] theorem State.modUmpire_sec (f : Umpire → Umpire) : (s.modUmpire f).sec = s.sec := rfl
@[simp] theorem State.modUmpire_modes (f : Umpire → Umpire) : (s.modUmpire f).modes = s.modes := rfl
@[simp] theorem State.modUmpire_clocks (f : Umpire → Umpire) : (s.modUmpire f).clocks = s.clocks := rfl
@[simp] theorem State.modUmpire_placement (f : Umpire → Umpire) : (s.modUmpire f).placement = s.placement := rfl
@[simp] theorem State.modUmpire_power (f : Umpire → Umpire) : (s.modUmpire f).power = s.power := rfl
@[simp] theorem State.modUmpire_cascade (f : Umpire → Umpire) : (s.modUmpire f).cascade = s.cascade := rfl
@[simp] theorem State.modUmpire_nodes (f : Umpire → Umpire) : (s.modUmpire f).nodes = s.nodes := rfl
@[simp] theorem State.modUmpire_segments (f : Umpire → Umpire) : (s.modUmpire f).segments = s.segments := rfl
@[simp] theorem State.modUmpire_bootQueues (f : Umpire → Umpire) : (s.modUmpire f).bootQueues = s.bootQueues := rfl
@[simp] theorem State.modUmpire_panelInit (f : Umpire → Umpire) : (s.modUmpire f).panelInit = s.panelInit := rfl
@[simp] theorem State.modUmpire_early (f : Umpire → Umpire) : (s.modUmpire f).early = s.early := rfl

/-! ### modSmu -/

@[simp] theorem State.modSmu_pending (f : Smu → Smu) : (s.modSmu f).pending = s.pending := rfl
@[simp] theorem State.modSmu_now (f : Smu → Smu) : (s.modSmu f).now = s.now := rfl
@[simp] theorem State.modSmu_freeCount (f : Smu → Smu) : (s.modSmu f).freeCount = s.freeCount := rfl
@[simp] theorem State.modSmu_out (f : Smu → Smu) : (s.modSmu f).out = s.out := rfl
@[simp] theorem State.modSmu_objs (f : Smu → Smu) : (s.modSmu f).objs = s.objs := rfl
@[simp] theorem State.modSmu_regs (f : Smu → Smu) : (s.modSmu f).regs = s.regs := rfl
@[simp] theorem State.modSmu_latches (f : Smu → Smu) : (s.modSmu f).latches = s.latches := rfl
@[simp] theorem State.modSmu_status (f : Smu → Smu) : (s.modSmu f).status = s.status := rfl
@[simp] theorem State.modSmu_counts (f : Smu → Smu) : (s.modSmu f).counts = s.counts := rfl
@[simp] theorem State.modSmu_keys (f : Smu → Smu) : (s.modSmu f).keys = s.keys := rfl
@[simp] theorem State.modSmu_access (f : Smu → Smu) : (s.modSmu f).access = s.access := rfl
@[simp] theorem State.modSmu_aperture (f : Smu → Smu) : (s.modSmu f).aperture = s.aperture := rfl
@[simp] theorem State.modSmu_hostMem (f : Smu → Smu) : (s.modSmu f).hostMem = s.hostMem := rfl
@[simp] theorem State.modSmu_frames (f : Smu → Smu) : (s.modSmu f).frames = s.frames := rfl
@[simp] theorem State.modSmu_prefetch (f : Smu → Smu) : (s.modSmu f).prefetch = s.prefetch := rfl
@[simp] theorem State.modSmu_nextSeq (f : Smu → Smu) : (s.modSmu f).nextSeq = s.nextSeq := rfl
@[simp] theorem State.modSmu_commits (f : Smu → Smu) : (s.modSmu f).commits = s.commits := rfl
@[simp] theorem State.modSmu_crews (f : Smu → Smu) : (s.modSmu f).crews = s.crews := rfl
@[simp] theorem State.modSmu_layers (f : Smu → Smu) : (s.modSmu f).layers = s.layers := rfl
@[simp] theorem State.modSmu_lanes (f : Smu → Smu) : (s.modSmu f).lanes = s.lanes := rfl
@[simp] theorem State.modSmu_programs (f : Smu → Smu) : (s.modSmu f).programs = s.programs := rfl
@[simp] theorem State.modSmu_cams (f : Smu → Smu) : (s.modSmu f).cams = s.cams := rfl
@[simp] theorem State.modSmu_slots (f : Smu → Smu) : (s.modSmu f).slots = s.slots := rfl
@[simp] theorem State.modSmu_channels (f : Smu → Smu) : (s.modSmu f).channels = s.channels := rfl
@[simp] theorem State.modSmu_mover (f : Smu → Smu) : (s.modSmu f).mover = s.mover := rfl
@[simp] theorem State.modSmu_ports (f : Smu → Smu) : (s.modSmu f).ports = s.ports := rfl
@[simp] theorem State.modSmu_regions (f : Smu → Smu) : (s.modSmu f).regions = s.regions := rfl
@[simp] theorem State.modSmu_umpire (f : Smu → Smu) : (s.modSmu f).umpire = s.umpire := rfl
@[simp] theorem State.modSmu_limp (f : Smu → Smu) : (s.modSmu f).limp = s.limp := rfl
@[simp] theorem State.modSmu_smu (f : Smu → Smu) : (s.modSmu f).smu = f s.smu := rfl
@[simp] theorem State.modSmu_sec (f : Smu → Smu) : (s.modSmu f).sec = s.sec := rfl
@[simp] theorem State.modSmu_modes (f : Smu → Smu) : (s.modSmu f).modes = s.modes := rfl
@[simp] theorem State.modSmu_clocks (f : Smu → Smu) : (s.modSmu f).clocks = s.clocks := rfl
@[simp] theorem State.modSmu_placement (f : Smu → Smu) : (s.modSmu f).placement = s.placement := rfl
@[simp] theorem State.modSmu_power (f : Smu → Smu) : (s.modSmu f).power = s.power := rfl
@[simp] theorem State.modSmu_cascade (f : Smu → Smu) : (s.modSmu f).cascade = s.cascade := rfl
@[simp] theorem State.modSmu_nodes (f : Smu → Smu) : (s.modSmu f).nodes = s.nodes := rfl
@[simp] theorem State.modSmu_segments (f : Smu → Smu) : (s.modSmu f).segments = s.segments := rfl
@[simp] theorem State.modSmu_bootQueues (f : Smu → Smu) : (s.modSmu f).bootQueues = s.bootQueues := rfl
@[simp] theorem State.modSmu_panelInit (f : Smu → Smu) : (s.modSmu f).panelInit = s.panelInit := rfl
@[simp] theorem State.modSmu_early (f : Smu → Smu) : (s.modSmu f).early = s.early := rfl

/-! ### modSec -/

@[simp] theorem State.modSec_pending (f : Sec → Sec) : (s.modSec f).pending = s.pending := rfl
@[simp] theorem State.modSec_now (f : Sec → Sec) : (s.modSec f).now = s.now := rfl
@[simp] theorem State.modSec_freeCount (f : Sec → Sec) : (s.modSec f).freeCount = s.freeCount := rfl
@[simp] theorem State.modSec_out (f : Sec → Sec) : (s.modSec f).out = s.out := rfl
@[simp] theorem State.modSec_objs (f : Sec → Sec) : (s.modSec f).objs = s.objs := rfl
@[simp] theorem State.modSec_regs (f : Sec → Sec) : (s.modSec f).regs = s.regs := rfl
@[simp] theorem State.modSec_latches (f : Sec → Sec) : (s.modSec f).latches = s.latches := rfl
@[simp] theorem State.modSec_status (f : Sec → Sec) : (s.modSec f).status = s.status := rfl
@[simp] theorem State.modSec_counts (f : Sec → Sec) : (s.modSec f).counts = s.counts := rfl
@[simp] theorem State.modSec_keys (f : Sec → Sec) : (s.modSec f).keys = s.keys := rfl
@[simp] theorem State.modSec_access (f : Sec → Sec) : (s.modSec f).access = s.access := rfl
@[simp] theorem State.modSec_aperture (f : Sec → Sec) : (s.modSec f).aperture = s.aperture := rfl
@[simp] theorem State.modSec_hostMem (f : Sec → Sec) : (s.modSec f).hostMem = s.hostMem := rfl
@[simp] theorem State.modSec_frames (f : Sec → Sec) : (s.modSec f).frames = s.frames := rfl
@[simp] theorem State.modSec_prefetch (f : Sec → Sec) : (s.modSec f).prefetch = s.prefetch := rfl
@[simp] theorem State.modSec_nextSeq (f : Sec → Sec) : (s.modSec f).nextSeq = s.nextSeq := rfl
@[simp] theorem State.modSec_commits (f : Sec → Sec) : (s.modSec f).commits = s.commits := rfl
@[simp] theorem State.modSec_crews (f : Sec → Sec) : (s.modSec f).crews = s.crews := rfl
@[simp] theorem State.modSec_layers (f : Sec → Sec) : (s.modSec f).layers = s.layers := rfl
@[simp] theorem State.modSec_lanes (f : Sec → Sec) : (s.modSec f).lanes = s.lanes := rfl
@[simp] theorem State.modSec_programs (f : Sec → Sec) : (s.modSec f).programs = s.programs := rfl
@[simp] theorem State.modSec_cams (f : Sec → Sec) : (s.modSec f).cams = s.cams := rfl
@[simp] theorem State.modSec_slots (f : Sec → Sec) : (s.modSec f).slots = s.slots := rfl
@[simp] theorem State.modSec_channels (f : Sec → Sec) : (s.modSec f).channels = s.channels := rfl
@[simp] theorem State.modSec_mover (f : Sec → Sec) : (s.modSec f).mover = s.mover := rfl
@[simp] theorem State.modSec_ports (f : Sec → Sec) : (s.modSec f).ports = s.ports := rfl
@[simp] theorem State.modSec_regions (f : Sec → Sec) : (s.modSec f).regions = s.regions := rfl
@[simp] theorem State.modSec_umpire (f : Sec → Sec) : (s.modSec f).umpire = s.umpire := rfl
@[simp] theorem State.modSec_limp (f : Sec → Sec) : (s.modSec f).limp = s.limp := rfl
@[simp] theorem State.modSec_smu (f : Sec → Sec) : (s.modSec f).smu = s.smu := rfl
@[simp] theorem State.modSec_sec (f : Sec → Sec) : (s.modSec f).sec = f s.sec := rfl
@[simp] theorem State.modSec_modes (f : Sec → Sec) : (s.modSec f).modes = s.modes := rfl
@[simp] theorem State.modSec_clocks (f : Sec → Sec) : (s.modSec f).clocks = s.clocks := rfl
@[simp] theorem State.modSec_placement (f : Sec → Sec) : (s.modSec f).placement = s.placement := rfl
@[simp] theorem State.modSec_power (f : Sec → Sec) : (s.modSec f).power = s.power := rfl
@[simp] theorem State.modSec_cascade (f : Sec → Sec) : (s.modSec f).cascade = s.cascade := rfl
@[simp] theorem State.modSec_nodes (f : Sec → Sec) : (s.modSec f).nodes = s.nodes := rfl
@[simp] theorem State.modSec_segments (f : Sec → Sec) : (s.modSec f).segments = s.segments := rfl
@[simp] theorem State.modSec_bootQueues (f : Sec → Sec) : (s.modSec f).bootQueues = s.bootQueues := rfl
@[simp] theorem State.modSec_panelInit (f : Sec → Sec) : (s.modSec f).panelInit = s.panelInit := rfl
@[simp] theorem State.modSec_early (f : Sec → Sec) : (s.modSec f).early = s.early := rfl

/-! ### modModes -/

@[simp] theorem State.modModes_pending (f : Modes → Modes) : (s.modModes f).pending = s.pending := rfl
@[simp] theorem State.modModes_now (f : Modes → Modes) : (s.modModes f).now = s.now := rfl
@[simp] theorem State.modModes_freeCount (f : Modes → Modes) : (s.modModes f).freeCount = s.freeCount := rfl
@[simp] theorem State.modModes_out (f : Modes → Modes) : (s.modModes f).out = s.out := rfl
@[simp] theorem State.modModes_objs (f : Modes → Modes) : (s.modModes f).objs = s.objs := rfl
@[simp] theorem State.modModes_regs (f : Modes → Modes) : (s.modModes f).regs = s.regs := rfl
@[simp] theorem State.modModes_latches (f : Modes → Modes) : (s.modModes f).latches = s.latches := rfl
@[simp] theorem State.modModes_status (f : Modes → Modes) : (s.modModes f).status = s.status := rfl
@[simp] theorem State.modModes_counts (f : Modes → Modes) : (s.modModes f).counts = s.counts := rfl
@[simp] theorem State.modModes_keys (f : Modes → Modes) : (s.modModes f).keys = s.keys := rfl
@[simp] theorem State.modModes_access (f : Modes → Modes) : (s.modModes f).access = s.access := rfl
@[simp] theorem State.modModes_aperture (f : Modes → Modes) : (s.modModes f).aperture = s.aperture := rfl
@[simp] theorem State.modModes_hostMem (f : Modes → Modes) : (s.modModes f).hostMem = s.hostMem := rfl
@[simp] theorem State.modModes_frames (f : Modes → Modes) : (s.modModes f).frames = s.frames := rfl
@[simp] theorem State.modModes_prefetch (f : Modes → Modes) : (s.modModes f).prefetch = s.prefetch := rfl
@[simp] theorem State.modModes_nextSeq (f : Modes → Modes) : (s.modModes f).nextSeq = s.nextSeq := rfl
@[simp] theorem State.modModes_commits (f : Modes → Modes) : (s.modModes f).commits = s.commits := rfl
@[simp] theorem State.modModes_crews (f : Modes → Modes) : (s.modModes f).crews = s.crews := rfl
@[simp] theorem State.modModes_layers (f : Modes → Modes) : (s.modModes f).layers = s.layers := rfl
@[simp] theorem State.modModes_lanes (f : Modes → Modes) : (s.modModes f).lanes = s.lanes := rfl
@[simp] theorem State.modModes_programs (f : Modes → Modes) : (s.modModes f).programs = s.programs := rfl
@[simp] theorem State.modModes_cams (f : Modes → Modes) : (s.modModes f).cams = s.cams := rfl
@[simp] theorem State.modModes_slots (f : Modes → Modes) : (s.modModes f).slots = s.slots := rfl
@[simp] theorem State.modModes_channels (f : Modes → Modes) : (s.modModes f).channels = s.channels := rfl
@[simp] theorem State.modModes_mover (f : Modes → Modes) : (s.modModes f).mover = s.mover := rfl
@[simp] theorem State.modModes_ports (f : Modes → Modes) : (s.modModes f).ports = s.ports := rfl
@[simp] theorem State.modModes_regions (f : Modes → Modes) : (s.modModes f).regions = s.regions := rfl
@[simp] theorem State.modModes_umpire (f : Modes → Modes) : (s.modModes f).umpire = s.umpire := rfl
@[simp] theorem State.modModes_limp (f : Modes → Modes) : (s.modModes f).limp = s.limp := rfl
@[simp] theorem State.modModes_smu (f : Modes → Modes) : (s.modModes f).smu = s.smu := rfl
@[simp] theorem State.modModes_sec (f : Modes → Modes) : (s.modModes f).sec = s.sec := rfl
@[simp] theorem State.modModes_modes (f : Modes → Modes) : (s.modModes f).modes = f s.modes := rfl
@[simp] theorem State.modModes_clocks (f : Modes → Modes) : (s.modModes f).clocks = s.clocks := rfl
@[simp] theorem State.modModes_placement (f : Modes → Modes) : (s.modModes f).placement = s.placement := rfl
@[simp] theorem State.modModes_power (f : Modes → Modes) : (s.modModes f).power = s.power := rfl
@[simp] theorem State.modModes_cascade (f : Modes → Modes) : (s.modModes f).cascade = s.cascade := rfl
@[simp] theorem State.modModes_nodes (f : Modes → Modes) : (s.modModes f).nodes = s.nodes := rfl
@[simp] theorem State.modModes_segments (f : Modes → Modes) : (s.modModes f).segments = s.segments := rfl
@[simp] theorem State.modModes_bootQueues (f : Modes → Modes) : (s.modModes f).bootQueues = s.bootQueues := rfl
@[simp] theorem State.modModes_panelInit (f : Modes → Modes) : (s.modModes f).panelInit = s.panelInit := rfl
@[simp] theorem State.modModes_early (f : Modes → Modes) : (s.modModes f).early = s.early := rfl

/-! ### modClocks -/

@[simp] theorem State.modClocks_pending (f : Clocks → Clocks) : (s.modClocks f).pending = s.pending := rfl
@[simp] theorem State.modClocks_now (f : Clocks → Clocks) : (s.modClocks f).now = s.now := rfl
@[simp] theorem State.modClocks_freeCount (f : Clocks → Clocks) : (s.modClocks f).freeCount = s.freeCount := rfl
@[simp] theorem State.modClocks_out (f : Clocks → Clocks) : (s.modClocks f).out = s.out := rfl
@[simp] theorem State.modClocks_objs (f : Clocks → Clocks) : (s.modClocks f).objs = s.objs := rfl
@[simp] theorem State.modClocks_regs (f : Clocks → Clocks) : (s.modClocks f).regs = s.regs := rfl
@[simp] theorem State.modClocks_latches (f : Clocks → Clocks) : (s.modClocks f).latches = s.latches := rfl
@[simp] theorem State.modClocks_status (f : Clocks → Clocks) : (s.modClocks f).status = s.status := rfl
@[simp] theorem State.modClocks_counts (f : Clocks → Clocks) : (s.modClocks f).counts = s.counts := rfl
@[simp] theorem State.modClocks_keys (f : Clocks → Clocks) : (s.modClocks f).keys = s.keys := rfl
@[simp] theorem State.modClocks_access (f : Clocks → Clocks) : (s.modClocks f).access = s.access := rfl
@[simp] theorem State.modClocks_aperture (f : Clocks → Clocks) : (s.modClocks f).aperture = s.aperture := rfl
@[simp] theorem State.modClocks_hostMem (f : Clocks → Clocks) : (s.modClocks f).hostMem = s.hostMem := rfl
@[simp] theorem State.modClocks_frames (f : Clocks → Clocks) : (s.modClocks f).frames = s.frames := rfl
@[simp] theorem State.modClocks_prefetch (f : Clocks → Clocks) : (s.modClocks f).prefetch = s.prefetch := rfl
@[simp] theorem State.modClocks_nextSeq (f : Clocks → Clocks) : (s.modClocks f).nextSeq = s.nextSeq := rfl
@[simp] theorem State.modClocks_commits (f : Clocks → Clocks) : (s.modClocks f).commits = s.commits := rfl
@[simp] theorem State.modClocks_crews (f : Clocks → Clocks) : (s.modClocks f).crews = s.crews := rfl
@[simp] theorem State.modClocks_layers (f : Clocks → Clocks) : (s.modClocks f).layers = s.layers := rfl
@[simp] theorem State.modClocks_lanes (f : Clocks → Clocks) : (s.modClocks f).lanes = s.lanes := rfl
@[simp] theorem State.modClocks_programs (f : Clocks → Clocks) : (s.modClocks f).programs = s.programs := rfl
@[simp] theorem State.modClocks_cams (f : Clocks → Clocks) : (s.modClocks f).cams = s.cams := rfl
@[simp] theorem State.modClocks_slots (f : Clocks → Clocks) : (s.modClocks f).slots = s.slots := rfl
@[simp] theorem State.modClocks_channels (f : Clocks → Clocks) : (s.modClocks f).channels = s.channels := rfl
@[simp] theorem State.modClocks_mover (f : Clocks → Clocks) : (s.modClocks f).mover = s.mover := rfl
@[simp] theorem State.modClocks_ports (f : Clocks → Clocks) : (s.modClocks f).ports = s.ports := rfl
@[simp] theorem State.modClocks_regions (f : Clocks → Clocks) : (s.modClocks f).regions = s.regions := rfl
@[simp] theorem State.modClocks_umpire (f : Clocks → Clocks) : (s.modClocks f).umpire = s.umpire := rfl
@[simp] theorem State.modClocks_limp (f : Clocks → Clocks) : (s.modClocks f).limp = s.limp := rfl
@[simp] theorem State.modClocks_smu (f : Clocks → Clocks) : (s.modClocks f).smu = s.smu := rfl
@[simp] theorem State.modClocks_sec (f : Clocks → Clocks) : (s.modClocks f).sec = s.sec := rfl
@[simp] theorem State.modClocks_modes (f : Clocks → Clocks) : (s.modClocks f).modes = s.modes := rfl
@[simp] theorem State.modClocks_clocks (f : Clocks → Clocks) : (s.modClocks f).clocks = f s.clocks := rfl
@[simp] theorem State.modClocks_placement (f : Clocks → Clocks) : (s.modClocks f).placement = s.placement := rfl
@[simp] theorem State.modClocks_power (f : Clocks → Clocks) : (s.modClocks f).power = s.power := rfl
@[simp] theorem State.modClocks_cascade (f : Clocks → Clocks) : (s.modClocks f).cascade = s.cascade := rfl
@[simp] theorem State.modClocks_nodes (f : Clocks → Clocks) : (s.modClocks f).nodes = s.nodes := rfl
@[simp] theorem State.modClocks_segments (f : Clocks → Clocks) : (s.modClocks f).segments = s.segments := rfl
@[simp] theorem State.modClocks_bootQueues (f : Clocks → Clocks) : (s.modClocks f).bootQueues = s.bootQueues := rfl
@[simp] theorem State.modClocks_panelInit (f : Clocks → Clocks) : (s.modClocks f).panelInit = s.panelInit := rfl
@[simp] theorem State.modClocks_early (f : Clocks → Clocks) : (s.modClocks f).early = s.early := rfl

/-! ### modPlacement -/

@[simp] theorem State.modPlacement_pending (f : Placement → Placement) : (s.modPlacement f).pending = s.pending := rfl
@[simp] theorem State.modPlacement_now (f : Placement → Placement) : (s.modPlacement f).now = s.now := rfl
@[simp] theorem State.modPlacement_freeCount (f : Placement → Placement) : (s.modPlacement f).freeCount = s.freeCount := rfl
@[simp] theorem State.modPlacement_out (f : Placement → Placement) : (s.modPlacement f).out = s.out := rfl
@[simp] theorem State.modPlacement_objs (f : Placement → Placement) : (s.modPlacement f).objs = s.objs := rfl
@[simp] theorem State.modPlacement_regs (f : Placement → Placement) : (s.modPlacement f).regs = s.regs := rfl
@[simp] theorem State.modPlacement_latches (f : Placement → Placement) : (s.modPlacement f).latches = s.latches := rfl
@[simp] theorem State.modPlacement_status (f : Placement → Placement) : (s.modPlacement f).status = s.status := rfl
@[simp] theorem State.modPlacement_counts (f : Placement → Placement) : (s.modPlacement f).counts = s.counts := rfl
@[simp] theorem State.modPlacement_keys (f : Placement → Placement) : (s.modPlacement f).keys = s.keys := rfl
@[simp] theorem State.modPlacement_access (f : Placement → Placement) : (s.modPlacement f).access = s.access := rfl
@[simp] theorem State.modPlacement_aperture (f : Placement → Placement) : (s.modPlacement f).aperture = s.aperture := rfl
@[simp] theorem State.modPlacement_hostMem (f : Placement → Placement) : (s.modPlacement f).hostMem = s.hostMem := rfl
@[simp] theorem State.modPlacement_frames (f : Placement → Placement) : (s.modPlacement f).frames = s.frames := rfl
@[simp] theorem State.modPlacement_prefetch (f : Placement → Placement) : (s.modPlacement f).prefetch = s.prefetch := rfl
@[simp] theorem State.modPlacement_nextSeq (f : Placement → Placement) : (s.modPlacement f).nextSeq = s.nextSeq := rfl
@[simp] theorem State.modPlacement_commits (f : Placement → Placement) : (s.modPlacement f).commits = s.commits := rfl
@[simp] theorem State.modPlacement_crews (f : Placement → Placement) : (s.modPlacement f).crews = s.crews := rfl
@[simp] theorem State.modPlacement_layers (f : Placement → Placement) : (s.modPlacement f).layers = s.layers := rfl
@[simp] theorem State.modPlacement_lanes (f : Placement → Placement) : (s.modPlacement f).lanes = s.lanes := rfl
@[simp] theorem State.modPlacement_programs (f : Placement → Placement) : (s.modPlacement f).programs = s.programs := rfl
@[simp] theorem State.modPlacement_cams (f : Placement → Placement) : (s.modPlacement f).cams = s.cams := rfl
@[simp] theorem State.modPlacement_slots (f : Placement → Placement) : (s.modPlacement f).slots = s.slots := rfl
@[simp] theorem State.modPlacement_channels (f : Placement → Placement) : (s.modPlacement f).channels = s.channels := rfl
@[simp] theorem State.modPlacement_mover (f : Placement → Placement) : (s.modPlacement f).mover = s.mover := rfl
@[simp] theorem State.modPlacement_ports (f : Placement → Placement) : (s.modPlacement f).ports = s.ports := rfl
@[simp] theorem State.modPlacement_regions (f : Placement → Placement) : (s.modPlacement f).regions = s.regions := rfl
@[simp] theorem State.modPlacement_umpire (f : Placement → Placement) : (s.modPlacement f).umpire = s.umpire := rfl
@[simp] theorem State.modPlacement_limp (f : Placement → Placement) : (s.modPlacement f).limp = s.limp := rfl
@[simp] theorem State.modPlacement_smu (f : Placement → Placement) : (s.modPlacement f).smu = s.smu := rfl
@[simp] theorem State.modPlacement_sec (f : Placement → Placement) : (s.modPlacement f).sec = s.sec := rfl
@[simp] theorem State.modPlacement_modes (f : Placement → Placement) : (s.modPlacement f).modes = s.modes := rfl
@[simp] theorem State.modPlacement_clocks (f : Placement → Placement) : (s.modPlacement f).clocks = s.clocks := rfl
@[simp] theorem State.modPlacement_placement (f : Placement → Placement) : (s.modPlacement f).placement = f s.placement := rfl
@[simp] theorem State.modPlacement_power (f : Placement → Placement) : (s.modPlacement f).power = s.power := rfl
@[simp] theorem State.modPlacement_cascade (f : Placement → Placement) : (s.modPlacement f).cascade = s.cascade := rfl
@[simp] theorem State.modPlacement_nodes (f : Placement → Placement) : (s.modPlacement f).nodes = s.nodes := rfl
@[simp] theorem State.modPlacement_segments (f : Placement → Placement) : (s.modPlacement f).segments = s.segments := rfl
@[simp] theorem State.modPlacement_bootQueues (f : Placement → Placement) : (s.modPlacement f).bootQueues = s.bootQueues := rfl
@[simp] theorem State.modPlacement_panelInit (f : Placement → Placement) : (s.modPlacement f).panelInit = s.panelInit := rfl
@[simp] theorem State.modPlacement_early (f : Placement → Placement) : (s.modPlacement f).early = s.early := rfl

/-! ### modPower -/

@[simp] theorem State.modPower_pending (f : Power → Power) : (s.modPower f).pending = s.pending := rfl
@[simp] theorem State.modPower_now (f : Power → Power) : (s.modPower f).now = s.now := rfl
@[simp] theorem State.modPower_freeCount (f : Power → Power) : (s.modPower f).freeCount = s.freeCount := rfl
@[simp] theorem State.modPower_out (f : Power → Power) : (s.modPower f).out = s.out := rfl
@[simp] theorem State.modPower_objs (f : Power → Power) : (s.modPower f).objs = s.objs := rfl
@[simp] theorem State.modPower_regs (f : Power → Power) : (s.modPower f).regs = s.regs := rfl
@[simp] theorem State.modPower_latches (f : Power → Power) : (s.modPower f).latches = s.latches := rfl
@[simp] theorem State.modPower_status (f : Power → Power) : (s.modPower f).status = s.status := rfl
@[simp] theorem State.modPower_counts (f : Power → Power) : (s.modPower f).counts = s.counts := rfl
@[simp] theorem State.modPower_keys (f : Power → Power) : (s.modPower f).keys = s.keys := rfl
@[simp] theorem State.modPower_access (f : Power → Power) : (s.modPower f).access = s.access := rfl
@[simp] theorem State.modPower_aperture (f : Power → Power) : (s.modPower f).aperture = s.aperture := rfl
@[simp] theorem State.modPower_hostMem (f : Power → Power) : (s.modPower f).hostMem = s.hostMem := rfl
@[simp] theorem State.modPower_frames (f : Power → Power) : (s.modPower f).frames = s.frames := rfl
@[simp] theorem State.modPower_prefetch (f : Power → Power) : (s.modPower f).prefetch = s.prefetch := rfl
@[simp] theorem State.modPower_nextSeq (f : Power → Power) : (s.modPower f).nextSeq = s.nextSeq := rfl
@[simp] theorem State.modPower_commits (f : Power → Power) : (s.modPower f).commits = s.commits := rfl
@[simp] theorem State.modPower_crews (f : Power → Power) : (s.modPower f).crews = s.crews := rfl
@[simp] theorem State.modPower_layers (f : Power → Power) : (s.modPower f).layers = s.layers := rfl
@[simp] theorem State.modPower_lanes (f : Power → Power) : (s.modPower f).lanes = s.lanes := rfl
@[simp] theorem State.modPower_programs (f : Power → Power) : (s.modPower f).programs = s.programs := rfl
@[simp] theorem State.modPower_cams (f : Power → Power) : (s.modPower f).cams = s.cams := rfl
@[simp] theorem State.modPower_slots (f : Power → Power) : (s.modPower f).slots = s.slots := rfl
@[simp] theorem State.modPower_channels (f : Power → Power) : (s.modPower f).channels = s.channels := rfl
@[simp] theorem State.modPower_mover (f : Power → Power) : (s.modPower f).mover = s.mover := rfl
@[simp] theorem State.modPower_ports (f : Power → Power) : (s.modPower f).ports = s.ports := rfl
@[simp] theorem State.modPower_regions (f : Power → Power) : (s.modPower f).regions = s.regions := rfl
@[simp] theorem State.modPower_umpire (f : Power → Power) : (s.modPower f).umpire = s.umpire := rfl
@[simp] theorem State.modPower_limp (f : Power → Power) : (s.modPower f).limp = s.limp := rfl
@[simp] theorem State.modPower_smu (f : Power → Power) : (s.modPower f).smu = s.smu := rfl
@[simp] theorem State.modPower_sec (f : Power → Power) : (s.modPower f).sec = s.sec := rfl
@[simp] theorem State.modPower_modes (f : Power → Power) : (s.modPower f).modes = s.modes := rfl
@[simp] theorem State.modPower_clocks (f : Power → Power) : (s.modPower f).clocks = s.clocks := rfl
@[simp] theorem State.modPower_placement (f : Power → Power) : (s.modPower f).placement = s.placement := rfl
@[simp] theorem State.modPower_power (f : Power → Power) : (s.modPower f).power = f s.power := rfl
@[simp] theorem State.modPower_cascade (f : Power → Power) : (s.modPower f).cascade = s.cascade := rfl
@[simp] theorem State.modPower_nodes (f : Power → Power) : (s.modPower f).nodes = s.nodes := rfl
@[simp] theorem State.modPower_segments (f : Power → Power) : (s.modPower f).segments = s.segments := rfl
@[simp] theorem State.modPower_bootQueues (f : Power → Power) : (s.modPower f).bootQueues = s.bootQueues := rfl
@[simp] theorem State.modPower_panelInit (f : Power → Power) : (s.modPower f).panelInit = s.panelInit := rfl
@[simp] theorem State.modPower_early (f : Power → Power) : (s.modPower f).early = s.early := rfl

/-! ### modCascade -/

@[simp] theorem State.modCascade_pending (f : Cascade → Cascade) : (s.modCascade f).pending = s.pending := rfl
@[simp] theorem State.modCascade_now (f : Cascade → Cascade) : (s.modCascade f).now = s.now := rfl
@[simp] theorem State.modCascade_freeCount (f : Cascade → Cascade) : (s.modCascade f).freeCount = s.freeCount := rfl
@[simp] theorem State.modCascade_out (f : Cascade → Cascade) : (s.modCascade f).out = s.out := rfl
@[simp] theorem State.modCascade_objs (f : Cascade → Cascade) : (s.modCascade f).objs = s.objs := rfl
@[simp] theorem State.modCascade_regs (f : Cascade → Cascade) : (s.modCascade f).regs = s.regs := rfl
@[simp] theorem State.modCascade_latches (f : Cascade → Cascade) : (s.modCascade f).latches = s.latches := rfl
@[simp] theorem State.modCascade_status (f : Cascade → Cascade) : (s.modCascade f).status = s.status := rfl
@[simp] theorem State.modCascade_counts (f : Cascade → Cascade) : (s.modCascade f).counts = s.counts := rfl
@[simp] theorem State.modCascade_keys (f : Cascade → Cascade) : (s.modCascade f).keys = s.keys := rfl
@[simp] theorem State.modCascade_access (f : Cascade → Cascade) : (s.modCascade f).access = s.access := rfl
@[simp] theorem State.modCascade_aperture (f : Cascade → Cascade) : (s.modCascade f).aperture = s.aperture := rfl
@[simp] theorem State.modCascade_hostMem (f : Cascade → Cascade) : (s.modCascade f).hostMem = s.hostMem := rfl
@[simp] theorem State.modCascade_frames (f : Cascade → Cascade) : (s.modCascade f).frames = s.frames := rfl
@[simp] theorem State.modCascade_prefetch (f : Cascade → Cascade) : (s.modCascade f).prefetch = s.prefetch := rfl
@[simp] theorem State.modCascade_nextSeq (f : Cascade → Cascade) : (s.modCascade f).nextSeq = s.nextSeq := rfl
@[simp] theorem State.modCascade_commits (f : Cascade → Cascade) : (s.modCascade f).commits = s.commits := rfl
@[simp] theorem State.modCascade_crews (f : Cascade → Cascade) : (s.modCascade f).crews = s.crews := rfl
@[simp] theorem State.modCascade_layers (f : Cascade → Cascade) : (s.modCascade f).layers = s.layers := rfl
@[simp] theorem State.modCascade_lanes (f : Cascade → Cascade) : (s.modCascade f).lanes = s.lanes := rfl
@[simp] theorem State.modCascade_programs (f : Cascade → Cascade) : (s.modCascade f).programs = s.programs := rfl
@[simp] theorem State.modCascade_cams (f : Cascade → Cascade) : (s.modCascade f).cams = s.cams := rfl
@[simp] theorem State.modCascade_slots (f : Cascade → Cascade) : (s.modCascade f).slots = s.slots := rfl
@[simp] theorem State.modCascade_channels (f : Cascade → Cascade) : (s.modCascade f).channels = s.channels := rfl
@[simp] theorem State.modCascade_mover (f : Cascade → Cascade) : (s.modCascade f).mover = s.mover := rfl
@[simp] theorem State.modCascade_ports (f : Cascade → Cascade) : (s.modCascade f).ports = s.ports := rfl
@[simp] theorem State.modCascade_regions (f : Cascade → Cascade) : (s.modCascade f).regions = s.regions := rfl
@[simp] theorem State.modCascade_umpire (f : Cascade → Cascade) : (s.modCascade f).umpire = s.umpire := rfl
@[simp] theorem State.modCascade_limp (f : Cascade → Cascade) : (s.modCascade f).limp = s.limp := rfl
@[simp] theorem State.modCascade_smu (f : Cascade → Cascade) : (s.modCascade f).smu = s.smu := rfl
@[simp] theorem State.modCascade_sec (f : Cascade → Cascade) : (s.modCascade f).sec = s.sec := rfl
@[simp] theorem State.modCascade_modes (f : Cascade → Cascade) : (s.modCascade f).modes = s.modes := rfl
@[simp] theorem State.modCascade_clocks (f : Cascade → Cascade) : (s.modCascade f).clocks = s.clocks := rfl
@[simp] theorem State.modCascade_placement (f : Cascade → Cascade) : (s.modCascade f).placement = s.placement := rfl
@[simp] theorem State.modCascade_power (f : Cascade → Cascade) : (s.modCascade f).power = s.power := rfl
@[simp] theorem State.modCascade_cascade (f : Cascade → Cascade) : (s.modCascade f).cascade = f s.cascade := rfl
@[simp] theorem State.modCascade_nodes (f : Cascade → Cascade) : (s.modCascade f).nodes = s.nodes := rfl
@[simp] theorem State.modCascade_segments (f : Cascade → Cascade) : (s.modCascade f).segments = s.segments := rfl
@[simp] theorem State.modCascade_bootQueues (f : Cascade → Cascade) : (s.modCascade f).bootQueues = s.bootQueues := rfl
@[simp] theorem State.modCascade_panelInit (f : Cascade → Cascade) : (s.modCascade f).panelInit = s.panelInit := rfl
@[simp] theorem State.modCascade_early (f : Cascade → Cascade) : (s.modCascade f).early = s.early := rfl

/-! ### modAccess -/

@[simp] theorem State.modAccess_pending (f : Access → Access) : (s.modAccess f).pending = s.pending := rfl
@[simp] theorem State.modAccess_now (f : Access → Access) : (s.modAccess f).now = s.now := rfl
@[simp] theorem State.modAccess_freeCount (f : Access → Access) : (s.modAccess f).freeCount = s.freeCount := rfl
@[simp] theorem State.modAccess_out (f : Access → Access) : (s.modAccess f).out = s.out := rfl
@[simp] theorem State.modAccess_objs (f : Access → Access) : (s.modAccess f).objs = s.objs := rfl
@[simp] theorem State.modAccess_regs (f : Access → Access) : (s.modAccess f).regs = s.regs := rfl
@[simp] theorem State.modAccess_latches (f : Access → Access) : (s.modAccess f).latches = s.latches := rfl
@[simp] theorem State.modAccess_status (f : Access → Access) : (s.modAccess f).status = s.status := rfl
@[simp] theorem State.modAccess_counts (f : Access → Access) : (s.modAccess f).counts = s.counts := rfl
@[simp] theorem State.modAccess_keys (f : Access → Access) : (s.modAccess f).keys = s.keys := rfl
@[simp] theorem State.modAccess_access (f : Access → Access) : (s.modAccess f).access = f s.access := rfl
@[simp] theorem State.modAccess_aperture (f : Access → Access) : (s.modAccess f).aperture = s.aperture := rfl
@[simp] theorem State.modAccess_hostMem (f : Access → Access) : (s.modAccess f).hostMem = s.hostMem := rfl
@[simp] theorem State.modAccess_frames (f : Access → Access) : (s.modAccess f).frames = s.frames := rfl
@[simp] theorem State.modAccess_prefetch (f : Access → Access) : (s.modAccess f).prefetch = s.prefetch := rfl
@[simp] theorem State.modAccess_nextSeq (f : Access → Access) : (s.modAccess f).nextSeq = s.nextSeq := rfl
@[simp] theorem State.modAccess_commits (f : Access → Access) : (s.modAccess f).commits = s.commits := rfl
@[simp] theorem State.modAccess_crews (f : Access → Access) : (s.modAccess f).crews = s.crews := rfl
@[simp] theorem State.modAccess_layers (f : Access → Access) : (s.modAccess f).layers = s.layers := rfl
@[simp] theorem State.modAccess_lanes (f : Access → Access) : (s.modAccess f).lanes = s.lanes := rfl
@[simp] theorem State.modAccess_programs (f : Access → Access) : (s.modAccess f).programs = s.programs := rfl
@[simp] theorem State.modAccess_cams (f : Access → Access) : (s.modAccess f).cams = s.cams := rfl
@[simp] theorem State.modAccess_slots (f : Access → Access) : (s.modAccess f).slots = s.slots := rfl
@[simp] theorem State.modAccess_channels (f : Access → Access) : (s.modAccess f).channels = s.channels := rfl
@[simp] theorem State.modAccess_mover (f : Access → Access) : (s.modAccess f).mover = s.mover := rfl
@[simp] theorem State.modAccess_ports (f : Access → Access) : (s.modAccess f).ports = s.ports := rfl
@[simp] theorem State.modAccess_regions (f : Access → Access) : (s.modAccess f).regions = s.regions := rfl
@[simp] theorem State.modAccess_umpire (f : Access → Access) : (s.modAccess f).umpire = s.umpire := rfl
@[simp] theorem State.modAccess_limp (f : Access → Access) : (s.modAccess f).limp = s.limp := rfl
@[simp] theorem State.modAccess_smu (f : Access → Access) : (s.modAccess f).smu = s.smu := rfl
@[simp] theorem State.modAccess_sec (f : Access → Access) : (s.modAccess f).sec = s.sec := rfl
@[simp] theorem State.modAccess_modes (f : Access → Access) : (s.modAccess f).modes = s.modes := rfl
@[simp] theorem State.modAccess_clocks (f : Access → Access) : (s.modAccess f).clocks = s.clocks := rfl
@[simp] theorem State.modAccess_placement (f : Access → Access) : (s.modAccess f).placement = s.placement := rfl
@[simp] theorem State.modAccess_power (f : Access → Access) : (s.modAccess f).power = s.power := rfl
@[simp] theorem State.modAccess_cascade (f : Access → Access) : (s.modAccess f).cascade = s.cascade := rfl
@[simp] theorem State.modAccess_nodes (f : Access → Access) : (s.modAccess f).nodes = s.nodes := rfl
@[simp] theorem State.modAccess_segments (f : Access → Access) : (s.modAccess f).segments = s.segments := rfl
@[simp] theorem State.modAccess_bootQueues (f : Access → Access) : (s.modAccess f).bootQueues = s.bootQueues := rfl
@[simp] theorem State.modAccess_panelInit (f : Access → Access) : (s.modAccess f).panelInit = s.panelInit := rfl
@[simp] theorem State.modAccess_early (f : Access → Access) : (s.modAccess f).early = s.early := rfl

/-! ### modMover -/

@[simp] theorem State.modMover_pending (f : Mover → Mover) : (s.modMover f).pending = s.pending := rfl
@[simp] theorem State.modMover_now (f : Mover → Mover) : (s.modMover f).now = s.now := rfl
@[simp] theorem State.modMover_freeCount (f : Mover → Mover) : (s.modMover f).freeCount = s.freeCount := rfl
@[simp] theorem State.modMover_out (f : Mover → Mover) : (s.modMover f).out = s.out := rfl
@[simp] theorem State.modMover_objs (f : Mover → Mover) : (s.modMover f).objs = s.objs := rfl
@[simp] theorem State.modMover_regs (f : Mover → Mover) : (s.modMover f).regs = s.regs := rfl
@[simp] theorem State.modMover_latches (f : Mover → Mover) : (s.modMover f).latches = s.latches := rfl
@[simp] theorem State.modMover_status (f : Mover → Mover) : (s.modMover f).status = s.status := rfl
@[simp] theorem State.modMover_counts (f : Mover → Mover) : (s.modMover f).counts = s.counts := rfl
@[simp] theorem State.modMover_keys (f : Mover → Mover) : (s.modMover f).keys = s.keys := rfl
@[simp] theorem State.modMover_access (f : Mover → Mover) : (s.modMover f).access = s.access := rfl
@[simp] theorem State.modMover_aperture (f : Mover → Mover) : (s.modMover f).aperture = s.aperture := rfl
@[simp] theorem State.modMover_hostMem (f : Mover → Mover) : (s.modMover f).hostMem = s.hostMem := rfl
@[simp] theorem State.modMover_frames (f : Mover → Mover) : (s.modMover f).frames = s.frames := rfl
@[simp] theorem State.modMover_prefetch (f : Mover → Mover) : (s.modMover f).prefetch = s.prefetch := rfl
@[simp] theorem State.modMover_nextSeq (f : Mover → Mover) : (s.modMover f).nextSeq = s.nextSeq := rfl
@[simp] theorem State.modMover_commits (f : Mover → Mover) : (s.modMover f).commits = s.commits := rfl
@[simp] theorem State.modMover_crews (f : Mover → Mover) : (s.modMover f).crews = s.crews := rfl
@[simp] theorem State.modMover_layers (f : Mover → Mover) : (s.modMover f).layers = s.layers := rfl
@[simp] theorem State.modMover_lanes (f : Mover → Mover) : (s.modMover f).lanes = s.lanes := rfl
@[simp] theorem State.modMover_programs (f : Mover → Mover) : (s.modMover f).programs = s.programs := rfl
@[simp] theorem State.modMover_cams (f : Mover → Mover) : (s.modMover f).cams = s.cams := rfl
@[simp] theorem State.modMover_slots (f : Mover → Mover) : (s.modMover f).slots = s.slots := rfl
@[simp] theorem State.modMover_channels (f : Mover → Mover) : (s.modMover f).channels = s.channels := rfl
@[simp] theorem State.modMover_mover (f : Mover → Mover) : (s.modMover f).mover = f s.mover := rfl
@[simp] theorem State.modMover_ports (f : Mover → Mover) : (s.modMover f).ports = s.ports := rfl
@[simp] theorem State.modMover_regions (f : Mover → Mover) : (s.modMover f).regions = s.regions := rfl
@[simp] theorem State.modMover_umpire (f : Mover → Mover) : (s.modMover f).umpire = s.umpire := rfl
@[simp] theorem State.modMover_limp (f : Mover → Mover) : (s.modMover f).limp = s.limp := rfl
@[simp] theorem State.modMover_smu (f : Mover → Mover) : (s.modMover f).smu = s.smu := rfl
@[simp] theorem State.modMover_sec (f : Mover → Mover) : (s.modMover f).sec = s.sec := rfl
@[simp] theorem State.modMover_modes (f : Mover → Mover) : (s.modMover f).modes = s.modes := rfl
@[simp] theorem State.modMover_clocks (f : Mover → Mover) : (s.modMover f).clocks = s.clocks := rfl
@[simp] theorem State.modMover_placement (f : Mover → Mover) : (s.modMover f).placement = s.placement := rfl
@[simp] theorem State.modMover_power (f : Mover → Mover) : (s.modMover f).power = s.power := rfl
@[simp] theorem State.modMover_cascade (f : Mover → Mover) : (s.modMover f).cascade = s.cascade := rfl
@[simp] theorem State.modMover_nodes (f : Mover → Mover) : (s.modMover f).nodes = s.nodes := rfl
@[simp] theorem State.modMover_segments (f : Mover → Mover) : (s.modMover f).segments = s.segments := rfl
@[simp] theorem State.modMover_bootQueues (f : Mover → Mover) : (s.modMover f).bootQueues = s.bootQueues := rfl
@[simp] theorem State.modMover_panelInit (f : Mover → Mover) : (s.modMover f).panelInit = s.panelInit := rfl
@[simp] theorem State.modMover_early (f : Mover → Mover) : (s.modMover f).early = s.early := rfl

/-! ### modLimp -/

@[simp] theorem State.modLimp_pending (f : Limp → Limp) : (s.modLimp f).pending = s.pending := rfl
@[simp] theorem State.modLimp_now (f : Limp → Limp) : (s.modLimp f).now = s.now := rfl
@[simp] theorem State.modLimp_freeCount (f : Limp → Limp) : (s.modLimp f).freeCount = s.freeCount := rfl
@[simp] theorem State.modLimp_out (f : Limp → Limp) : (s.modLimp f).out = s.out := rfl
@[simp] theorem State.modLimp_objs (f : Limp → Limp) : (s.modLimp f).objs = s.objs := rfl
@[simp] theorem State.modLimp_regs (f : Limp → Limp) : (s.modLimp f).regs = s.regs := rfl
@[simp] theorem State.modLimp_latches (f : Limp → Limp) : (s.modLimp f).latches = s.latches := rfl
@[simp] theorem State.modLimp_status (f : Limp → Limp) : (s.modLimp f).status = s.status := rfl
@[simp] theorem State.modLimp_counts (f : Limp → Limp) : (s.modLimp f).counts = s.counts := rfl
@[simp] theorem State.modLimp_keys (f : Limp → Limp) : (s.modLimp f).keys = s.keys := rfl
@[simp] theorem State.modLimp_access (f : Limp → Limp) : (s.modLimp f).access = s.access := rfl
@[simp] theorem State.modLimp_aperture (f : Limp → Limp) : (s.modLimp f).aperture = s.aperture := rfl
@[simp] theorem State.modLimp_hostMem (f : Limp → Limp) : (s.modLimp f).hostMem = s.hostMem := rfl
@[simp] theorem State.modLimp_frames (f : Limp → Limp) : (s.modLimp f).frames = s.frames := rfl
@[simp] theorem State.modLimp_prefetch (f : Limp → Limp) : (s.modLimp f).prefetch = s.prefetch := rfl
@[simp] theorem State.modLimp_nextSeq (f : Limp → Limp) : (s.modLimp f).nextSeq = s.nextSeq := rfl
@[simp] theorem State.modLimp_commits (f : Limp → Limp) : (s.modLimp f).commits = s.commits := rfl
@[simp] theorem State.modLimp_crews (f : Limp → Limp) : (s.modLimp f).crews = s.crews := rfl
@[simp] theorem State.modLimp_layers (f : Limp → Limp) : (s.modLimp f).layers = s.layers := rfl
@[simp] theorem State.modLimp_lanes (f : Limp → Limp) : (s.modLimp f).lanes = s.lanes := rfl
@[simp] theorem State.modLimp_programs (f : Limp → Limp) : (s.modLimp f).programs = s.programs := rfl
@[simp] theorem State.modLimp_cams (f : Limp → Limp) : (s.modLimp f).cams = s.cams := rfl
@[simp] theorem State.modLimp_slots (f : Limp → Limp) : (s.modLimp f).slots = s.slots := rfl
@[simp] theorem State.modLimp_channels (f : Limp → Limp) : (s.modLimp f).channels = s.channels := rfl
@[simp] theorem State.modLimp_mover (f : Limp → Limp) : (s.modLimp f).mover = s.mover := rfl
@[simp] theorem State.modLimp_ports (f : Limp → Limp) : (s.modLimp f).ports = s.ports := rfl
@[simp] theorem State.modLimp_regions (f : Limp → Limp) : (s.modLimp f).regions = s.regions := rfl
@[simp] theorem State.modLimp_umpire (f : Limp → Limp) : (s.modLimp f).umpire = s.umpire := rfl
@[simp] theorem State.modLimp_limp (f : Limp → Limp) : (s.modLimp f).limp = f s.limp := rfl
@[simp] theorem State.modLimp_smu (f : Limp → Limp) : (s.modLimp f).smu = s.smu := rfl
@[simp] theorem State.modLimp_sec (f : Limp → Limp) : (s.modLimp f).sec = s.sec := rfl
@[simp] theorem State.modLimp_modes (f : Limp → Limp) : (s.modLimp f).modes = s.modes := rfl
@[simp] theorem State.modLimp_clocks (f : Limp → Limp) : (s.modLimp f).clocks = s.clocks := rfl
@[simp] theorem State.modLimp_placement (f : Limp → Limp) : (s.modLimp f).placement = s.placement := rfl
@[simp] theorem State.modLimp_power (f : Limp → Limp) : (s.modLimp f).power = s.power := rfl
@[simp] theorem State.modLimp_cascade (f : Limp → Limp) : (s.modLimp f).cascade = s.cascade := rfl
@[simp] theorem State.modLimp_nodes (f : Limp → Limp) : (s.modLimp f).nodes = s.nodes := rfl
@[simp] theorem State.modLimp_segments (f : Limp → Limp) : (s.modLimp f).segments = s.segments := rfl
@[simp] theorem State.modLimp_bootQueues (f : Limp → Limp) : (s.modLimp f).bootQueues = s.bootQueues := rfl
@[simp] theorem State.modLimp_panelInit (f : Limp → Limp) : (s.modLimp f).panelInit = s.panelInit := rfl
@[simp] theorem State.modLimp_early (f : Limp → Limp) : (s.modLimp f).early = s.early := rfl

/-! ### count -/

@[simp] theorem State.count_pending (o k : Nat) : (s.count o k).pending = s.pending := rfl
@[simp] theorem State.count_now (o k : Nat) : (s.count o k).now = s.now := rfl
@[simp] theorem State.count_freeCount (o k : Nat) : (s.count o k).freeCount = s.freeCount := rfl
@[simp] theorem State.count_out (o k : Nat) : (s.count o k).out = s.out := rfl
@[simp] theorem State.count_objs (o k : Nat) : (s.count o k).objs = s.objs := rfl
@[simp] theorem State.count_regs (o k : Nat) : (s.count o k).regs = s.regs := rfl
@[simp] theorem State.count_latches (o k : Nat) : (s.count o k).latches = s.latches := rfl
@[simp] theorem State.count_status (o k : Nat) : (s.count o k).status = s.status := rfl
@[simp] theorem State.count_counts (o k : Nat) : (s.count o k).counts = { s.counts with live := tabMod 0 s.counts.live o (· + k) } := rfl
@[simp] theorem State.count_keys (o k : Nat) : (s.count o k).keys = s.keys := rfl
@[simp] theorem State.count_access (o k : Nat) : (s.count o k).access = s.access := rfl
@[simp] theorem State.count_aperture (o k : Nat) : (s.count o k).aperture = s.aperture := rfl
@[simp] theorem State.count_hostMem (o k : Nat) : (s.count o k).hostMem = s.hostMem := rfl
@[simp] theorem State.count_frames (o k : Nat) : (s.count o k).frames = s.frames := rfl
@[simp] theorem State.count_prefetch (o k : Nat) : (s.count o k).prefetch = s.prefetch := rfl
@[simp] theorem State.count_nextSeq (o k : Nat) : (s.count o k).nextSeq = s.nextSeq := rfl
@[simp] theorem State.count_commits (o k : Nat) : (s.count o k).commits = s.commits := rfl
@[simp] theorem State.count_crews (o k : Nat) : (s.count o k).crews = s.crews := rfl
@[simp] theorem State.count_layers (o k : Nat) : (s.count o k).layers = s.layers := rfl
@[simp] theorem State.count_lanes (o k : Nat) : (s.count o k).lanes = s.lanes := rfl
@[simp] theorem State.count_programs (o k : Nat) : (s.count o k).programs = s.programs := rfl
@[simp] theorem State.count_cams (o k : Nat) : (s.count o k).cams = s.cams := rfl
@[simp] theorem State.count_slots (o k : Nat) : (s.count o k).slots = s.slots := rfl
@[simp] theorem State.count_channels (o k : Nat) : (s.count o k).channels = s.channels := rfl
@[simp] theorem State.count_mover (o k : Nat) : (s.count o k).mover = s.mover := rfl
@[simp] theorem State.count_ports (o k : Nat) : (s.count o k).ports = s.ports := rfl
@[simp] theorem State.count_regions (o k : Nat) : (s.count o k).regions = s.regions := rfl
@[simp] theorem State.count_umpire (o k : Nat) : (s.count o k).umpire = s.umpire := rfl
@[simp] theorem State.count_limp (o k : Nat) : (s.count o k).limp = s.limp := rfl
@[simp] theorem State.count_smu (o k : Nat) : (s.count o k).smu = s.smu := rfl
@[simp] theorem State.count_sec (o k : Nat) : (s.count o k).sec = s.sec := rfl
@[simp] theorem State.count_modes (o k : Nat) : (s.count o k).modes = s.modes := rfl
@[simp] theorem State.count_clocks (o k : Nat) : (s.count o k).clocks = s.clocks := rfl
@[simp] theorem State.count_placement (o k : Nat) : (s.count o k).placement = s.placement := rfl
@[simp] theorem State.count_power (o k : Nat) : (s.count o k).power = s.power := rfl
@[simp] theorem State.count_cascade (o k : Nat) : (s.count o k).cascade = s.cascade := rfl
@[simp] theorem State.count_nodes (o k : Nat) : (s.count o k).nodes = s.nodes := rfl
@[simp] theorem State.count_segments (o k : Nat) : (s.count o k).segments = s.segments := rfl
@[simp] theorem State.count_bootQueues (o k : Nat) : (s.count o k).bootQueues = s.bootQueues := rfl
@[simp] theorem State.count_panelInit (o k : Nat) : (s.count o k).panelInit = s.panelInit := rfl
@[simp] theorem State.count_early (o k : Nat) : (s.count o k).early = s.early := rfl

/-! ### send -/

@[simp] theorem State.send_pending (o : Out) : (s.send o).pending = s.pending := rfl
@[simp] theorem State.send_now (o : Out) : (s.send o).now = s.now := rfl
@[simp] theorem State.send_freeCount (o : Out) : (s.send o).freeCount = s.freeCount := rfl
@[simp] theorem State.send_out (o : Out) : (s.send o).out = o :: s.out := rfl
@[simp] theorem State.send_objs (o : Out) : (s.send o).objs = s.objs := rfl
@[simp] theorem State.send_regs (o : Out) : (s.send o).regs = s.regs := rfl
@[simp] theorem State.send_latches (o : Out) : (s.send o).latches = s.latches := rfl
@[simp] theorem State.send_status (o : Out) : (s.send o).status = s.status := rfl
@[simp] theorem State.send_counts (o : Out) : (s.send o).counts = s.counts := rfl
@[simp] theorem State.send_keys (o : Out) : (s.send o).keys = s.keys := rfl
@[simp] theorem State.send_access (o : Out) : (s.send o).access = s.access := rfl
@[simp] theorem State.send_aperture (o : Out) : (s.send o).aperture = s.aperture := rfl
@[simp] theorem State.send_hostMem (o : Out) : (s.send o).hostMem = s.hostMem := rfl
@[simp] theorem State.send_frames (o : Out) : (s.send o).frames = s.frames := rfl
@[simp] theorem State.send_prefetch (o : Out) : (s.send o).prefetch = s.prefetch := rfl
@[simp] theorem State.send_nextSeq (o : Out) : (s.send o).nextSeq = s.nextSeq := rfl
@[simp] theorem State.send_commits (o : Out) : (s.send o).commits = s.commits := rfl
@[simp] theorem State.send_crews (o : Out) : (s.send o).crews = s.crews := rfl
@[simp] theorem State.send_layers (o : Out) : (s.send o).layers = s.layers := rfl
@[simp] theorem State.send_lanes (o : Out) : (s.send o).lanes = s.lanes := rfl
@[simp] theorem State.send_programs (o : Out) : (s.send o).programs = s.programs := rfl
@[simp] theorem State.send_cams (o : Out) : (s.send o).cams = s.cams := rfl
@[simp] theorem State.send_slots (o : Out) : (s.send o).slots = s.slots := rfl
@[simp] theorem State.send_channels (o : Out) : (s.send o).channels = s.channels := rfl
@[simp] theorem State.send_mover (o : Out) : (s.send o).mover = s.mover := rfl
@[simp] theorem State.send_ports (o : Out) : (s.send o).ports = s.ports := rfl
@[simp] theorem State.send_regions (o : Out) : (s.send o).regions = s.regions := rfl
@[simp] theorem State.send_umpire (o : Out) : (s.send o).umpire = s.umpire := rfl
@[simp] theorem State.send_limp (o : Out) : (s.send o).limp = s.limp := rfl
@[simp] theorem State.send_smu (o : Out) : (s.send o).smu = s.smu := rfl
@[simp] theorem State.send_sec (o : Out) : (s.send o).sec = s.sec := rfl
@[simp] theorem State.send_modes (o : Out) : (s.send o).modes = s.modes := rfl
@[simp] theorem State.send_clocks (o : Out) : (s.send o).clocks = s.clocks := rfl
@[simp] theorem State.send_placement (o : Out) : (s.send o).placement = s.placement := rfl
@[simp] theorem State.send_power (o : Out) : (s.send o).power = s.power := rfl
@[simp] theorem State.send_cascade (o : Out) : (s.send o).cascade = s.cascade := rfl
@[simp] theorem State.send_nodes (o : Out) : (s.send o).nodes = s.nodes := rfl
@[simp] theorem State.send_segments (o : Out) : (s.send o).segments = s.segments := rfl
@[simp] theorem State.send_bootQueues (o : Out) : (s.send o).bootQueues = s.bootQueues := rfl
@[simp] theorem State.send_panelInit (o : Out) : (s.send o).panelInit = s.panelInit := rfl
@[simp] theorem State.send_early (o : Out) : (s.send o).early = s.early := rfl

/-! ### used -/

@[simp] theorem State.used_pending : (s.used).pending = s.pending := rfl
@[simp] theorem State.used_now : (s.used).now = s.now := rfl
@[simp] theorem State.used_freeCount : (s.used).freeCount = s.freeCount + 1 := rfl
@[simp] theorem State.used_out : (s.used).out = s.out := rfl
@[simp] theorem State.used_objs : (s.used).objs = s.objs := rfl
@[simp] theorem State.used_regs : (s.used).regs = s.regs := rfl
@[simp] theorem State.used_latches : (s.used).latches = s.latches := rfl
@[simp] theorem State.used_status : (s.used).status = s.status := rfl
@[simp] theorem State.used_counts : (s.used).counts = s.counts := rfl
@[simp] theorem State.used_keys : (s.used).keys = s.keys := rfl
@[simp] theorem State.used_access : (s.used).access = s.access := rfl
@[simp] theorem State.used_aperture : (s.used).aperture = s.aperture := rfl
@[simp] theorem State.used_hostMem : (s.used).hostMem = s.hostMem := rfl
@[simp] theorem State.used_frames : (s.used).frames = s.frames := rfl
@[simp] theorem State.used_prefetch : (s.used).prefetch = s.prefetch := rfl
@[simp] theorem State.used_nextSeq : (s.used).nextSeq = s.nextSeq := rfl
@[simp] theorem State.used_commits : (s.used).commits = s.commits := rfl
@[simp] theorem State.used_crews : (s.used).crews = s.crews := rfl
@[simp] theorem State.used_layers : (s.used).layers = s.layers := rfl
@[simp] theorem State.used_lanes : (s.used).lanes = s.lanes := rfl
@[simp] theorem State.used_programs : (s.used).programs = s.programs := rfl
@[simp] theorem State.used_cams : (s.used).cams = s.cams := rfl
@[simp] theorem State.used_slots : (s.used).slots = s.slots := rfl
@[simp] theorem State.used_channels : (s.used).channels = s.channels := rfl
@[simp] theorem State.used_mover : (s.used).mover = s.mover := rfl
@[simp] theorem State.used_ports : (s.used).ports = s.ports := rfl
@[simp] theorem State.used_regions : (s.used).regions = s.regions := rfl
@[simp] theorem State.used_umpire : (s.used).umpire = s.umpire := rfl
@[simp] theorem State.used_limp : (s.used).limp = s.limp := rfl
@[simp] theorem State.used_smu : (s.used).smu = s.smu := rfl
@[simp] theorem State.used_sec : (s.used).sec = s.sec := rfl
@[simp] theorem State.used_modes : (s.used).modes = s.modes := rfl
@[simp] theorem State.used_clocks : (s.used).clocks = s.clocks := rfl
@[simp] theorem State.used_placement : (s.used).placement = s.placement := rfl
@[simp] theorem State.used_power : (s.used).power = s.power := rfl
@[simp] theorem State.used_cascade : (s.used).cascade = s.cascade := rfl
@[simp] theorem State.used_nodes : (s.used).nodes = s.nodes := rfl
@[simp] theorem State.used_segments : (s.used).segments = s.segments := rfl
@[simp] theorem State.used_bootQueues : (s.used).bootQueues = s.bootQueues := rfl
@[simp] theorem State.used_panelInit : (s.used).panelInit = s.panelInit := rfl
@[simp] theorem State.used_early : (s.used).early = s.early := rfl

/-! ### raise -/

@[simp] theorem State.raise_pending (a : Nat) (bs : List Nat) : (s.raise a bs).pending = s.pending := rfl
@[simp] theorem State.raise_now (a : Nat) (bs : List Nat) : (s.raise a bs).now = s.now := rfl
@[simp] theorem State.raise_freeCount (a : Nat) (bs : List Nat) : (s.raise a bs).freeCount = s.freeCount := rfl
@[simp] theorem State.raise_out (a : Nat) (bs : List Nat) : (s.raise a bs).out = s.out := rfl
@[simp] theorem State.raise_objs (a : Nat) (bs : List Nat) : (s.raise a bs).objs = s.objs := rfl
@[simp] theorem State.raise_regs (a : Nat) (bs : List Nat) : (s.raise a bs).regs = s.regs := rfl
@[simp] theorem State.raise_latches (a : Nat) (bs : List Nat) : (s.raise a bs).latches = s.latches := rfl
@[simp] theorem State.raise_status (a : Nat) (bs : List Nat) : (s.raise a bs).status = tabMod blankStatus s.status a (fun st => st.raised bs) := rfl
@[simp] theorem State.raise_counts (a : Nat) (bs : List Nat) : (s.raise a bs).counts = s.counts := rfl
@[simp] theorem State.raise_keys (a : Nat) (bs : List Nat) : (s.raise a bs).keys = s.keys := rfl
@[simp] theorem State.raise_access (a : Nat) (bs : List Nat) : (s.raise a bs).access = s.access := rfl
@[simp] theorem State.raise_aperture (a : Nat) (bs : List Nat) : (s.raise a bs).aperture = s.aperture := rfl
@[simp] theorem State.raise_hostMem (a : Nat) (bs : List Nat) : (s.raise a bs).hostMem = s.hostMem := rfl
@[simp] theorem State.raise_frames (a : Nat) (bs : List Nat) : (s.raise a bs).frames = s.frames := rfl
@[simp] theorem State.raise_prefetch (a : Nat) (bs : List Nat) : (s.raise a bs).prefetch = s.prefetch := rfl
@[simp] theorem State.raise_nextSeq (a : Nat) (bs : List Nat) : (s.raise a bs).nextSeq = s.nextSeq := rfl
@[simp] theorem State.raise_commits (a : Nat) (bs : List Nat) : (s.raise a bs).commits = s.commits := rfl
@[simp] theorem State.raise_crews (a : Nat) (bs : List Nat) : (s.raise a bs).crews = s.crews := rfl
@[simp] theorem State.raise_layers (a : Nat) (bs : List Nat) : (s.raise a bs).layers = s.layers := rfl
@[simp] theorem State.raise_lanes (a : Nat) (bs : List Nat) : (s.raise a bs).lanes = s.lanes := rfl
@[simp] theorem State.raise_programs (a : Nat) (bs : List Nat) : (s.raise a bs).programs = s.programs := rfl
@[simp] theorem State.raise_cams (a : Nat) (bs : List Nat) : (s.raise a bs).cams = s.cams := rfl
@[simp] theorem State.raise_slots (a : Nat) (bs : List Nat) : (s.raise a bs).slots = s.slots := rfl
@[simp] theorem State.raise_channels (a : Nat) (bs : List Nat) : (s.raise a bs).channels = s.channels := rfl
@[simp] theorem State.raise_mover (a : Nat) (bs : List Nat) : (s.raise a bs).mover = s.mover := rfl
@[simp] theorem State.raise_ports (a : Nat) (bs : List Nat) : (s.raise a bs).ports = s.ports := rfl
@[simp] theorem State.raise_regions (a : Nat) (bs : List Nat) : (s.raise a bs).regions = s.regions := rfl
@[simp] theorem State.raise_umpire (a : Nat) (bs : List Nat) : (s.raise a bs).umpire = s.umpire := rfl
@[simp] theorem State.raise_limp (a : Nat) (bs : List Nat) : (s.raise a bs).limp = s.limp := rfl
@[simp] theorem State.raise_smu (a : Nat) (bs : List Nat) : (s.raise a bs).smu = s.smu := rfl
@[simp] theorem State.raise_sec (a : Nat) (bs : List Nat) : (s.raise a bs).sec = s.sec := rfl
@[simp] theorem State.raise_modes (a : Nat) (bs : List Nat) : (s.raise a bs).modes = s.modes := rfl
@[simp] theorem State.raise_clocks (a : Nat) (bs : List Nat) : (s.raise a bs).clocks = s.clocks := rfl
@[simp] theorem State.raise_placement (a : Nat) (bs : List Nat) : (s.raise a bs).placement = s.placement := rfl
@[simp] theorem State.raise_power (a : Nat) (bs : List Nat) : (s.raise a bs).power = s.power := rfl
@[simp] theorem State.raise_cascade (a : Nat) (bs : List Nat) : (s.raise a bs).cascade = s.cascade := rfl
@[simp] theorem State.raise_nodes (a : Nat) (bs : List Nat) : (s.raise a bs).nodes = s.nodes := rfl
@[simp] theorem State.raise_segments (a : Nat) (bs : List Nat) : (s.raise a bs).segments = s.segments := rfl
@[simp] theorem State.raise_bootQueues (a : Nat) (bs : List Nat) : (s.raise a bs).bootQueues = s.bootQueues := rfl
@[simp] theorem State.raise_panelInit (a : Nat) (bs : List Nat) : (s.raise a bs).panelInit = s.panelInit := rfl
@[simp] theorem State.raise_early (a : Nat) (bs : List Nat) : (s.raise a bs).early = s.early := rfl

/-! ### The entry of a table -/

@[simp] theorem State.crew_modCrew (k j : Nat) (f : Crew → Crew) : (s.modCrew k f).crew j = if k = j then f (s.crew j) else s.crew j := by
  exact tabGet_tabMod _ _ _ _ _

@[simp] theorem State.layer_modLayer (k j : Nat) (f : Layer → Layer) : (s.modLayer k f).layer j = if k = j then f (s.layer j) else s.layer j := by
  exact tabGet_tabMod _ _ _ _ _

@[simp] theorem State.lane_modLane (k j : Nat) (f : Lane → Lane) : (s.modLane k f).lane j = if k = j then f (s.lane j) else s.lane j := by
  exact tabGet_tabMod _ _ _ _ _

@[simp] theorem State.program_modProgram (k j : Nat) (f : Program → Program) : (s.modProgram k f).program j = if k = j then f (s.program j) else s.program j := by
  exact tabGet_tabMod _ _ _ _ _

@[simp] theorem State.cam_modCam (k j : Nat) (f : CamPort → CamPort) : (s.modCam k f).cam j = if k = j then f (s.cam j) else s.cam j := by
  exact tabGet_tabMod _ _ _ _ _

@[simp] theorem State.slot_modSlot (k j : Nat) (f : Slot → Slot) : (s.modSlot k f).slot j = if k = j then f (s.slot j) else s.slot j := by
  exact tabGet_tabMod _ _ _ _ _

@[simp] theorem State.channel_modChannel (k j : Nat) (f : Channel → Channel) : (s.modChannel k f).channel j = if k = j then f (s.channel j) else s.channel j := by
  exact tabGet_tabMod _ _ _ _ _

@[simp] theorem State.port_modPort (k j : Nat) (f : Port → Port) : (s.modPort k f).port j = if k = j then f (s.port j) else s.port j := by
  exact tabGet_tabMod _ _ _ _ _

@[simp] theorem State.region_modRegion (k j : Nat) (f : Region → Region) : (s.modRegion k f).region j = if k = j then f (s.region j) else s.region j := by
  exact tabGet_tabMod _ _ _ _ _

@[simp] theorem State.statusAt_modStatus (k j : Nat) (f : Status → Status) : (s.modStatus k f).statusAt j = if k = j then f (s.statusAt j) else s.statusAt j := by
  exact tabGet_tabMod _ _ _ _ _

/-! ### What an update leaves of each entry and test -/

@[simp] theorem State.tick_crew (dt : Nat) (z : Nat) : (s.tick dt).crew z = s.crew z := rfl
@[simp] theorem State.tick_layer (dt : Nat) (z : Nat) : (s.tick dt).layer z = s.layer z := rfl
@[simp] theorem State.tick_lane (dt : Nat) (z : Nat) : (s.tick dt).lane z = s.lane z := rfl
@[simp] theorem State.tick_slot (dt : Nat) (z : Nat) : (s.tick dt).slot z = s.slot z := rfl
@[simp] theorem State.tick_channel (dt : Nat) (z : Nat) : (s.tick dt).channel z = s.channel z := rfl
@[simp] theorem State.tick_port (dt : Nat) (z : Nat) : (s.tick dt).port z = s.port z := rfl
@[simp] theorem State.tick_region (dt : Nat) (z : Nat) : (s.tick dt).region z = s.region z := rfl
@[simp] theorem State.tick_statusAt (dt : Nat) (z : Nat) : (s.tick dt).statusAt z = s.statusAt z := rfl
@[simp] theorem State.tick_num (dt : Nat) (x y : Nat) : (s.tick dt).num x y = s.num x y := rfl
@[simp] theorem State.tick_reg (dt : Nat) (x y : Nat) : (s.tick dt).reg x y = s.reg x y := rfl
@[simp] theorem State.tick_counter (dt : Nat) (z : Nat) : (s.tick dt).counter z = s.counter z := rfl
@[simp] theorem State.tick_awake (dt : Nat) : (s.tick dt).awake = s.awake := rfl
@[simp] theorem State.tick_coxUp (dt : Nat) : (s.tick dt).coxUp = s.coxUp := rfl
@[simp] theorem State.tick_running (dt : Nat) : (s.tick dt).running = s.running := rfl
@[simp] theorem State.tick_planned (dt : Nat) : (s.tick dt).planned = s.planned := rfl
@[simp] theorem State.tick_domainOn (dt : Nat) (z : Nat) : (s.tick dt).domainOn z = s.domainOn z := rfl
@[simp] theorem State.tick_crewEnabled (dt : Nat) (z : Nat) : (s.tick dt).crewEnabled z = s.crewEnabled z := rfl
@[simp] theorem State.setObj_crew (i j : Nat) (v : Val) (z : Nat) : (s.setObj i j v).crew z = s.crew z := rfl
@[simp] theorem State.setObj_layer (i j : Nat) (v : Val) (z : Nat) : (s.setObj i j v).layer z = s.layer z := rfl
@[simp] theorem State.setObj_lane (i j : Nat) (v : Val) (z : Nat) : (s.setObj i j v).lane z = s.lane z := rfl
@[simp] theorem State.setObj_slot (i j : Nat) (v : Val) (z : Nat) : (s.setObj i j v).slot z = s.slot z := rfl
@[simp] theorem State.setObj_channel (i j : Nat) (v : Val) (z : Nat) : (s.setObj i j v).channel z = s.channel z := rfl
@[simp] theorem State.setObj_port (i j : Nat) (v : Val) (z : Nat) : (s.setObj i j v).port z = s.port z := rfl
@[simp] theorem State.setObj_region (i j : Nat) (v : Val) (z : Nat) : (s.setObj i j v).region z = s.region z := rfl
@[simp] theorem State.setObj_statusAt (i j : Nat) (v : Val) (z : Nat) : (s.setObj i j v).statusAt z = s.statusAt z := rfl
@[simp] theorem State.setObj_reg (i j : Nat) (v : Val) (x y : Nat) : (s.setObj i j v).reg x y = s.reg x y := rfl
@[simp] theorem State.setObj_counter (i j : Nat) (v : Val) (z : Nat) : (s.setObj i j v).counter z = s.counter z := rfl
@[simp] theorem State.setObj_awake (i j : Nat) (v : Val) : (s.setObj i j v).awake = s.awake := rfl
@[simp] theorem State.setObj_coxUp (i j : Nat) (v : Val) : (s.setObj i j v).coxUp = s.coxUp := rfl
@[simp] theorem State.setObj_running (i j : Nat) (v : Val) : (s.setObj i j v).running = s.running := rfl
@[simp] theorem State.setObj_planned (i j : Nat) (v : Val) : (s.setObj i j v).planned = s.planned := rfl
@[simp] theorem State.setObj_domainOn (i j : Nat) (v : Val) (z : Nat) : (s.setObj i j v).domainOn z = s.domainOn z := rfl
@[simp] theorem State.setNum_crew (i j n : Nat) (z : Nat) : (s.setNum i j n).crew z = s.crew z := rfl
@[simp] theorem State.setNum_layer (i j n : Nat) (z : Nat) : (s.setNum i j n).layer z = s.layer z := rfl
@[simp] theorem State.setNum_lane (i j n : Nat) (z : Nat) : (s.setNum i j n).lane z = s.lane z := rfl
@[simp] theorem State.setNum_slot (i j n : Nat) (z : Nat) : (s.setNum i j n).slot z = s.slot z := rfl
@[simp] theorem State.setNum_channel (i j n : Nat) (z : Nat) : (s.setNum i j n).channel z = s.channel z := rfl
@[simp] theorem State.setNum_port (i j n : Nat) (z : Nat) : (s.setNum i j n).port z = s.port z := rfl
@[simp] theorem State.setNum_region (i j n : Nat) (z : Nat) : (s.setNum i j n).region z = s.region z := rfl
@[simp] theorem State.setNum_statusAt (i j n : Nat) (z : Nat) : (s.setNum i j n).statusAt z = s.statusAt z := rfl
@[simp] theorem State.setNum_reg (i j n : Nat) (x y : Nat) : (s.setNum i j n).reg x y = s.reg x y := rfl
@[simp] theorem State.setNum_counter (i j n : Nat) (z : Nat) : (s.setNum i j n).counter z = s.counter z := rfl
@[simp] theorem State.setNum_awake (i j n : Nat) : (s.setNum i j n).awake = s.awake := rfl
@[simp] theorem State.setNum_coxUp (i j n : Nat) : (s.setNum i j n).coxUp = s.coxUp := rfl
@[simp] theorem State.setNum_running (i j n : Nat) : (s.setNum i j n).running = s.running := rfl
@[simp] theorem State.setNum_planned (i j n : Nat) : (s.setNum i j n).planned = s.planned := rfl
@[simp] theorem State.setNum_domainOn (i j n : Nat) (z : Nat) : (s.setNum i j n).domainOn z = s.domainOn z := rfl
@[simp] theorem State.setKey_crew (k : Nat) (v : Val) (z : Nat) : (s.setKey k v).crew z = s.crew z := rfl
@[simp] theorem State.setKey_layer (k : Nat) (v : Val) (z : Nat) : (s.setKey k v).layer z = s.layer z := rfl
@[simp] theorem State.setKey_lane (k : Nat) (v : Val) (z : Nat) : (s.setKey k v).lane z = s.lane z := rfl
@[simp] theorem State.setKey_slot (k : Nat) (v : Val) (z : Nat) : (s.setKey k v).slot z = s.slot z := rfl
@[simp] theorem State.setKey_channel (k : Nat) (v : Val) (z : Nat) : (s.setKey k v).channel z = s.channel z := rfl
@[simp] theorem State.setKey_port (k : Nat) (v : Val) (z : Nat) : (s.setKey k v).port z = s.port z := rfl
@[simp] theorem State.setKey_region (k : Nat) (v : Val) (z : Nat) : (s.setKey k v).region z = s.region z := rfl
@[simp] theorem State.setKey_statusAt (k : Nat) (v : Val) (z : Nat) : (s.setKey k v).statusAt z = s.statusAt z := rfl
@[simp] theorem State.setKey_reg (k : Nat) (v : Val) (x y : Nat) : (s.setKey k v).reg x y = s.reg x y := rfl
@[simp] theorem State.setKey_counter (k : Nat) (v : Val) (z : Nat) : (s.setKey k v).counter z = s.counter z := rfl
@[simp] theorem State.setKey_awake (k : Nat) (v : Val) : (s.setKey k v).awake = s.awake := rfl
@[simp] theorem State.setKey_coxUp (k : Nat) (v : Val) : (s.setKey k v).coxUp = s.coxUp := rfl
@[simp] theorem State.setKey_running (k : Nat) (v : Val) : (s.setKey k v).running = s.running := rfl
@[simp] theorem State.setKey_planned (k : Nat) (v : Val) : (s.setKey k v).planned = s.planned := rfl
@[simp] theorem State.setKey_domainOn (k : Nat) (v : Val) (z : Nat) : (s.setKey k v).domainOn z = s.domainOn z := rfl
@[simp] theorem State.setReg_crew (a v : Nat) (z : Nat) : (s.setReg a v).crew z = s.crew z := rfl
@[simp] theorem State.setReg_layer (a v : Nat) (z : Nat) : (s.setReg a v).layer z = s.layer z := rfl
@[simp] theorem State.setReg_lane (a v : Nat) (z : Nat) : (s.setReg a v).lane z = s.lane z := rfl
@[simp] theorem State.setReg_slot (a v : Nat) (z : Nat) : (s.setReg a v).slot z = s.slot z := rfl
@[simp] theorem State.setReg_channel (a v : Nat) (z : Nat) : (s.setReg a v).channel z = s.channel z := rfl
@[simp] theorem State.setReg_port (a v : Nat) (z : Nat) : (s.setReg a v).port z = s.port z := rfl
@[simp] theorem State.setReg_region (a v : Nat) (z : Nat) : (s.setReg a v).region z = s.region z := rfl
@[simp] theorem State.setReg_statusAt (a v : Nat) (z : Nat) : (s.setReg a v).statusAt z = s.statusAt z := rfl
@[simp] theorem State.setReg_num (a v : Nat) (x y : Nat) : (s.setReg a v).num x y = s.num x y := rfl
@[simp] theorem State.setReg_counter (a v : Nat) (z : Nat) : (s.setReg a v).counter z = s.counter z := rfl
@[simp] theorem State.setReg_awake (a v : Nat) : (s.setReg a v).awake = s.awake := rfl
@[simp] theorem State.setReg_coxUp (a v : Nat) : (s.setReg a v).coxUp = s.coxUp := rfl
@[simp] theorem State.setReg_running (a v : Nat) : (s.setReg a v).running = s.running := rfl
@[simp] theorem State.setReg_planned (a v : Nat) : (s.setReg a v).planned = s.planned := rfl
@[simp] theorem State.setReg_domainOn (a v : Nat) (z : Nat) : (s.setReg a v).domainOn z = s.domainOn z := rfl
@[simp] theorem State.setReg_crewEnabled (a v : Nat) (z : Nat) : (s.setReg a v).crewEnabled z = s.crewEnabled z := rfl
@[simp] theorem State.modCrew_layer (k : Nat) (f : Crew → Crew) (z : Nat) : (s.modCrew k f).layer z = s.layer z := rfl
@[simp] theorem State.modCrew_lane (k : Nat) (f : Crew → Crew) (z : Nat) : (s.modCrew k f).lane z = s.lane z := rfl
@[simp] theorem State.modCrew_slot (k : Nat) (f : Crew → Crew) (z : Nat) : (s.modCrew k f).slot z = s.slot z := rfl
@[simp] theorem State.modCrew_channel (k : Nat) (f : Crew → Crew) (z : Nat) : (s.modCrew k f).channel z = s.channel z := rfl
@[simp] theorem State.modCrew_port (k : Nat) (f : Crew → Crew) (z : Nat) : (s.modCrew k f).port z = s.port z := rfl
@[simp] theorem State.modCrew_region (k : Nat) (f : Crew → Crew) (z : Nat) : (s.modCrew k f).region z = s.region z := rfl
@[simp] theorem State.modCrew_statusAt (k : Nat) (f : Crew → Crew) (z : Nat) : (s.modCrew k f).statusAt z = s.statusAt z := rfl
@[simp] theorem State.modCrew_num (k : Nat) (f : Crew → Crew) (x y : Nat) : (s.modCrew k f).num x y = s.num x y := rfl
@[simp] theorem State.modCrew_reg (k : Nat) (f : Crew → Crew) (x y : Nat) : (s.modCrew k f).reg x y = s.reg x y := rfl
@[simp] theorem State.modCrew_counter (k : Nat) (f : Crew → Crew) (z : Nat) : (s.modCrew k f).counter z = s.counter z := rfl
@[simp] theorem State.modCrew_awake (k : Nat) (f : Crew → Crew) : (s.modCrew k f).awake = s.awake := rfl
@[simp] theorem State.modCrew_coxUp (k : Nat) (f : Crew → Crew) : (s.modCrew k f).coxUp = s.coxUp := rfl
@[simp] theorem State.modCrew_running (k : Nat) (f : Crew → Crew) : (s.modCrew k f).running = s.running := rfl
@[simp] theorem State.modCrew_planned (k : Nat) (f : Crew → Crew) : (s.modCrew k f).planned = s.planned := rfl
@[simp] theorem State.modCrew_domainOn (k : Nat) (f : Crew → Crew) (z : Nat) : (s.modCrew k f).domainOn z = s.domainOn z := rfl
@[simp] theorem State.modCrew_crewEnabled (k : Nat) (f : Crew → Crew) (z : Nat) : (s.modCrew k f).crewEnabled z = s.crewEnabled z := rfl
@[simp] theorem State.modLayer_crew (k : Nat) (f : Layer → Layer) (z : Nat) : (s.modLayer k f).crew z = s.crew z := rfl
@[simp] theorem State.modLayer_lane (k : Nat) (f : Layer → Layer) (z : Nat) : (s.modLayer k f).lane z = s.lane z := rfl
@[simp] theorem State.modLayer_slot (k : Nat) (f : Layer → Layer) (z : Nat) : (s.modLayer k f).slot z = s.slot z := rfl
@[simp] theorem State.modLayer_channel (k : Nat) (f : Layer → Layer) (z : Nat) : (s.modLayer k f).channel z = s.channel z := rfl
@[simp] theorem State.modLayer_port (k : Nat) (f : Layer → Layer) (z : Nat) : (s.modLayer k f).port z = s.port z := rfl
@[simp] theorem State.modLayer_region (k : Nat) (f : Layer → Layer) (z : Nat) : (s.modLayer k f).region z = s.region z := rfl
@[simp] theorem State.modLayer_statusAt (k : Nat) (f : Layer → Layer) (z : Nat) : (s.modLayer k f).statusAt z = s.statusAt z := rfl
@[simp] theorem State.modLayer_num (k : Nat) (f : Layer → Layer) (x y : Nat) : (s.modLayer k f).num x y = s.num x y := rfl
@[simp] theorem State.modLayer_reg (k : Nat) (f : Layer → Layer) (x y : Nat) : (s.modLayer k f).reg x y = s.reg x y := rfl
@[simp] theorem State.modLayer_counter (k : Nat) (f : Layer → Layer) (z : Nat) : (s.modLayer k f).counter z = s.counter z := rfl
@[simp] theorem State.modLayer_awake (k : Nat) (f : Layer → Layer) : (s.modLayer k f).awake = s.awake := rfl
@[simp] theorem State.modLayer_coxUp (k : Nat) (f : Layer → Layer) : (s.modLayer k f).coxUp = s.coxUp := rfl
@[simp] theorem State.modLayer_running (k : Nat) (f : Layer → Layer) : (s.modLayer k f).running = s.running := rfl
@[simp] theorem State.modLayer_planned (k : Nat) (f : Layer → Layer) : (s.modLayer k f).planned = s.planned := rfl
@[simp] theorem State.modLayer_domainOn (k : Nat) (f : Layer → Layer) (z : Nat) : (s.modLayer k f).domainOn z = s.domainOn z := rfl
@[simp] theorem State.modLayer_crewEnabled (k : Nat) (f : Layer → Layer) (z : Nat) : (s.modLayer k f).crewEnabled z = s.crewEnabled z := rfl
@[simp] theorem State.modLane_crew (k : Nat) (f : Lane → Lane) (z : Nat) : (s.modLane k f).crew z = s.crew z := rfl
@[simp] theorem State.modLane_layer (k : Nat) (f : Lane → Lane) (z : Nat) : (s.modLane k f).layer z = s.layer z := rfl
@[simp] theorem State.modLane_slot (k : Nat) (f : Lane → Lane) (z : Nat) : (s.modLane k f).slot z = s.slot z := rfl
@[simp] theorem State.modLane_channel (k : Nat) (f : Lane → Lane) (z : Nat) : (s.modLane k f).channel z = s.channel z := rfl
@[simp] theorem State.modLane_port (k : Nat) (f : Lane → Lane) (z : Nat) : (s.modLane k f).port z = s.port z := rfl
@[simp] theorem State.modLane_region (k : Nat) (f : Lane → Lane) (z : Nat) : (s.modLane k f).region z = s.region z := rfl
@[simp] theorem State.modLane_statusAt (k : Nat) (f : Lane → Lane) (z : Nat) : (s.modLane k f).statusAt z = s.statusAt z := rfl
@[simp] theorem State.modLane_num (k : Nat) (f : Lane → Lane) (x y : Nat) : (s.modLane k f).num x y = s.num x y := rfl
@[simp] theorem State.modLane_reg (k : Nat) (f : Lane → Lane) (x y : Nat) : (s.modLane k f).reg x y = s.reg x y := rfl
@[simp] theorem State.modLane_counter (k : Nat) (f : Lane → Lane) (z : Nat) : (s.modLane k f).counter z = s.counter z := rfl
@[simp] theorem State.modLane_awake (k : Nat) (f : Lane → Lane) : (s.modLane k f).awake = s.awake := rfl
@[simp] theorem State.modLane_coxUp (k : Nat) (f : Lane → Lane) : (s.modLane k f).coxUp = s.coxUp := rfl
@[simp] theorem State.modLane_running (k : Nat) (f : Lane → Lane) : (s.modLane k f).running = s.running := rfl
@[simp] theorem State.modLane_planned (k : Nat) (f : Lane → Lane) : (s.modLane k f).planned = s.planned := rfl
@[simp] theorem State.modLane_domainOn (k : Nat) (f : Lane → Lane) (z : Nat) : (s.modLane k f).domainOn z = s.domainOn z := rfl
@[simp] theorem State.modLane_crewEnabled (k : Nat) (f : Lane → Lane) (z : Nat) : (s.modLane k f).crewEnabled z = s.crewEnabled z := rfl
@[simp] theorem State.modProgram_crew (k : Nat) (f : Program → Program) (z : Nat) : (s.modProgram k f).crew z = s.crew z := rfl
@[simp] theorem State.modProgram_layer (k : Nat) (f : Program → Program) (z : Nat) : (s.modProgram k f).layer z = s.layer z := rfl
@[simp] theorem State.modProgram_lane (k : Nat) (f : Program → Program) (z : Nat) : (s.modProgram k f).lane z = s.lane z := rfl
@[simp] theorem State.modProgram_slot (k : Nat) (f : Program → Program) (z : Nat) : (s.modProgram k f).slot z = s.slot z := rfl
@[simp] theorem State.modProgram_channel (k : Nat) (f : Program → Program) (z : Nat) : (s.modProgram k f).channel z = s.channel z := rfl
@[simp] theorem State.modProgram_port (k : Nat) (f : Program → Program) (z : Nat) : (s.modProgram k f).port z = s.port z := rfl
@[simp] theorem State.modProgram_region (k : Nat) (f : Program → Program) (z : Nat) : (s.modProgram k f).region z = s.region z := rfl
@[simp] theorem State.modProgram_statusAt (k : Nat) (f : Program → Program) (z : Nat) : (s.modProgram k f).statusAt z = s.statusAt z := rfl
@[simp] theorem State.modProgram_num (k : Nat) (f : Program → Program) (x y : Nat) : (s.modProgram k f).num x y = s.num x y := rfl
@[simp] theorem State.modProgram_reg (k : Nat) (f : Program → Program) (x y : Nat) : (s.modProgram k f).reg x y = s.reg x y := rfl
@[simp] theorem State.modProgram_counter (k : Nat) (f : Program → Program) (z : Nat) : (s.modProgram k f).counter z = s.counter z := rfl
@[simp] theorem State.modProgram_awake (k : Nat) (f : Program → Program) : (s.modProgram k f).awake = s.awake := rfl
@[simp] theorem State.modProgram_coxUp (k : Nat) (f : Program → Program) : (s.modProgram k f).coxUp = s.coxUp := rfl
@[simp] theorem State.modProgram_running (k : Nat) (f : Program → Program) : (s.modProgram k f).running = s.running := rfl
@[simp] theorem State.modProgram_planned (k : Nat) (f : Program → Program) : (s.modProgram k f).planned = s.planned := rfl
@[simp] theorem State.modProgram_domainOn (k : Nat) (f : Program → Program) (z : Nat) : (s.modProgram k f).domainOn z = s.domainOn z := rfl
@[simp] theorem State.modProgram_crewEnabled (k : Nat) (f : Program → Program) (z : Nat) : (s.modProgram k f).crewEnabled z = s.crewEnabled z := rfl
@[simp] theorem State.modCam_crew (k : Nat) (f : CamPort → CamPort) (z : Nat) : (s.modCam k f).crew z = s.crew z := rfl
@[simp] theorem State.modCam_layer (k : Nat) (f : CamPort → CamPort) (z : Nat) : (s.modCam k f).layer z = s.layer z := rfl
@[simp] theorem State.modCam_lane (k : Nat) (f : CamPort → CamPort) (z : Nat) : (s.modCam k f).lane z = s.lane z := rfl
@[simp] theorem State.modCam_slot (k : Nat) (f : CamPort → CamPort) (z : Nat) : (s.modCam k f).slot z = s.slot z := rfl
@[simp] theorem State.modCam_channel (k : Nat) (f : CamPort → CamPort) (z : Nat) : (s.modCam k f).channel z = s.channel z := rfl
@[simp] theorem State.modCam_port (k : Nat) (f : CamPort → CamPort) (z : Nat) : (s.modCam k f).port z = s.port z := rfl
@[simp] theorem State.modCam_region (k : Nat) (f : CamPort → CamPort) (z : Nat) : (s.modCam k f).region z = s.region z := rfl
@[simp] theorem State.modCam_statusAt (k : Nat) (f : CamPort → CamPort) (z : Nat) : (s.modCam k f).statusAt z = s.statusAt z := rfl
@[simp] theorem State.modCam_num (k : Nat) (f : CamPort → CamPort) (x y : Nat) : (s.modCam k f).num x y = s.num x y := rfl
@[simp] theorem State.modCam_reg (k : Nat) (f : CamPort → CamPort) (x y : Nat) : (s.modCam k f).reg x y = s.reg x y := rfl
@[simp] theorem State.modCam_counter (k : Nat) (f : CamPort → CamPort) (z : Nat) : (s.modCam k f).counter z = s.counter z := rfl
@[simp] theorem State.modCam_awake (k : Nat) (f : CamPort → CamPort) : (s.modCam k f).awake = s.awake := rfl
@[simp] theorem State.modCam_coxUp (k : Nat) (f : CamPort → CamPort) : (s.modCam k f).coxUp = s.coxUp := rfl
@[simp] theorem State.modCam_running (k : Nat) (f : CamPort → CamPort) : (s.modCam k f).running = s.running := rfl
@[simp] theorem State.modCam_planned (k : Nat) (f : CamPort → CamPort) : (s.modCam k f).planned = s.planned := rfl
@[simp] theorem State.modCam_domainOn (k : Nat) (f : CamPort → CamPort) (z : Nat) : (s.modCam k f).domainOn z = s.domainOn z := rfl
@[simp] theorem State.modCam_crewEnabled (k : Nat) (f : CamPort → CamPort) (z : Nat) : (s.modCam k f).crewEnabled z = s.crewEnabled z := rfl
@[simp] theorem State.modSlot_crew (k : Nat) (f : Slot → Slot) (z : Nat) : (s.modSlot k f).crew z = s.crew z := rfl
@[simp] theorem State.modSlot_layer (k : Nat) (f : Slot → Slot) (z : Nat) : (s.modSlot k f).layer z = s.layer z := rfl
@[simp] theorem State.modSlot_lane (k : Nat) (f : Slot → Slot) (z : Nat) : (s.modSlot k f).lane z = s.lane z := rfl
@[simp] theorem State.modSlot_channel (k : Nat) (f : Slot → Slot) (z : Nat) : (s.modSlot k f).channel z = s.channel z := rfl
@[simp] theorem State.modSlot_port (k : Nat) (f : Slot → Slot) (z : Nat) : (s.modSlot k f).port z = s.port z := rfl
@[simp] theorem State.modSlot_region (k : Nat) (f : Slot → Slot) (z : Nat) : (s.modSlot k f).region z = s.region z := rfl
@[simp] theorem State.modSlot_statusAt (k : Nat) (f : Slot → Slot) (z : Nat) : (s.modSlot k f).statusAt z = s.statusAt z := rfl
@[simp] theorem State.modSlot_num (k : Nat) (f : Slot → Slot) (x y : Nat) : (s.modSlot k f).num x y = s.num x y := rfl
@[simp] theorem State.modSlot_reg (k : Nat) (f : Slot → Slot) (x y : Nat) : (s.modSlot k f).reg x y = s.reg x y := rfl
@[simp] theorem State.modSlot_counter (k : Nat) (f : Slot → Slot) (z : Nat) : (s.modSlot k f).counter z = s.counter z := rfl
@[simp] theorem State.modSlot_awake (k : Nat) (f : Slot → Slot) : (s.modSlot k f).awake = s.awake := rfl
@[simp] theorem State.modSlot_coxUp (k : Nat) (f : Slot → Slot) : (s.modSlot k f).coxUp = s.coxUp := rfl
@[simp] theorem State.modSlot_running (k : Nat) (f : Slot → Slot) : (s.modSlot k f).running = s.running := rfl
@[simp] theorem State.modSlot_planned (k : Nat) (f : Slot → Slot) : (s.modSlot k f).planned = s.planned := rfl
@[simp] theorem State.modSlot_domainOn (k : Nat) (f : Slot → Slot) (z : Nat) : (s.modSlot k f).domainOn z = s.domainOn z := rfl
@[simp] theorem State.modSlot_crewEnabled (k : Nat) (f : Slot → Slot) (z : Nat) : (s.modSlot k f).crewEnabled z = s.crewEnabled z := rfl
@[simp] theorem State.modChannel_crew (k : Nat) (f : Channel → Channel) (z : Nat) : (s.modChannel k f).crew z = s.crew z := rfl
@[simp] theorem State.modChannel_layer (k : Nat) (f : Channel → Channel) (z : Nat) : (s.modChannel k f).layer z = s.layer z := rfl
@[simp] theorem State.modChannel_lane (k : Nat) (f : Channel → Channel) (z : Nat) : (s.modChannel k f).lane z = s.lane z := rfl
@[simp] theorem State.modChannel_slot (k : Nat) (f : Channel → Channel) (z : Nat) : (s.modChannel k f).slot z = s.slot z := rfl
@[simp] theorem State.modChannel_port (k : Nat) (f : Channel → Channel) (z : Nat) : (s.modChannel k f).port z = s.port z := rfl
@[simp] theorem State.modChannel_region (k : Nat) (f : Channel → Channel) (z : Nat) : (s.modChannel k f).region z = s.region z := rfl
@[simp] theorem State.modChannel_statusAt (k : Nat) (f : Channel → Channel) (z : Nat) : (s.modChannel k f).statusAt z = s.statusAt z := rfl
@[simp] theorem State.modChannel_num (k : Nat) (f : Channel → Channel) (x y : Nat) : (s.modChannel k f).num x y = s.num x y := rfl
@[simp] theorem State.modChannel_reg (k : Nat) (f : Channel → Channel) (x y : Nat) : (s.modChannel k f).reg x y = s.reg x y := rfl
@[simp] theorem State.modChannel_counter (k : Nat) (f : Channel → Channel) (z : Nat) : (s.modChannel k f).counter z = s.counter z := rfl
@[simp] theorem State.modChannel_awake (k : Nat) (f : Channel → Channel) : (s.modChannel k f).awake = s.awake := rfl
@[simp] theorem State.modChannel_coxUp (k : Nat) (f : Channel → Channel) : (s.modChannel k f).coxUp = s.coxUp := rfl
@[simp] theorem State.modChannel_running (k : Nat) (f : Channel → Channel) : (s.modChannel k f).running = s.running := rfl
@[simp] theorem State.modChannel_planned (k : Nat) (f : Channel → Channel) : (s.modChannel k f).planned = s.planned := rfl
@[simp] theorem State.modChannel_domainOn (k : Nat) (f : Channel → Channel) (z : Nat) : (s.modChannel k f).domainOn z = s.domainOn z := rfl
@[simp] theorem State.modChannel_crewEnabled (k : Nat) (f : Channel → Channel) (z : Nat) : (s.modChannel k f).crewEnabled z = s.crewEnabled z := rfl
@[simp] theorem State.modPort_crew (k : Nat) (f : Port → Port) (z : Nat) : (s.modPort k f).crew z = s.crew z := rfl
@[simp] theorem State.modPort_layer (k : Nat) (f : Port → Port) (z : Nat) : (s.modPort k f).layer z = s.layer z := rfl
@[simp] theorem State.modPort_lane (k : Nat) (f : Port → Port) (z : Nat) : (s.modPort k f).lane z = s.lane z := rfl
@[simp] theorem State.modPort_slot (k : Nat) (f : Port → Port) (z : Nat) : (s.modPort k f).slot z = s.slot z := rfl
@[simp] theorem State.modPort_channel (k : Nat) (f : Port → Port) (z : Nat) : (s.modPort k f).channel z = s.channel z := rfl
@[simp] theorem State.modPort_region (k : Nat) (f : Port → Port) (z : Nat) : (s.modPort k f).region z = s.region z := rfl
@[simp] theorem State.modPort_statusAt (k : Nat) (f : Port → Port) (z : Nat) : (s.modPort k f).statusAt z = s.statusAt z := rfl
@[simp] theorem State.modPort_num (k : Nat) (f : Port → Port) (x y : Nat) : (s.modPort k f).num x y = s.num x y := rfl
@[simp] theorem State.modPort_reg (k : Nat) (f : Port → Port) (x y : Nat) : (s.modPort k f).reg x y = s.reg x y := rfl
@[simp] theorem State.modPort_counter (k : Nat) (f : Port → Port) (z : Nat) : (s.modPort k f).counter z = s.counter z := rfl
@[simp] theorem State.modPort_awake (k : Nat) (f : Port → Port) : (s.modPort k f).awake = s.awake := rfl
@[simp] theorem State.modPort_coxUp (k : Nat) (f : Port → Port) : (s.modPort k f).coxUp = s.coxUp := rfl
@[simp] theorem State.modPort_running (k : Nat) (f : Port → Port) : (s.modPort k f).running = s.running := rfl
@[simp] theorem State.modPort_planned (k : Nat) (f : Port → Port) : (s.modPort k f).planned = s.planned := rfl
@[simp] theorem State.modPort_domainOn (k : Nat) (f : Port → Port) (z : Nat) : (s.modPort k f).domainOn z = s.domainOn z := rfl
@[simp] theorem State.modPort_crewEnabled (k : Nat) (f : Port → Port) (z : Nat) : (s.modPort k f).crewEnabled z = s.crewEnabled z := rfl
@[simp] theorem State.modRegion_crew (k : Nat) (f : Region → Region) (z : Nat) : (s.modRegion k f).crew z = s.crew z := rfl
@[simp] theorem State.modRegion_layer (k : Nat) (f : Region → Region) (z : Nat) : (s.modRegion k f).layer z = s.layer z := rfl
@[simp] theorem State.modRegion_lane (k : Nat) (f : Region → Region) (z : Nat) : (s.modRegion k f).lane z = s.lane z := rfl
@[simp] theorem State.modRegion_slot (k : Nat) (f : Region → Region) (z : Nat) : (s.modRegion k f).slot z = s.slot z := rfl
@[simp] theorem State.modRegion_channel (k : Nat) (f : Region → Region) (z : Nat) : (s.modRegion k f).channel z = s.channel z := rfl
@[simp] theorem State.modRegion_port (k : Nat) (f : Region → Region) (z : Nat) : (s.modRegion k f).port z = s.port z := rfl
@[simp] theorem State.modRegion_statusAt (k : Nat) (f : Region → Region) (z : Nat) : (s.modRegion k f).statusAt z = s.statusAt z := rfl
@[simp] theorem State.modRegion_num (k : Nat) (f : Region → Region) (x y : Nat) : (s.modRegion k f).num x y = s.num x y := rfl
@[simp] theorem State.modRegion_reg (k : Nat) (f : Region → Region) (x y : Nat) : (s.modRegion k f).reg x y = s.reg x y := rfl
@[simp] theorem State.modRegion_counter (k : Nat) (f : Region → Region) (z : Nat) : (s.modRegion k f).counter z = s.counter z := rfl
@[simp] theorem State.modRegion_awake (k : Nat) (f : Region → Region) : (s.modRegion k f).awake = s.awake := rfl
@[simp] theorem State.modRegion_coxUp (k : Nat) (f : Region → Region) : (s.modRegion k f).coxUp = s.coxUp := rfl
@[simp] theorem State.modRegion_running (k : Nat) (f : Region → Region) : (s.modRegion k f).running = s.running := rfl
@[simp] theorem State.modRegion_planned (k : Nat) (f : Region → Region) : (s.modRegion k f).planned = s.planned := rfl
@[simp] theorem State.modRegion_domainOn (k : Nat) (f : Region → Region) (z : Nat) : (s.modRegion k f).domainOn z = s.domainOn z := rfl
@[simp] theorem State.modRegion_crewEnabled (k : Nat) (f : Region → Region) (z : Nat) : (s.modRegion k f).crewEnabled z = s.crewEnabled z := rfl
@[simp] theorem State.modStatus_crew (k : Nat) (f : Status → Status) (z : Nat) : (s.modStatus k f).crew z = s.crew z := rfl
@[simp] theorem State.modStatus_layer (k : Nat) (f : Status → Status) (z : Nat) : (s.modStatus k f).layer z = s.layer z := rfl
@[simp] theorem State.modStatus_lane (k : Nat) (f : Status → Status) (z : Nat) : (s.modStatus k f).lane z = s.lane z := rfl
@[simp] theorem State.modStatus_slot (k : Nat) (f : Status → Status) (z : Nat) : (s.modStatus k f).slot z = s.slot z := rfl
@[simp] theorem State.modStatus_channel (k : Nat) (f : Status → Status) (z : Nat) : (s.modStatus k f).channel z = s.channel z := rfl
@[simp] theorem State.modStatus_port (k : Nat) (f : Status → Status) (z : Nat) : (s.modStatus k f).port z = s.port z := rfl
@[simp] theorem State.modStatus_region (k : Nat) (f : Status → Status) (z : Nat) : (s.modStatus k f).region z = s.region z := rfl
@[simp] theorem State.modStatus_num (k : Nat) (f : Status → Status) (x y : Nat) : (s.modStatus k f).num x y = s.num x y := rfl
@[simp] theorem State.modStatus_reg (k : Nat) (f : Status → Status) (x y : Nat) : (s.modStatus k f).reg x y = s.reg x y := rfl
@[simp] theorem State.modStatus_counter (k : Nat) (f : Status → Status) (z : Nat) : (s.modStatus k f).counter z = s.counter z := rfl
@[simp] theorem State.modStatus_awake (k : Nat) (f : Status → Status) : (s.modStatus k f).awake = s.awake := rfl
@[simp] theorem State.modStatus_coxUp (k : Nat) (f : Status → Status) : (s.modStatus k f).coxUp = s.coxUp := rfl
@[simp] theorem State.modStatus_running (k : Nat) (f : Status → Status) : (s.modStatus k f).running = s.running := rfl
@[simp] theorem State.modStatus_planned (k : Nat) (f : Status → Status) : (s.modStatus k f).planned = s.planned := rfl
@[simp] theorem State.modStatus_domainOn (k : Nat) (f : Status → Status) (z : Nat) : (s.modStatus k f).domainOn z = s.domainOn z := rfl
@[simp] theorem State.modStatus_crewEnabled (k : Nat) (f : Status → Status) (z : Nat) : (s.modStatus k f).crewEnabled z = s.crewEnabled z := rfl
@[simp] theorem State.modUmpire_crew (f : Umpire → Umpire) (z : Nat) : (s.modUmpire f).crew z = s.crew z := rfl
@[simp] theorem State.modUmpire_layer (f : Umpire → Umpire) (z : Nat) : (s.modUmpire f).layer z = s.layer z := rfl
@[simp] theorem State.modUmpire_lane (f : Umpire → Umpire) (z : Nat) : (s.modUmpire f).lane z = s.lane z := rfl
@[simp] theorem State.modUmpire_slot (f : Umpire → Umpire) (z : Nat) : (s.modUmpire f).slot z = s.slot z := rfl
@[simp] theorem State.modUmpire_channel (f : Umpire → Umpire) (z : Nat) : (s.modUmpire f).channel z = s.channel z := rfl
@[simp] theorem State.modUmpire_port (f : Umpire → Umpire) (z : Nat) : (s.modUmpire f).port z = s.port z := rfl
@[simp] theorem State.modUmpire_region (f : Umpire → Umpire) (z : Nat) : (s.modUmpire f).region z = s.region z := rfl
@[simp] theorem State.modUmpire_statusAt (f : Umpire → Umpire) (z : Nat) : (s.modUmpire f).statusAt z = s.statusAt z := rfl
@[simp] theorem State.modUmpire_num (f : Umpire → Umpire) (x y : Nat) : (s.modUmpire f).num x y = s.num x y := rfl
@[simp] theorem State.modUmpire_reg (f : Umpire → Umpire) (x y : Nat) : (s.modUmpire f).reg x y = s.reg x y := rfl
@[simp] theorem State.modUmpire_counter (f : Umpire → Umpire) (z : Nat) : (s.modUmpire f).counter z = s.counter z := rfl
@[simp] theorem State.modUmpire_awake (f : Umpire → Umpire) : (s.modUmpire f).awake = s.awake := rfl
@[simp] theorem State.modUmpire_coxUp (f : Umpire → Umpire) : (s.modUmpire f).coxUp = s.coxUp := rfl
@[simp] theorem State.modUmpire_running (f : Umpire → Umpire) : (s.modUmpire f).running = s.running := rfl
@[simp] theorem State.modUmpire_planned (f : Umpire → Umpire) : (s.modUmpire f).planned = s.planned := rfl
@[simp] theorem State.modUmpire_domainOn (f : Umpire → Umpire) (z : Nat) : (s.modUmpire f).domainOn z = s.domainOn z := rfl
@[simp] theorem State.modUmpire_crewEnabled (f : Umpire → Umpire) (z : Nat) : (s.modUmpire f).crewEnabled z = s.crewEnabled z := rfl
@[simp] theorem State.modSmu_crew (f : Smu → Smu) (z : Nat) : (s.modSmu f).crew z = s.crew z := rfl
@[simp] theorem State.modSmu_layer (f : Smu → Smu) (z : Nat) : (s.modSmu f).layer z = s.layer z := rfl
@[simp] theorem State.modSmu_lane (f : Smu → Smu) (z : Nat) : (s.modSmu f).lane z = s.lane z := rfl
@[simp] theorem State.modSmu_slot (f : Smu → Smu) (z : Nat) : (s.modSmu f).slot z = s.slot z := rfl
@[simp] theorem State.modSmu_channel (f : Smu → Smu) (z : Nat) : (s.modSmu f).channel z = s.channel z := rfl
@[simp] theorem State.modSmu_port (f : Smu → Smu) (z : Nat) : (s.modSmu f).port z = s.port z := rfl
@[simp] theorem State.modSmu_region (f : Smu → Smu) (z : Nat) : (s.modSmu f).region z = s.region z := rfl
@[simp] theorem State.modSmu_statusAt (f : Smu → Smu) (z : Nat) : (s.modSmu f).statusAt z = s.statusAt z := rfl
@[simp] theorem State.modSmu_num (f : Smu → Smu) (x y : Nat) : (s.modSmu f).num x y = s.num x y := rfl
@[simp] theorem State.modSmu_reg (f : Smu → Smu) (x y : Nat) : (s.modSmu f).reg x y = s.reg x y := rfl
@[simp] theorem State.modSmu_counter (f : Smu → Smu) (z : Nat) : (s.modSmu f).counter z = s.counter z := rfl
@[simp] theorem State.modSmu_awake (f : Smu → Smu) : (s.modSmu f).awake = s.awake := rfl
@[simp] theorem State.modSmu_coxUp (f : Smu → Smu) : (s.modSmu f).coxUp = s.coxUp := rfl
@[simp] theorem State.modSmu_running (f : Smu → Smu) : (s.modSmu f).running = s.running := rfl
@[simp] theorem State.modSmu_planned (f : Smu → Smu) : (s.modSmu f).planned = s.planned := rfl
@[simp] theorem State.modSmu_domainOn (f : Smu → Smu) (z : Nat) : (s.modSmu f).domainOn z = s.domainOn z := rfl
@[simp] theorem State.modSmu_crewEnabled (f : Smu → Smu) (z : Nat) : (s.modSmu f).crewEnabled z = s.crewEnabled z := rfl
@[simp] theorem State.modSec_crew (f : Sec → Sec) (z : Nat) : (s.modSec f).crew z = s.crew z := rfl
@[simp] theorem State.modSec_layer (f : Sec → Sec) (z : Nat) : (s.modSec f).layer z = s.layer z := rfl
@[simp] theorem State.modSec_lane (f : Sec → Sec) (z : Nat) : (s.modSec f).lane z = s.lane z := rfl
@[simp] theorem State.modSec_slot (f : Sec → Sec) (z : Nat) : (s.modSec f).slot z = s.slot z := rfl
@[simp] theorem State.modSec_channel (f : Sec → Sec) (z : Nat) : (s.modSec f).channel z = s.channel z := rfl
@[simp] theorem State.modSec_port (f : Sec → Sec) (z : Nat) : (s.modSec f).port z = s.port z := rfl
@[simp] theorem State.modSec_region (f : Sec → Sec) (z : Nat) : (s.modSec f).region z = s.region z := rfl
@[simp] theorem State.modSec_statusAt (f : Sec → Sec) (z : Nat) : (s.modSec f).statusAt z = s.statusAt z := rfl
@[simp] theorem State.modSec_num (f : Sec → Sec) (x y : Nat) : (s.modSec f).num x y = s.num x y := rfl
@[simp] theorem State.modSec_reg (f : Sec → Sec) (x y : Nat) : (s.modSec f).reg x y = s.reg x y := rfl
@[simp] theorem State.modSec_counter (f : Sec → Sec) (z : Nat) : (s.modSec f).counter z = s.counter z := rfl
@[simp] theorem State.modSec_awake (f : Sec → Sec) : (s.modSec f).awake = s.awake := rfl
@[simp] theorem State.modSec_coxUp (f : Sec → Sec) : (s.modSec f).coxUp = s.coxUp := rfl
@[simp] theorem State.modSec_running (f : Sec → Sec) : (s.modSec f).running = s.running := rfl
@[simp] theorem State.modSec_planned (f : Sec → Sec) : (s.modSec f).planned = s.planned := rfl
@[simp] theorem State.modSec_domainOn (f : Sec → Sec) (z : Nat) : (s.modSec f).domainOn z = s.domainOn z := rfl
@[simp] theorem State.modSec_crewEnabled (f : Sec → Sec) (z : Nat) : (s.modSec f).crewEnabled z = s.crewEnabled z := rfl
@[simp] theorem State.modModes_crew (f : Modes → Modes) (z : Nat) : (s.modModes f).crew z = s.crew z := rfl
@[simp] theorem State.modModes_layer (f : Modes → Modes) (z : Nat) : (s.modModes f).layer z = s.layer z := rfl
@[simp] theorem State.modModes_lane (f : Modes → Modes) (z : Nat) : (s.modModes f).lane z = s.lane z := rfl
@[simp] theorem State.modModes_slot (f : Modes → Modes) (z : Nat) : (s.modModes f).slot z = s.slot z := rfl
@[simp] theorem State.modModes_channel (f : Modes → Modes) (z : Nat) : (s.modModes f).channel z = s.channel z := rfl
@[simp] theorem State.modModes_port (f : Modes → Modes) (z : Nat) : (s.modModes f).port z = s.port z := rfl
@[simp] theorem State.modModes_region (f : Modes → Modes) (z : Nat) : (s.modModes f).region z = s.region z := rfl
@[simp] theorem State.modModes_statusAt (f : Modes → Modes) (z : Nat) : (s.modModes f).statusAt z = s.statusAt z := rfl
@[simp] theorem State.modModes_num (f : Modes → Modes) (x y : Nat) : (s.modModes f).num x y = s.num x y := rfl
@[simp] theorem State.modModes_reg (f : Modes → Modes) (x y : Nat) : (s.modModes f).reg x y = s.reg x y := rfl
@[simp] theorem State.modModes_counter (f : Modes → Modes) (z : Nat) : (s.modModes f).counter z = s.counter z := rfl
@[simp] theorem State.modModes_domainOn (f : Modes → Modes) (z : Nat) : (s.modModes f).domainOn z = s.domainOn z := rfl
@[simp] theorem State.modModes_crewEnabled (f : Modes → Modes) (z : Nat) : (s.modModes f).crewEnabled z = s.crewEnabled z := rfl
@[simp] theorem State.modClocks_crew (f : Clocks → Clocks) (z : Nat) : (s.modClocks f).crew z = s.crew z := rfl
@[simp] theorem State.modClocks_layer (f : Clocks → Clocks) (z : Nat) : (s.modClocks f).layer z = s.layer z := rfl
@[simp] theorem State.modClocks_lane (f : Clocks → Clocks) (z : Nat) : (s.modClocks f).lane z = s.lane z := rfl
@[simp] theorem State.modClocks_slot (f : Clocks → Clocks) (z : Nat) : (s.modClocks f).slot z = s.slot z := rfl
@[simp] theorem State.modClocks_channel (f : Clocks → Clocks) (z : Nat) : (s.modClocks f).channel z = s.channel z := rfl
@[simp] theorem State.modClocks_port (f : Clocks → Clocks) (z : Nat) : (s.modClocks f).port z = s.port z := rfl
@[simp] theorem State.modClocks_region (f : Clocks → Clocks) (z : Nat) : (s.modClocks f).region z = s.region z := rfl
@[simp] theorem State.modClocks_statusAt (f : Clocks → Clocks) (z : Nat) : (s.modClocks f).statusAt z = s.statusAt z := rfl
@[simp] theorem State.modClocks_num (f : Clocks → Clocks) (x y : Nat) : (s.modClocks f).num x y = s.num x y := rfl
@[simp] theorem State.modClocks_reg (f : Clocks → Clocks) (x y : Nat) : (s.modClocks f).reg x y = s.reg x y := rfl
@[simp] theorem State.modClocks_counter (f : Clocks → Clocks) (z : Nat) : (s.modClocks f).counter z = s.counter z := rfl
@[simp] theorem State.modClocks_awake (f : Clocks → Clocks) : (s.modClocks f).awake = s.awake := rfl
@[simp] theorem State.modClocks_coxUp (f : Clocks → Clocks) : (s.modClocks f).coxUp = s.coxUp := rfl
@[simp] theorem State.modClocks_running (f : Clocks → Clocks) : (s.modClocks f).running = s.running := rfl
@[simp] theorem State.modClocks_planned (f : Clocks → Clocks) : (s.modClocks f).planned = s.planned := rfl
@[simp] theorem State.modClocks_domainOn (f : Clocks → Clocks) (z : Nat) : (s.modClocks f).domainOn z = s.domainOn z := rfl
@[simp] theorem State.modClocks_crewEnabled (f : Clocks → Clocks) (z : Nat) : (s.modClocks f).crewEnabled z = s.crewEnabled z := rfl
@[simp] theorem State.modPlacement_crew (f : Placement → Placement) (z : Nat) : (s.modPlacement f).crew z = s.crew z := rfl
@[simp] theorem State.modPlacement_layer (f : Placement → Placement) (z : Nat) : (s.modPlacement f).layer z = s.layer z := rfl
@[simp] theorem State.modPlacement_lane (f : Placement → Placement) (z : Nat) : (s.modPlacement f).lane z = s.lane z := rfl
@[simp] theorem State.modPlacement_slot (f : Placement → Placement) (z : Nat) : (s.modPlacement f).slot z = s.slot z := rfl
@[simp] theorem State.modPlacement_channel (f : Placement → Placement) (z : Nat) : (s.modPlacement f).channel z = s.channel z := rfl
@[simp] theorem State.modPlacement_port (f : Placement → Placement) (z : Nat) : (s.modPlacement f).port z = s.port z := rfl
@[simp] theorem State.modPlacement_region (f : Placement → Placement) (z : Nat) : (s.modPlacement f).region z = s.region z := rfl
@[simp] theorem State.modPlacement_statusAt (f : Placement → Placement) (z : Nat) : (s.modPlacement f).statusAt z = s.statusAt z := rfl
@[simp] theorem State.modPlacement_num (f : Placement → Placement) (x y : Nat) : (s.modPlacement f).num x y = s.num x y := rfl
@[simp] theorem State.modPlacement_reg (f : Placement → Placement) (x y : Nat) : (s.modPlacement f).reg x y = s.reg x y := rfl
@[simp] theorem State.modPlacement_counter (f : Placement → Placement) (z : Nat) : (s.modPlacement f).counter z = s.counter z := rfl
@[simp] theorem State.modPlacement_awake (f : Placement → Placement) : (s.modPlacement f).awake = s.awake := rfl
@[simp] theorem State.modPlacement_coxUp (f : Placement → Placement) : (s.modPlacement f).coxUp = s.coxUp := rfl
@[simp] theorem State.modPlacement_running (f : Placement → Placement) : (s.modPlacement f).running = s.running := rfl
@[simp] theorem State.modPlacement_planned (f : Placement → Placement) : (s.modPlacement f).planned = s.planned := rfl
@[simp] theorem State.modPlacement_domainOn (f : Placement → Placement) (z : Nat) : (s.modPlacement f).domainOn z = s.domainOn z := rfl
@[simp] theorem State.modPlacement_crewEnabled (f : Placement → Placement) (z : Nat) : (s.modPlacement f).crewEnabled z = s.crewEnabled z := rfl
@[simp] theorem State.modPower_crew (f : Power → Power) (z : Nat) : (s.modPower f).crew z = s.crew z := rfl
@[simp] theorem State.modPower_layer (f : Power → Power) (z : Nat) : (s.modPower f).layer z = s.layer z := rfl
@[simp] theorem State.modPower_lane (f : Power → Power) (z : Nat) : (s.modPower f).lane z = s.lane z := rfl
@[simp] theorem State.modPower_slot (f : Power → Power) (z : Nat) : (s.modPower f).slot z = s.slot z := rfl
@[simp] theorem State.modPower_channel (f : Power → Power) (z : Nat) : (s.modPower f).channel z = s.channel z := rfl
@[simp] theorem State.modPower_port (f : Power → Power) (z : Nat) : (s.modPower f).port z = s.port z := rfl
@[simp] theorem State.modPower_region (f : Power → Power) (z : Nat) : (s.modPower f).region z = s.region z := rfl
@[simp] theorem State.modPower_statusAt (f : Power → Power) (z : Nat) : (s.modPower f).statusAt z = s.statusAt z := rfl
@[simp] theorem State.modPower_num (f : Power → Power) (x y : Nat) : (s.modPower f).num x y = s.num x y := rfl
@[simp] theorem State.modPower_reg (f : Power → Power) (x y : Nat) : (s.modPower f).reg x y = s.reg x y := rfl
@[simp] theorem State.modPower_counter (f : Power → Power) (z : Nat) : (s.modPower f).counter z = s.counter z := rfl
@[simp] theorem State.modPower_awake (f : Power → Power) : (s.modPower f).awake = s.awake := rfl
@[simp] theorem State.modPower_coxUp (f : Power → Power) : (s.modPower f).coxUp = s.coxUp := rfl
@[simp] theorem State.modPower_running (f : Power → Power) : (s.modPower f).running = s.running := rfl
@[simp] theorem State.modPower_planned (f : Power → Power) : (s.modPower f).planned = s.planned := rfl
@[simp] theorem State.modPower_crewEnabled (f : Power → Power) (z : Nat) : (s.modPower f).crewEnabled z = s.crewEnabled z := rfl
@[simp] theorem State.modCascade_crew (f : Cascade → Cascade) (z : Nat) : (s.modCascade f).crew z = s.crew z := rfl
@[simp] theorem State.modCascade_layer (f : Cascade → Cascade) (z : Nat) : (s.modCascade f).layer z = s.layer z := rfl
@[simp] theorem State.modCascade_lane (f : Cascade → Cascade) (z : Nat) : (s.modCascade f).lane z = s.lane z := rfl
@[simp] theorem State.modCascade_slot (f : Cascade → Cascade) (z : Nat) : (s.modCascade f).slot z = s.slot z := rfl
@[simp] theorem State.modCascade_channel (f : Cascade → Cascade) (z : Nat) : (s.modCascade f).channel z = s.channel z := rfl
@[simp] theorem State.modCascade_port (f : Cascade → Cascade) (z : Nat) : (s.modCascade f).port z = s.port z := rfl
@[simp] theorem State.modCascade_region (f : Cascade → Cascade) (z : Nat) : (s.modCascade f).region z = s.region z := rfl
@[simp] theorem State.modCascade_statusAt (f : Cascade → Cascade) (z : Nat) : (s.modCascade f).statusAt z = s.statusAt z := rfl
@[simp] theorem State.modCascade_num (f : Cascade → Cascade) (x y : Nat) : (s.modCascade f).num x y = s.num x y := rfl
@[simp] theorem State.modCascade_reg (f : Cascade → Cascade) (x y : Nat) : (s.modCascade f).reg x y = s.reg x y := rfl
@[simp] theorem State.modCascade_counter (f : Cascade → Cascade) (z : Nat) : (s.modCascade f).counter z = s.counter z := rfl
@[simp] theorem State.modCascade_awake (f : Cascade → Cascade) : (s.modCascade f).awake = s.awake := rfl
@[simp] theorem State.modCascade_coxUp (f : Cascade → Cascade) : (s.modCascade f).coxUp = s.coxUp := rfl
@[simp] theorem State.modCascade_running (f : Cascade → Cascade) : (s.modCascade f).running = s.running := rfl
@[simp] theorem State.modCascade_planned (f : Cascade → Cascade) : (s.modCascade f).planned = s.planned := rfl
@[simp] theorem State.modCascade_domainOn (f : Cascade → Cascade) (z : Nat) : (s.modCascade f).domainOn z = s.domainOn z := rfl
@[simp] theorem State.modCascade_crewEnabled (f : Cascade → Cascade) (z : Nat) : (s.modCascade f).crewEnabled z = s.crewEnabled z := rfl
@[simp] theorem State.modAccess_crew (f : Access → Access) (z : Nat) : (s.modAccess f).crew z = s.crew z := rfl
@[simp] theorem State.modAccess_layer (f : Access → Access) (z : Nat) : (s.modAccess f).layer z = s.layer z := rfl
@[simp] theorem State.modAccess_lane (f : Access → Access) (z : Nat) : (s.modAccess f).lane z = s.lane z := rfl
@[simp] theorem State.modAccess_slot (f : Access → Access) (z : Nat) : (s.modAccess f).slot z = s.slot z := rfl
@[simp] theorem State.modAccess_channel (f : Access → Access) (z : Nat) : (s.modAccess f).channel z = s.channel z := rfl
@[simp] theorem State.modAccess_port (f : Access → Access) (z : Nat) : (s.modAccess f).port z = s.port z := rfl
@[simp] theorem State.modAccess_region (f : Access → Access) (z : Nat) : (s.modAccess f).region z = s.region z := rfl
@[simp] theorem State.modAccess_statusAt (f : Access → Access) (z : Nat) : (s.modAccess f).statusAt z = s.statusAt z := rfl
@[simp] theorem State.modAccess_num (f : Access → Access) (x y : Nat) : (s.modAccess f).num x y = s.num x y := rfl
@[simp] theorem State.modAccess_reg (f : Access → Access) (x y : Nat) : (s.modAccess f).reg x y = s.reg x y := rfl
@[simp] theorem State.modAccess_counter (f : Access → Access) (z : Nat) : (s.modAccess f).counter z = s.counter z := rfl
@[simp] theorem State.modAccess_awake (f : Access → Access) : (s.modAccess f).awake = s.awake := rfl
@[simp] theorem State.modAccess_coxUp (f : Access → Access) : (s.modAccess f).coxUp = s.coxUp := rfl
@[simp] theorem State.modAccess_running (f : Access → Access) : (s.modAccess f).running = s.running := rfl
@[simp] theorem State.modAccess_planned (f : Access → Access) : (s.modAccess f).planned = s.planned := rfl
@[simp] theorem State.modAccess_domainOn (f : Access → Access) (z : Nat) : (s.modAccess f).domainOn z = s.domainOn z := rfl
@[simp] theorem State.modAccess_crewEnabled (f : Access → Access) (z : Nat) : (s.modAccess f).crewEnabled z = s.crewEnabled z := rfl
@[simp] theorem State.modMover_crew (f : Mover → Mover) (z : Nat) : (s.modMover f).crew z = s.crew z := rfl
@[simp] theorem State.modMover_layer (f : Mover → Mover) (z : Nat) : (s.modMover f).layer z = s.layer z := rfl
@[simp] theorem State.modMover_lane (f : Mover → Mover) (z : Nat) : (s.modMover f).lane z = s.lane z := rfl
@[simp] theorem State.modMover_slot (f : Mover → Mover) (z : Nat) : (s.modMover f).slot z = s.slot z := rfl
@[simp] theorem State.modMover_channel (f : Mover → Mover) (z : Nat) : (s.modMover f).channel z = s.channel z := rfl
@[simp] theorem State.modMover_port (f : Mover → Mover) (z : Nat) : (s.modMover f).port z = s.port z := rfl
@[simp] theorem State.modMover_region (f : Mover → Mover) (z : Nat) : (s.modMover f).region z = s.region z := rfl
@[simp] theorem State.modMover_statusAt (f : Mover → Mover) (z : Nat) : (s.modMover f).statusAt z = s.statusAt z := rfl
@[simp] theorem State.modMover_num (f : Mover → Mover) (x y : Nat) : (s.modMover f).num x y = s.num x y := rfl
@[simp] theorem State.modMover_reg (f : Mover → Mover) (x y : Nat) : (s.modMover f).reg x y = s.reg x y := rfl
@[simp] theorem State.modMover_counter (f : Mover → Mover) (z : Nat) : (s.modMover f).counter z = s.counter z := rfl
@[simp] theorem State.modMover_awake (f : Mover → Mover) : (s.modMover f).awake = s.awake := rfl
@[simp] theorem State.modMover_coxUp (f : Mover → Mover) : (s.modMover f).coxUp = s.coxUp := rfl
@[simp] theorem State.modMover_running (f : Mover → Mover) : (s.modMover f).running = s.running := rfl
@[simp] theorem State.modMover_planned (f : Mover → Mover) : (s.modMover f).planned = s.planned := rfl
@[simp] theorem State.modMover_domainOn (f : Mover → Mover) (z : Nat) : (s.modMover f).domainOn z = s.domainOn z := rfl
@[simp] theorem State.modMover_crewEnabled (f : Mover → Mover) (z : Nat) : (s.modMover f).crewEnabled z = s.crewEnabled z := rfl
@[simp] theorem State.modLimp_crew (f : Limp → Limp) (z : Nat) : (s.modLimp f).crew z = s.crew z := rfl
@[simp] theorem State.modLimp_layer (f : Limp → Limp) (z : Nat) : (s.modLimp f).layer z = s.layer z := rfl
@[simp] theorem State.modLimp_lane (f : Limp → Limp) (z : Nat) : (s.modLimp f).lane z = s.lane z := rfl
@[simp] theorem State.modLimp_slot (f : Limp → Limp) (z : Nat) : (s.modLimp f).slot z = s.slot z := rfl
@[simp] theorem State.modLimp_channel (f : Limp → Limp) (z : Nat) : (s.modLimp f).channel z = s.channel z := rfl
@[simp] theorem State.modLimp_port (f : Limp → Limp) (z : Nat) : (s.modLimp f).port z = s.port z := rfl
@[simp] theorem State.modLimp_region (f : Limp → Limp) (z : Nat) : (s.modLimp f).region z = s.region z := rfl
@[simp] theorem State.modLimp_statusAt (f : Limp → Limp) (z : Nat) : (s.modLimp f).statusAt z = s.statusAt z := rfl
@[simp] theorem State.modLimp_num (f : Limp → Limp) (x y : Nat) : (s.modLimp f).num x y = s.num x y := rfl
@[simp] theorem State.modLimp_reg (f : Limp → Limp) (x y : Nat) : (s.modLimp f).reg x y = s.reg x y := rfl
@[simp] theorem State.modLimp_counter (f : Limp → Limp) (z : Nat) : (s.modLimp f).counter z = s.counter z := rfl
@[simp] theorem State.modLimp_awake (f : Limp → Limp) : (s.modLimp f).awake = s.awake := rfl
@[simp] theorem State.modLimp_coxUp (f : Limp → Limp) : (s.modLimp f).coxUp = s.coxUp := rfl
@[simp] theorem State.modLimp_running (f : Limp → Limp) : (s.modLimp f).running = s.running := rfl
@[simp] theorem State.modLimp_planned (f : Limp → Limp) : (s.modLimp f).planned = s.planned := rfl
@[simp] theorem State.modLimp_domainOn (f : Limp → Limp) (z : Nat) : (s.modLimp f).domainOn z = s.domainOn z := rfl
@[simp] theorem State.modLimp_crewEnabled (f : Limp → Limp) (z : Nat) : (s.modLimp f).crewEnabled z = s.crewEnabled z := rfl
@[simp] theorem State.count_crew (o k : Nat) (z : Nat) : (s.count o k).crew z = s.crew z := rfl
@[simp] theorem State.count_layer (o k : Nat) (z : Nat) : (s.count o k).layer z = s.layer z := rfl
@[simp] theorem State.count_lane (o k : Nat) (z : Nat) : (s.count o k).lane z = s.lane z := rfl
@[simp] theorem State.count_slot (o k : Nat) (z : Nat) : (s.count o k).slot z = s.slot z := rfl
@[simp] theorem State.count_channel (o k : Nat) (z : Nat) : (s.count o k).channel z = s.channel z := rfl
@[simp] theorem State.count_port (o k : Nat) (z : Nat) : (s.count o k).port z = s.port z := rfl
@[simp] theorem State.count_region (o k : Nat) (z : Nat) : (s.count o k).region z = s.region z := rfl
@[simp] theorem State.count_statusAt (o k : Nat) (z : Nat) : (s.count o k).statusAt z = s.statusAt z := rfl
@[simp] theorem State.count_num (o k : Nat) (x y : Nat) : (s.count o k).num x y = s.num x y := rfl
@[simp] theorem State.count_reg (o k : Nat) (x y : Nat) : (s.count o k).reg x y = s.reg x y := rfl
@[simp] theorem State.count_awake (o k : Nat) : (s.count o k).awake = s.awake := rfl
@[simp] theorem State.count_coxUp (o k : Nat) : (s.count o k).coxUp = s.coxUp := rfl
@[simp] theorem State.count_running (o k : Nat) : (s.count o k).running = s.running := rfl
@[simp] theorem State.count_planned (o k : Nat) : (s.count o k).planned = s.planned := rfl
@[simp] theorem State.count_domainOn (o k : Nat) (z : Nat) : (s.count o k).domainOn z = s.domainOn z := rfl
@[simp] theorem State.count_crewEnabled (o k : Nat) (z : Nat) : (s.count o k).crewEnabled z = s.crewEnabled z := rfl
@[simp] theorem State.send_crew (o : Out) (z : Nat) : (s.send o).crew z = s.crew z := rfl
@[simp] theorem State.send_layer (o : Out) (z : Nat) : (s.send o).layer z = s.layer z := rfl
@[simp] theorem State.send_lane (o : Out) (z : Nat) : (s.send o).lane z = s.lane z := rfl
@[simp] theorem State.send_slot (o : Out) (z : Nat) : (s.send o).slot z = s.slot z := rfl
@[simp] theorem State.send_channel (o : Out) (z : Nat) : (s.send o).channel z = s.channel z := rfl
@[simp] theorem State.send_port (o : Out) (z : Nat) : (s.send o).port z = s.port z := rfl
@[simp] theorem State.send_region (o : Out) (z : Nat) : (s.send o).region z = s.region z := rfl
@[simp] theorem State.send_statusAt (o : Out) (z : Nat) : (s.send o).statusAt z = s.statusAt z := rfl
@[simp] theorem State.send_num (o : Out) (x y : Nat) : (s.send o).num x y = s.num x y := rfl
@[simp] theorem State.send_reg (o : Out) (x y : Nat) : (s.send o).reg x y = s.reg x y := rfl
@[simp] theorem State.send_counter (o : Out) (z : Nat) : (s.send o).counter z = s.counter z := rfl
@[simp] theorem State.send_awake (o : Out) : (s.send o).awake = s.awake := rfl
@[simp] theorem State.send_coxUp (o : Out) : (s.send o).coxUp = s.coxUp := rfl
@[simp] theorem State.send_running (o : Out) : (s.send o).running = s.running := rfl
@[simp] theorem State.send_planned (o : Out) : (s.send o).planned = s.planned := rfl
@[simp] theorem State.send_domainOn (o : Out) (z : Nat) : (s.send o).domainOn z = s.domainOn z := rfl
@[simp] theorem State.send_crewEnabled (o : Out) (z : Nat) : (s.send o).crewEnabled z = s.crewEnabled z := rfl
@[simp] theorem State.used_crew (z : Nat) : (s.used).crew z = s.crew z := rfl
@[simp] theorem State.used_layer (z : Nat) : (s.used).layer z = s.layer z := rfl
@[simp] theorem State.used_lane (z : Nat) : (s.used).lane z = s.lane z := rfl
@[simp] theorem State.used_slot (z : Nat) : (s.used).slot z = s.slot z := rfl
@[simp] theorem State.used_channel (z : Nat) : (s.used).channel z = s.channel z := rfl
@[simp] theorem State.used_port (z : Nat) : (s.used).port z = s.port z := rfl
@[simp] theorem State.used_region (z : Nat) : (s.used).region z = s.region z := rfl
@[simp] theorem State.used_statusAt (z : Nat) : (s.used).statusAt z = s.statusAt z := rfl
@[simp] theorem State.used_num (x y : Nat) : (s.used).num x y = s.num x y := rfl
@[simp] theorem State.used_reg (x y : Nat) : (s.used).reg x y = s.reg x y := rfl
@[simp] theorem State.used_counter (z : Nat) : (s.used).counter z = s.counter z := rfl
@[simp] theorem State.used_awake : (s.used).awake = s.awake := rfl
@[simp] theorem State.used_coxUp : (s.used).coxUp = s.coxUp := rfl
@[simp] theorem State.used_running : (s.used).running = s.running := rfl
@[simp] theorem State.used_planned : (s.used).planned = s.planned := rfl
@[simp] theorem State.used_domainOn (z : Nat) : (s.used).domainOn z = s.domainOn z := rfl
@[simp] theorem State.used_crewEnabled (z : Nat) : (s.used).crewEnabled z = s.crewEnabled z := rfl
@[simp] theorem State.raise_crew (a : Nat) (bs : List Nat) (z : Nat) : (s.raise a bs).crew z = s.crew z := rfl
@[simp] theorem State.raise_layer (a : Nat) (bs : List Nat) (z : Nat) : (s.raise a bs).layer z = s.layer z := rfl
@[simp] theorem State.raise_lane (a : Nat) (bs : List Nat) (z : Nat) : (s.raise a bs).lane z = s.lane z := rfl
@[simp] theorem State.raise_slot (a : Nat) (bs : List Nat) (z : Nat) : (s.raise a bs).slot z = s.slot z := rfl
@[simp] theorem State.raise_channel (a : Nat) (bs : List Nat) (z : Nat) : (s.raise a bs).channel z = s.channel z := rfl
@[simp] theorem State.raise_port (a : Nat) (bs : List Nat) (z : Nat) : (s.raise a bs).port z = s.port z := rfl
@[simp] theorem State.raise_region (a : Nat) (bs : List Nat) (z : Nat) : (s.raise a bs).region z = s.region z := rfl
@[simp] theorem State.raise_num (a : Nat) (bs : List Nat) (x y : Nat) : (s.raise a bs).num x y = s.num x y := rfl
@[simp] theorem State.raise_reg (a : Nat) (bs : List Nat) (x y : Nat) : (s.raise a bs).reg x y = s.reg x y := rfl
@[simp] theorem State.raise_counter (a : Nat) (bs : List Nat) (z : Nat) : (s.raise a bs).counter z = s.counter z := rfl
@[simp] theorem State.raise_awake (a : Nat) (bs : List Nat) : (s.raise a bs).awake = s.awake := rfl
@[simp] theorem State.raise_coxUp (a : Nat) (bs : List Nat) : (s.raise a bs).coxUp = s.coxUp := rfl
@[simp] theorem State.raise_running (a : Nat) (bs : List Nat) : (s.raise a bs).running = s.running := rfl
@[simp] theorem State.raise_planned (a : Nat) (bs : List Nat) : (s.raise a bs).planned = s.planned := rfl
@[simp] theorem State.raise_domainOn (a : Nat) (bs : List Nat) (z : Nat) : (s.raise a bs).domainOn z = s.domainOn z := rfl
@[simp] theorem State.raise_crewEnabled (a : Nat) (bs : List Nat) (z : Nat) : (s.raise a bs).crewEnabled z = s.crewEnabled z := rfl

end Sys2Proof.Machine
end

