-- ==== Sys2Proof/Laws/Access.lean ====
section
/-! SUPPORT. What a register access that completes at once does: a write reaches its register, and the two stores of a dual-key write bring
its value into effect. -/

set_option Elab.async false

namespace Sys2Proof

open Sys2Proof.Machine

theorem tabErase_tabSet_new {α : Type} (t : Tab α) (k : Nat) (v : α) (h : tabFind t k = none) : tabErase (tabSet t k v) k = t := by
  induction t with
  | nil => simp [tabSet, tabErase]
  | cons p t ih =>
    obtain ⟨k', v'⟩ := p
    by_cases e : k' = k
    · simp [tabFind, e] at h
    · simp only [tabFind, e, if_false] at h
      unfold tabSet
      split
      · simp [tabErase]
      · split
        · omega
        · simp [tabErase, e, ih h]

/-- A row that is found is one of the list, at its offset. -/
theorem findRow_mem {rows : List RegRow} {o : Nat} {r : RegRow} (h : findRow rows o = some r) : r ∈ rows ∧ r.off = o := by
  unfold findRow at h
  exact ⟨List.mem_of_find?_eq_some h, by simpa using List.find?_some h⟩

theorem reachable_on {s : State} {d : Option Nat} (h : d.all s.domainOn = true) : s.reachable d = true := by
  cases d with
  | none => rfl
  | some k => simp only [Option.all_some] at h; simp [State.reachable, h]

theorem wakeFor_on {s : State} {d : Option Nat} (h : d.all s.domainOn = true) : s.wakeFor d = s := by
  cases d with
  | none => rfl
  | some k => simp only [Option.all_some] at h; simp [State.wakeFor, h]

/-- The facts that a landing access gives. -/
theorem lands_reg {s : State} {acc : Acc} {b : Block} {off : Nat} (h : lands s acc b off = true) :
    ∃ r, s.regOf acc = some r ∧ r.block = b ∧ r.off = off ∧ r.range = 0 ∧ s.accOpen acc = true ∧
      tabFind s.keys (pageOf acc) = none ∧ r.domain.all s.domainOn = true := by
  simp only [lands, State.isReg, Bool.and_eq_true, Option.isNone_iff_eq_none] at h
  obtain ⟨⟨⟨ho, hr⟩, hk⟩, hd⟩ := h
  cases e : s.regOf acc with
  | none => simp [e] at hr
  | some r =>
    simp only [e, Option.any_some, Bool.and_eq_true, decide_eq_true_eq] at hr hd
    exact ⟨r, rfl, hr.1.1, hr.1.2, hr.2, ho, hk, hd⟩

theorem expireKey_none {s : State} {p : Nat} (h : tabFind s.keys p = none) : s.expireKey p = s := by simp [State.expireKey, h]

theorem disturb_none {s : State} {p : Nat} (h : tabFind s.keys p = none) (n : Nat) : s.disturb p n = s := by simp [State.disturb, h]

theorem accOpen_awake {s : State} {acc : Acc} (h : s.accOpen acc = true) : s.awake = true := by
  simp only [State.accOpen, Bool.and_eq_true] at h
  exact h.1.1

/-- A landing write of a register without a dual key reaches the register (03 R55). -/
theorem writeAccess_lands {s : State} {acc : Acc} {b : Block} {off : Nat} (h : lands s acc b off = true) {r : Reg}
    (hr : s.regOf acc = some r) (hb : b ≠ .smu) (ha : r.row.kind ≠ .keyA) (hk : r.row.kind ≠ .keyB) (v : Nat) :
    s.writeAccess acc v = s.writeReg acc r v := by
  obtain ⟨r', e, eb, eo, er, ho, hn, hdom⟩ := lands_reg h
  rw [hr] at e
  cases e
  have hd := reachable_on hdom
  have hw := wakeFor_on hdom
  have hwr : r.writable = true := by simp [Reg.writable, eb, hb]
  simp [State.writeAccess, expireKey_none hn, disturb_none hn, hr, Option.filter, hwr, hd, hw, ha, hk, accOpen_awake ho]

/-- A landing read of a register (03 R55). -/
theorem readAccess_lands {s : State} {acc : Acc} {b : Block} {off : Nat} (h : lands s acc b off = true) {r : Reg}
    (hr : s.regOf acc = some r) : s.readAccess acc = ((s.readReg acc.master acc.crew r).1, some (s.readReg acc.master acc.crew r).2) := by
  obtain ⟨r', e, eb, eo, er, ho, hn, hdom⟩ := lands_reg h
  rw [hr] at e
  cases e
  have hd := reachable_on hdom
  have hw := wakeFor_on hdom
  simp [State.readAccess, expireKey_none hn, disturb_none hn, hr, hd, hw]

/-- A write that reaches a register without a dual key, at its address or at an alias (03 R55, R56). -/
theorem writeAccess_reaches {s : State} {acc : Acc} {r : Reg} (h : reaches s acc r = true) (ha : r.row.kind ≠ .keyA) (hk : r.row.kind ≠ .keyB)
    (v : Nat) : s.writeAccess acc v = s.writeReg acc r v := by
  simp only [reaches, Bool.and_eq_true, Option.isNone_iff_eq_none, decide_eq_true_eq] at h
  obtain ⟨⟨⟨⟨ho, hr⟩, hn⟩, hd⟩, hw⟩ := h
  simp [State.writeAccess, expireKey_none hn, disturb_none hn, hr, Option.filter, hw, reachable_on hd, wakeFor_on hd, ha, hk, accOpen_awake ho]

/-- The row of a register that an access names, but for a crew's view of its channels, is its block's at its offset. -/
theorem row_of_regOf {s : State} {acc : Acc} {r : Reg} (hr : s.regOf acc = some r) (hb : r.block ≠ .move) :
    ∃ j, regRow r.block r.off j = some r.row := by
  unfold State.regOf at hr
  cases eg : globalOf acc with
  | none => simp [eg] at hr
  | some g =>
    simp only [eg, Option.bind_some] at hr
    unfold State.regAt at hr
    cases e : blockAt g with
    | none => simp [e] at hr
    | some b =>
      rw [e] at hr
      cases b with
      | crew c =>
        simp only [Option.map_eq_some_iff] at hr
        obtain ⟨row, e1, e2⟩ := hr
        split at e2
        · subst e2
          exact absurd rfl hb
        · subst e2
          exact ⟨_, e1⟩
      | _ =>
        simp only [Option.map_eq_some_iff] at hr
        obtain ⟨row, e1, e2⟩ := hr
        subst e2
        exact ⟨_, e1⟩

/-- A landing write of a command register gives the command: `b` at `off` has a row, and every row there is a command without PV bits. -/
theorem command_lands {s : State} {acc : Acc} {b : Block} {off : Nat} (h : lands s acc b off = true) (hb : b ≠ .smu) (hm : b ≠ .move)
    (hc : ∀ j row, regRow b off j = some row → row.kind = .command ∧ row.pv = 0) (v : Nat) :
    s.isReg acc b off = true ∧
      ∃ r, r.block = b ∧ r.off = off ∧ s.regOf acc = some r ∧ s.writeAccess acc v = s.command acc.crew r v := by
  obtain ⟨r, hr, eb, eo, er, ho, hn, hd⟩ := lands_reg h
  obtain ⟨j, hj⟩ := row_of_regOf hr (by rw [eb]; exact hm)
  rw [eb, eo] at hj
  obtain ⟨hk, hp⟩ := hc j _ hj
  refine ⟨?_, r, eb, eo, hr, ?_⟩
  · simp only [lands, Bool.and_eq_true] at h
    exact h.1.1
  · rw [writeAccess_lands h hr hb (by simp [hk]) (by simp [hk])]
    simp [State.writeReg, hk, er, State.pvCheck, hp, State.managedReg, eb, hm]

/-! ### Updates that agree at the entry they change -/

theorem modLane_congr {u : State} {n : Nat} {f g : Lane → Lane} (h : f (u.lane n) = g (u.lane n)) : u.modLane n f = u.modLane n g := by
  simp only [State.modLane, tabMod]
  have : f (tabGet blankLane u.lanes n) = g (tabGet blankLane u.lanes n) := h
  rw [this]

theorem modCrew_congr {u : State} {n : Nat} {f g : Crew → Crew} (h : f (u.crew n) = g (u.crew n)) : u.modCrew n f = u.modCrew n g := by
  simp only [State.modCrew, tabMod]
  have : f (tabGet blankCrew u.crews n) = g (tabGet blankCrew u.crews n) := h
  rw [this]

theorem modSlot_congr {u : State} {n : Nat} {f g : Slot → Slot} (h : f (u.slot n) = g (u.slot n)) : u.modSlot n f = u.modSlot n g := by
  simp only [State.modSlot, tabMod]
  have : f (tabGet blankSlot u.slots n) = g (tabGet blankSlot u.slots n) := h
  rw [this]

/-! ### Commands of a lane -/

/-- A command of a lane acts after what was due on the lane, where its instant has come. -/
theorem happenOn_eq (dt n : Nat) (ready : State → Bool) (eff : State → State) (s : State) :
    happenOn dt n ready eff s = .next (if (decide (n < 8) && ready (s.meet dt n)) = true then eff (s.meet dt n) else s.tick dt) := rfl

/-! ### CH.CTRL -/

/-- Setting one of the controls of a word changes nothing under a mask without them. -/
theorem control_mask {x bit mask c : Nat} (hb : 2 ^ bit &&& c = 2 ^ bit) (hm : (0xFFFF_FFFF ^^^ c) &&& mask = mask) (h0 : c &&& mask = 0) :
    ((x &&& (0xFFFF_FFFF ^^^ c)) ||| 2 ^ bit) &&& mask = x &&& mask := by
  have e : 2 ^ bit &&& mask = 0 := by rw [← hb, Nat.and_assoc, h0, Nat.and_zero]
  rw [Nat.and_or_distrib_right, Nat.and_assoc, hm, e, Nat.or_zero]

/-- A word within 32 bits is its bits outside a mask and those inside. -/
theorem mask_split {x mask : Nat} (hx : x < 2 ^ 32) (hm : (0xFFFF_FFFF ^^^ mask) ||| mask = 0xFFFF_FFFF) :
    (x &&& (0xFFFF_FFFF ^^^ mask)) ||| (x &&& mask) = x := by
  rw [← Nat.and_or_distrib_left, hm]
  have := Nat.and_two_pow_sub_one_of_lt_two_pow hx
  simpa using this

theorem reg_lt (s : State) (a d : Nat) : s.reg a d < 2 ^ 32 := (tabGet (BitVec.ofNat 32 d) s.regs a).isLt

/-- The row of a register of MOVE, seen in its own block or in its owner's page. -/
theorem row_of_channel {s : State} {acc : Acc} {r : Reg} (hr : s.regOf acc = some r) (hb : r.block = .move) (ho : r.off % 0x100 = 0x40) :
    r.row = { plainReg 0x40 0xFEC0 0x200 0xFFFF_0130 0 with off := r.off } := by
  have key : findRow moveChannelRows 0x40 = some (plainReg 0x40 0xFEC0 0x200 0xFFFF_0130 0) := by decide
  unfold State.regOf at hr
  cases eg : globalOf acc with
  | none => simp [eg] at hr
  | some g =>
    simp only [eg, Option.bind_some] at hr
    unfold State.regAt at hr
    cases e : blockAt g with
    | none => simp [e] at hr
    | some b =>
      rw [e] at hr
      cases b with
      | crew c =>
        simp only [Option.map_eq_some_iff] at hr
        obtain ⟨row, e1, e2⟩ := hr
        split at e2
        · rename_i hin
          subst e2
          have hm : (g % 16384) % 256 = 64 := by
            have : ((s.channelsOf c).getD ((g % 16384 - 4096) / 256) 0 * 256 + g % 16384 % 256) % 256 = 64 := ho
            omega
          have e3 : (if (g % 16384 - 4096) / 256 < (s.channelsOf c).length then channelRow moveChannelRows (g % 16384) else none) = some row := by
            have := e1
            unfold regRow at this
            dsimp only at this
            rw [if_pos hin] at this
            exact this
          split at e3
          · unfold channelRow at e3
            rw [hm, key] at e3
            cases e3
            rfl
          · cases e3
        · subst e2
          cases hb
      | move =>
        simp only [Option.map_eq_some_iff] at hr
        obtain ⟨row, e1, e2⟩ := hr
        subst e2
        have hm : (g % 16384) % 256 = 64 := ho
        have e3 : (if g % 16384 < 0x100 ∧ 0xC0 ≤ g % 16384 then findRow moveGlobalRows (g % 16384)
          else if g % 16384 < 0x4000 then channelRow moveChannelRows (g % 16384) else none) = some row := e1
        rw [if_neg (by omega), if_pos (by omega)] at e3
        unfold channelRow at e3
        rw [hm, key] at e3
        cases e3
        rfl
      | _ =>
        simp only [Option.map_eq_some_iff] at hr
        obtain ⟨row, e1, e2⟩ := hr
        subst e2
        cases hb

/-- A global register of MOVE is not seen in a crew's page. -/
theorem row_of_move {s : State} {acc : Acc} {r : Reg} {o : Nat} (hr : s.regOf acc = some r) (hb : r.block = .move) (ho : r.off = o)
    (h1 : 0xC0 ≤ o) (h2 : o < 0x100) (hn : findRow moveChannelRows o = none) : findRow moveGlobalRows o = some r.row := by
  unfold State.regOf at hr
  cases eg : globalOf acc with
  | none => simp [eg] at hr
  | some g =>
    simp only [eg, Option.bind_some] at hr
    unfold State.regAt at hr
    cases e : blockAt g with
    | none => simp [e] at hr
    | some b =>
      rw [e] at hr
      cases b with
      | crew c =>
        simp only [Option.map_eq_some_iff] at hr
        obtain ⟨row, e1, e2⟩ := hr
        split at e2
        · rename_i hin
          subst e2
          have hm : (g % 16384) % 256 = o := by
            have : (s.channelsOf c).getD ((g % 16384 - 4096) / 256) 0 * 256 + g % 16384 % 256 = o := ho
            omega
          have e3 : (if (g % 16384 - 4096) / 256 < (s.channelsOf c).length then channelRow moveChannelRows (g % 16384) else none) = some row := by
            have := e1
            unfold regRow at this
            dsimp only at this
            rw [if_pos hin] at this
            exact this
          split at e3
          · unfold channelRow at e3
            rw [hm, hn] at e3
            cases e3
          · cases e3
        · subst e2
          cases hb
      | move =>
        simp only [Option.map_eq_some_iff] at hr
        obtain ⟨row, e1, e2⟩ := hr
        subst e2
        have hm : g % 16384 = o := ho
        have e3 : (if g % 16384 < 0x100 ∧ 0xC0 ≤ g % 16384 then findRow moveGlobalRows (g % 16384)
          else if g % 16384 < 0x4000 then channelRow moveChannelRows (g % 16384) else none) = some row := e1
        rw [hm, if_pos ⟨h2, h1⟩] at e3
        exact e3
      | _ =>
        simp only [Option.map_eq_some_iff] at hr
        obtain ⟨row, e1, e2⟩ := hr
        subst e2
        cases hb

/-- A landing write of a command register of MOVE gives the command. -/
theorem moveCommand_lands {s : State} {acc : Acc} {o : Nat} (h : lands s acc .move o = true) (h1 : 0xC0 ≤ o) (h2 : o < 0x100)
    (hn : findRow moveChannelRows o = none) {row : RegRow} (hc : findRow moveGlobalRows o = some row) (hk : row.kind = .command)
    (v : Nat) (hv : (s.reg (Block.move.base + o) 0 ^^^ v) &&& row.pv = 0) :
    s.isReg acc .move o = true ∧ ∃ r, r.block = .move ∧ r.off = o ∧ s.regOf acc = some r ∧ s.writeAccess acc v = s.command acc.crew r v := by
  obtain ⟨r, hr, eb, eo, er, ho, hx, hd⟩ := lands_reg h
  have e := row_of_move hr eb eo h1 h2 hn
  rw [hc] at e
  have e : row = r.row := Option.some.inj e
  rw [e] at hk hv
  refine ⟨by simp only [lands, Bool.and_eq_true] at h; exact h.1.1, r, eb, eo, hr, ?_⟩
  rw [writeAccess_lands h hr (by simp) (by simp [hk]) (by simp [hk])]
  have hkey : s.regKey r = Block.move.base + o := by simp [State.regKey, eb, Reg.addr, eo]
  simp [State.writeReg, hk, er, State.pvCheck, hkey, hv, State.managedReg, within, eo, h1, show o ≤ 0xFF by omega]

/-- The row of CH.CTRL of a utility DMA channel. -/
theorem row_of_udma {s : State} {acc : Acc} {r : Reg} (hr : s.regOf acc = some r) (eb : r.block = .udma) (h1 : r.off % 0x100 = 0x40)
    (h2 : r.off < 0x800) : r.row = { plainReg 0x40 0xC0 0 0xFFFF_FF38 0 with off := r.off } := by
  obtain ⟨j, hj⟩ := row_of_regOf hr (by rw [eb]; simp)
  rw [eb] at hj
  have key : findRow udmaChannelRows 0x40 = some (plainReg 0x40 0xC0 0 0xFFFF_FF38 0) := by decide
  have e3 : (if r.off = 0x800 then some (statusReg 0x800 0xFFFC) else if r.off < 0x800 then channelRow udmaChannelRows r.off else none) = some r.row := hj
  rw [if_neg (by omega), if_pos h2] at e3
  unfold channelRow at e3
  rw [h1, key] at e3
  exact (Option.some.inj e3).symm

/-- CH.CTRL's controls `c` are neither stored bits nor PV bits of its row (10 R284, R285). -/
def controlRow (row : RegRow) (c : Nat) : Prop :=
  row.kind = .plain ∧ (0xFFFF_FFFF ^^^ c) &&& row.rw = row.rw ∧ c &&& row.rw = 0 ∧ (0xFFFF_FFFF ^^^ row.rw) ||| row.rw = 0xFFFF_FFFF ∧
    (0xFFFF_FFFF ^^^ c) &&& row.pv = row.pv ∧ c &&& row.pv = 0

theorem controlRow_move (o : Nat) : controlRow { plainReg 0x40 0xFEC0 0x200 0xFFFF_0130 0 with off := o } 0xF := by
  refine ⟨rfl, ?_, ?_, ?_, ?_, ?_⟩ <;> simp only [plainReg] <;> decide

theorem controlRow_udma (o : Nat) : controlRow { plainReg 0x40 0xC0 0 0xFFFF_FF38 0 with off := o } 7 := by
  refine ⟨rfl, ?_, ?_, ?_, ?_, ?_⟩ <;> simp only [plainReg] <;> decide

theorem row_of_control {s : State} {acc : Acc} {k : Nat} {r : Reg} (hr : s.regOf acc = some r)
    (eb : r.block = if k < 64 then .move else .udma) (eo : r.off = k % 64 * 0x100 + 0x40) (hk : k < 72) :
    controlRow r.row (controlBits r.block) := by
  by_cases hlt : k < 64
  · rw [if_pos hlt] at eb
    rw [row_of_channel hr eb (by rw [eo]; omega), eb]
    exact controlRow_move _
  · rw [if_neg hlt] at eb
    rw [row_of_udma hr eb (by rw [eo]; omega) (by rw [eo]; omega), eb]
    exact controlRow_udma _

theorem controls_congr {s : State} {k v w : Nat} (h : ∀ i, i < 3 → bitOf v i = bitOf w i) (h3 : k < 64 → bitOf v 3 = bitOf w 3) :
    s.controls k v = s.controls k w := by
  unfold State.controls
  rw [h 0 (by omega), h 1 (by omega), h 2 (by omega)]
  by_cases hk : k < 64
  · rw [h3 hk]
  · simp [hk]

/-- A control of a channel written alone, where the channel may be written, is that control and nothing else (10 R282). -/
theorem control_lands {s : State} {acc : Acc} {k bit : Nat} (hk : k < 72) (hb : bit < 3 ∨ (bit = 3 ∧ k < 64))
    (h : lands s acc (if k < 64 then .move else .udma) (k % 64 * 0x100 + 0x40) = true)
    (hm : (s.channel k).managed = none ∨ acc.master = .cox) :
    s.isReg acc (if k < 64 then .move else .udma) (k % 64 * 0x100 + 0x40) = true ∧ s.controlWrite acc bit = s.controls k (2 ^ bit) := by
  obtain ⟨r, hr, eb, eo, er, ho, hn, hd⟩ := lands_reg h
  obtain ⟨hkind, h1, h2, h3, h4, h5⟩ := row_of_control hr eb eo hk
  have hch : r.channel = k := by
    unfold Reg.channel
    rw [eb, eo]
    by_cases hlt : k < 64
    · rw [if_pos hlt, if_neg (by simp)]
      omega
    · rw [if_neg hlt, if_pos rfl]
      omega
  have hkey : s.regKey r = r.addr := by
    unfold State.regKey
    rw [if_neg (by rw [eb]; split <;> simp)]
  have hpeek : s.peek r = s.reg r.addr r.row.reset := by simp only [State.peek, hkind, hkey]
  have hbit : 2 ^ bit &&& controlBits r.block = 2 ^ bit := by
    rw [eb]
    rcases hb with hb | ⟨rfl, hlt⟩
    · have : bit = 0 ∨ bit = 1 ∨ bit = 2 := by omega
      rcases this with rfl | rfl | rfl <;> split <;> decide
    · rw [if_pos hlt]
      decide
  refine ⟨by simp only [lands, Bool.and_eq_true] at h; exact h.1.1, ?_⟩
  generalize hv : (s.peek r &&& (0xFFFF_FFFF ^^^ controlBits r.block)) ||| 2 ^ bit = v
  have hnext : r.next (s.reg r.addr r.row.reset) v = s.reg r.addr r.row.reset := by
    simp only [Reg.next, er, if_true, merged, all32, ← hv, control_mask hbit h1 h2, hpeek]
    exact mask_split (reg_lt _ _ _) h3
  have hpv : (s.reg r.addr r.row.reset ^^^ v) &&& r.row.pv = 0 := by
    rw [Nat.and_xor_distrib_right, ← hv, control_mask hbit h4 h5, hpeek, Nat.xor_self]
  have hw : s.writeAccess acc v = s.writeReg acc r v :=
    writeAccess_lands h hr (by split <;> simp) (by simp [hkind]) (by simp [hkind]) v
  have hcheck : s.pvCheck acc r v = s := by simp [State.pvCheck, hkind, hkey, hpv]
  have hman : s.managedReg acc r = false := by
    unfold State.managedReg
    by_cases hlt : k < 64
    · rw [hch]
      rcases hm with hm | hm <;> simp [hm]
    · rw [eb, if_neg hlt]
      simp
  have hwrite : s.writeReg acc r v = s.channelWrite r v := by
    unfold State.writeReg
    rw [if_pos er, hcheck, hkind, if_neg (by simp [er]), hman]
    simp only [Bool.false_eq_true, if_false]
    unfold State.plainWrite
    by_cases hlt : k < 64
    · rw [if_pos hlt] at eb
      simp only [eb]
      rw [if_neg (by rw [eo]; omega)]
    · rw [if_neg hlt] at eb
      simp only [eb]
  have hcall : s.channelWrite r v = s.controls k v := by
    unfold State.channelWrite
    rw [hch]
    have e2 : decide (r.off % 0x100 = 0x40) = true := by rw [eo]; simp
    simp only [e2, hnext, and_self, if_true, er]
  have hctl : s.controls k v = s.controls k (2 ^ bit) := by
    apply controls_congr
    · intro i hi
      have : (0xFFFF_FFFF ^^^ controlBits r.block).testBit i = false := by
        rw [eb]
        have : i = 0 ∨ i = 1 ∨ i = 2 := by omega
        rcases this with rfl | rfl | rfl <;> split <;> decide
      rw [← hv, bitOf, bitOf, Nat.testBit_or, Nat.testBit_and, this, Bool.and_false, Bool.false_or]
    · intro hlt
      have : (0xFFFF_FFFF ^^^ controlBits r.block).testBit 3 = false := by
        rw [eb, if_pos hlt]
        decide
      rw [← hv, bitOf, bitOf, Nat.testBit_or, Nat.testBit_and, this, Bool.and_false, Bool.false_or]
  unfold State.controlWrite
  rw [hr]
  dsimp only
  rw [hv, hw, hwrite, hcall, hctl]

/-! ### Dual keys -/

/-- Every KEY_A of a block is followed by its KEY_B. -/
theorem keyB_follows {rows : List RegRow} (h : rows.all (fun r => decide (r.kind = .keyA → (findRow rows (r.off + 4)).any (fun x => decide (x.kind = .keyB)) = true)) = true)
    {o : Nat} {r : RegRow} (hr : findRow rows o = some r) (hk : r.kind = .keyA) : ∃ x, findRow rows (o + 4) = some x ∧ x.kind = .keyB := by
  obtain ⟨hm, rfl⟩ := findRow_mem hr
  have q := List.all_eq_true.1 h r hm
  simp only [decide_eq_true_eq] at q
  have q := q hk
  cases e : findRow rows (r.off + 4) with
  | none => simp [e] at q
  | some x => exact ⟨x, rfl, by simpa [e] using q⟩

theorem kind_channelRow {rows : List RegRow} (h : rows.all (fun r => decide (r.kind ≠ .keyA)) = true) {o : Nat} {r : RegRow}
    (hr : channelRow rows o = some r) : r.kind ≠ .keyA := by
  unfold channelRow at hr
  cases e : findRow rows (o % 0x100) with
  | none => simp [e] at hr
  | some x =>
    simp only [e, Option.map_some, Option.some.injEq] at hr
    subst hr
    simpa using List.all_eq_true.1 h x (findRow_mem e).1

theorem kind_findRow {rows : List RegRow} (h : rows.all (fun r => decide (r.kind ≠ .keyA)) = true) {o : Nat} {r : RegRow}
    (hr : findRow rows o = some r) : r.kind ≠ .keyA := by
  simpa using List.all_eq_true.1 h r (findRow_mem hr).1

/-- A page of a crew has no dual-key register. -/
theorem crew_no_keyA {c o j : Nat} {r : RegRow} (h : regRow (.crew c) o j = some r) : r.kind ≠ .keyA := by
  unfold regRow at h
  dsimp only at h
  split at h
  · split at h
    · exact kind_channelRow (by decide) h
    · cases h
  · split at h
    · cases h
      simp [cmdReg]
    · split at h
      · cases h
        simp [roReg]
      · exact kind_findRow (by decide) h

/-- The register after a KEY_A of a block is its KEY_B (03 R60). -/
theorem regRow_keyB {b : Block} {o : Nat} {r : RegRow} (h : regRow b o 0 = some r) (hk : r.kind = .keyA) :
    (∃ x, regRow b (o + 4) 0 = some x ∧ x.kind = .keyB) ∧ o + 4 < 0x4000 := by
  have bound {rows : List RegRow} (hb : rows.all (fun r => decide (r.off + 4 < 0x4000)) = true) (hr : findRow rows o = some r) : o + 4 < 0x4000 := by
    obtain ⟨hm, rfl⟩ := findRow_mem hr
    simpa using List.all_eq_true.1 hb r hm
  cases b with
  | sys => exact ⟨keyB_follows (rows := sysRows) (by decide) h hk, bound (rows := sysRows) (by decide) h⟩
  | power => exact ⟨keyB_follows (rows := powerRows) (by decide) h hk, bound (rows := powerRows) (by decide) h⟩
  | clk => exact ⟨keyB_follows (rows := clkRows) (by decide) h hk, bound (rows := clkRows) (by decide) h⟩
  | umpire => exact ⟨keyB_follows (rows := umpireRows) (by decide) h hk, bound (rows := umpireRows) (by decide) h⟩
  | cox => exact ⟨keyB_follows (rows := coxRows) (by decide) h hk, bound (rows := coxRows) (by decide) h⟩
  | sec => exact ⟨keyB_follows (rows := secRows) (by decide) h hk, bound (rows := secRows) (by decide) h⟩
  | lane n => exact absurd hk (kind_findRow (rows := laneRegRows) (by decide) h)
  | cam n => exact absurd hk (kind_findRow (rows := camRegRows) (by decide) h)
  | shell n => cases h
  | matrix => exact absurd hk (kind_findRow (rows := matrixRows) (by decide) h)
  | photo => exact absurd hk (kind_findRow (rows := photoRows) (by decide +kernel) h)
  | smu => exact absurd hk (kind_findRow (rows := smuRegRows) (by decide) h)
  | slk => exact absurd hk (kind_findRow (rows := slkRows) (by decide) h)
  | host p => exact absurd hk (kind_findRow (rows := hostRows) (by decide) h)
  | crew c => exact absurd hk (crew_no_keyA h)
  | move =>
    unfold regRow at h
    dsimp only at h
    split at h
    · exact absurd hk (kind_findRow (rows := moveGlobalRows) (by decide) h)
    · split at h
      · exact absurd hk (kind_channelRow (rows := moveChannelRows) (by decide) h)
      · cases h
  | udma =>
    unfold regRow at h
    dsimp only at h
    split at h
    · cases h
      simp [statusReg] at hk
    · split at h
      · exact absurd hk (kind_channelRow (rows := udmaChannelRows) (by decide) h)
      · cases h
  | counts =>
    unfold regRow countsRow at h
    dsimp only at h
    (repeat' split at h) <;> cases h <;> simp [cmdReg, roReg, plainReg] at hk

theorem blockAt_page {g h : Nat} (e : g / 0x1_0000 = h / 0x1_0000) : blockAt g = blockAt h := by
  unfold blockAt
  rw [e]

theorem blockAt_crewPage {a c : Nat} (h : a / 0x1_0000 = 0x200 + c) : blockAt a = if c < 512 then some (.crew c) else none := by
  unfold blockAt
  dsimp only
  rw [h]
  repeat rw [if_neg (show ¬ _ by omega)]
  by_cases hc : c < 512
  · rw [if_pos (by omega), if_pos hc, Nat.add_sub_cancel_left]
  · rw [if_neg (by omega), if_neg hc]

/-- The access of a KEY_A's second address names its KEY_B, in the same page and domain (03 R60). -/
theorem regOf_keyB {s : State} {acc : Acc} {r : Reg} (hr : s.regOf acc = some r) (hk : r.row.kind = .keyA) (h0 : r.range = 0) :
    (∃ x, s.regOf { acc with addr := acc.addr + 4 } = some x ∧ x.row.kind = .keyB ∧ x.range = 0 ∧ x.domain = r.domain ∧ x.block = r.block) ∧
      pageOf { acc with addr := acc.addr + 4 } = pageOf acc := by
  unfold State.regOf at hr
  cases eg : globalOf acc with
  | none => simp [eg] at hr
  | some g =>
    simp only [eg, Option.bind_some] at hr
    have crewPage {c : Nat} (hb : blockAt g = some (.crew c)) : False := by
      unfold State.regAt at hr
      simp only [hb, Option.map_eq_some_iff] at hr
      obtain ⟨row, e1, e2⟩ := hr
      have k := crew_no_keyA e1
      split at e2 <;> (subst e2; exact k hk)
    have hmain : ∃ b row, blockAt g = some b ∧ regRow b (g % 0x4000) 0 = some row ∧ row.kind = .keyA ∧ g % 0x1_0000 / 0x4000 = 0 ∧
        b ≠ .photo ∧ r.domain = blockDomain b ∧ r.block = b := by
      unfold State.regAt at hr
      cases hb : blockAt g with
      | none => simp [hb] at hr
      | some b =>
        rw [hb] at hr
        cases b with
        | crew c => exact (crewPage hb).elim
        | photo =>
          simp only [Option.map_eq_some_iff] at hr
          obtain ⟨row, e1, e2⟩ := hr
          subst e2
          exact absurd hk (kind_findRow (rows := photoRows) (by decide +kernel) e1)
        | _ =>
          simp only [Option.map_eq_some_iff] at hr
          obtain ⟨row, e1, e2⟩ := hr
          subst e2
          exact ⟨_, row, rfl, e1, hk, h0, by simp, rfl, rfl⟩
    obtain ⟨b, row, hb, e1, e2, e3, hp, ed, eblk⟩ := hmain
    obtain ⟨⟨x, ex, kx⟩, hlt⟩ := regRow_keyB e1 e2
    have hpage : (g + 4) / 0x1_0000 = g / 0x1_0000 := by omega
    have hoff : (g + 4) % 0x4000 = g % 0x4000 + 4 := by omega
    have hrange : (g + 4) % 0x1_0000 / 0x4000 = 0 := by omega
    have eg' : globalOf { acc with addr := acc.addr + 4 } = some (g + 4) := by
      unfold globalOf at eg ⊢
      split at eg
      · rename_i hc
        split at eg
        · rename_i ha
          cases eg
          simp only [hc, if_true]
          rw [if_pos]
          have : acc.addr / 0x1_0000 < 0x400 := by omega
          omega
        · cases eg
      · rename_i hc
        split at eg
        · cases eg
          exfalso
          have : blockAt ((Block.crew acc.crew).base + acc.addr) = some b := hb
          rename_i ha
          have hpg : ((Block.crew acc.crew).base + acc.addr) / 0x1_0000 = 0x200 + acc.crew := by simp only [Block.base]; omega
          rw [blockAt_crewPage hpg] at this
          split at this
          · exact crewPage (c := acc.crew) (by rw [blockAt_crewPage hpg, if_pos ‹_›])
          · cases this
        · cases eg
    refine ⟨⟨{ block := b, off := g % 0x4000 + 4, row := x, page := (g + 4) / 0x1_0000, range := (g + 4) % 0x1_0000 / 0x4000, domain := blockDomain b },
      ?_, kx, hrange, ed.symm, eblk.symm⟩, ?_⟩
    · unfold State.regOf
      rw [eg']
      simp only [Option.bind_some]
      unfold State.regAt
      rw [blockAt_page hpage, hb]
      cases b with
      | crew c => exact absurd e2 (crew_no_keyA e1)
      | photo => exact absurd rfl hp
      | _ => simp only [hoff, ex, Option.map_some]
    · simp [pageOf, eg, eg', hpage]

/-- The two stores of a dual-key write, KEY_A and its complement at KEY_B, bring the value into effect and leave no attempt open (03 R60). -/
theorem dualKey_lands {s : State} {acc : Acc} {b : Block} {off : Nat} (h : lands s acc b off = true) {r : Reg} (hr : s.regOf acc = some r)
    (hb : b ≠ .smu) (hk : r.row.kind = .keyA) (v : Word) : s.dualKey acc v.toNat = s.keyEffect r v.toNat := by
  obtain ⟨r', e, eb, eo, er, ho, hn, hdom⟩ := lands_reg h
  rw [hr] at e
  cases e
  have hd := reachable_on hdom
  have hw := wakeFor_on hdom
  obtain ⟨⟨x, ex, kx, rx, dx, bx⟩, hpage⟩ := regOf_keyB hr hk er
  have hwr : r.writable = true := by simp [Reg.writable, eb, hb]
  have hwx : x.writable = true := by simp [Reg.writable, bx, eb, hb]
  obtain ⟨k, ek⟩ : ∃ k : KeyAttempt, k = KeyAttempt.mk acc.master acc.crew acc.addr (BitVec.ofNat 32 v.toNat) s.now := ⟨_, rfl⟩
  obtain ⟨u, hu⟩ : ∃ u : State, u = { s with keys := tabSet s.keys (pageOf acc) k } := ⟨_, rfl⟩
  have h1 : s.writeAccess acc v.toNat = u := by
    simp [State.writeAccess, expireKey_none hn, disturb_none hn, hr, Option.filter, hwr, hd, hw, hk, er, accOpen_awake ho, State.keyA, hu, ek]
  have hf : tabFind u.keys (pageOf acc) = some k := by simp [hu]
  have hx : u.expireKey (pageOf acc) = u := by
    have hnow : u.now = s.now := by rw [hu]
    unfold State.expireKey
    rw [hf]
    simp only [hnow, ek]
    rw [if_neg (by omega)]
  have hru : u.regOf = s.regOf := by rw [hu]; rfl
  have hdu : x.domain.all u.domainOn = true := by
    rw [dx, hu]
    exact hdom
  have hv : k.value.toNat = v.toNat := by simp [ek]
  have hb1 : ({ u with keys := tabErase u.keys (pageOf acc) } : State) = s := by
    rw [hu]
    simp only [tabErase_tabSet_new _ _ _ hn]
  have ha : ({ acc with addr := k.addr } : Acc) = acc := by rw [ek]
  unfold State.dualKey
  rw [h1]
  unfold State.writeAccess
  have hc : k.master = acc.master ∧ k.crew = acc.crew ∧ k.addr + 4 = acc.addr + 4 := by rw [ek]; simp
  have ha' : ({ master := acc.master, crew := acc.crew, addr := k.addr } : Acc) = acc := ha
  simp only [hpage, hx, hru, ex, reachable_on hdu, wakeFor_on hdu, Option.filter, hwx, if_true, kx, rx, State.keyB, hf, hc]
  simp only [hv, ha', hr, hb1]
  simp

end Sys2Proof
end

