-- ==== Sys2Proof/Laws/Commands.lean ====
section
/-! SUPPORT. Facts that the proofs about single commands share: what events, completion items and messages leave, event words, alarms,
clears and mailbox responses. -/

set_option Elab.async false

namespace Sys2Proof

open Sys2Proof.Machine

/-- A landing access on the KEY_A address of a dual-key register names that register. -/
theorem keyA_of_lands {s : State} {acc : Acc} {b : Block} {off : Nat} (h : lands s acc b off = true) (hb : b ≠ .move) (hc : ∀ j row, regRow b off j = some row → row.kind = .keyA) :
    ∃ r, s.regOf acc = some r ∧ r.block = b ∧ r.off = off ∧ r.row.kind = .keyA ∧ s.isReg acc b off = true := by
  obtain ⟨r, hr, eb, eo, er, ho, hn, hd⟩ := lands_reg h
  obtain ⟨j, hj⟩ := row_of_regOf hr (by rw [eb]; exact hb)
  rw [eb, eo] at hj
  refine ⟨r, hr, eb, eo, hc _ _ hj, ?_⟩
  simp only [lands, Bool.and_eq_true] at h
  exact h.1.1

/-- A state whose plan is built is configured. -/
theorem planned_configured {u : State} (h : u.planned = true) : u.configured = true := by
  simp only [State.planned, State.planBuilt, Bool.and_eq_true, decide_eq_true_eq] at h
  simp only [State.configured, Bool.and_eq_true, Bool.not_eq_true', decide_eq_false_iff_not]
  refine ⟨h.1, ?_⟩
  rcases h.2 with h | h | h | h <;> simp [h]

/-- What a request needs does not depend on what its crew holds. -/
theorem answers_modCrew {u : State} {c : Nat} {q : Req} {r : ObjRow} (h : answers u c q r) (k : Nat) (f : Crew → Crew) : answers (u.modCrew k f) c q r := h

/-- An MSI-X message leaves every mailbox response. -/
theorem mbxResp_msix (u : State) (c v d : Nat) : ((u.msix c v).crew d).mbxResp = (u.crew d).mbxResp := by
  unfold State.msix
  split
  · simp only [State.crew_modCrew]
    split <;> rfl
  · rfl

/-- A crew event leaves every mailbox response. -/
theorem mbxResp_raiseCrew (u : State) (c b d : Nat) : ((u.raiseCrew c b).crew d).mbxResp = (u.crew d).mbxResp := by
  unfold State.raiseCrew
  split
  · simp
  · simp [mbxResp_msix]

/-- A posted item leaves every mailbox response. -/
theorem mbxResp_post (u : State) (c w d : Nat) : ((u.post c w).crew d).mbxResp = (u.crew d).mbxResp := by
  unfold State.post
  split
  · rfl
  · split
    · simp only [State.send_crew, State.crew_modCrew]
      split <;> rfl
    · split
      · simp only [mbxResp_raiseCrew, State.crew_modCrew]
        split <;> rfl
      · unfold State.checkArm
        split
        · simp only [mbxResp_msix, State.crew_modCrew]
          split <;> rfl
        · simp only [State.crew_modCrew]
          split <;> rfl

/-- A state whose plan is built has its cox up. -/
theorem planned_coxUp {u : State} (h : u.planned = true) : u.coxUp = true := by
  simp only [State.planned, Bool.and_eq_true] at h
  exact h.1

/-- A lane that is gated stays so in a fold that only gates. -/
theorem keepGated {w : State} (h : ∀ k, w.clockRuns k = false) (l : List Nat) :
    l.foldl (fun u n => if u.clockRuns n = true ∧ (u.lane n).synthRef ≠ 0 then u.gateLane n else u) w = w := by
  induction l with
  | nil => rfl
  | cons a l ih => rw [List.foldl_cons, if_neg (by simp [h]), ih]

/-- What a store into a crew page leaves of the aperture. -/
theorem storeCrew_aperture (u : State) (c : Nat) (bs : List Byte) (a : Nat) :
    u.storeCrew c false a bs = { u with aperture := memWrites u.aperture (apertureKey c a) bs } := by
  induction bs generalizing u a with
  | nil => rfl
  | cons b bs ih =>
    unfold State.storeCrew
    rw [if_neg (by simp), ih, show apertureKey c (a + 1) = apertureKey c a + 1 by unfold apertureKey; omega, memWrites]

/-- A byte read after a run of bytes was written. -/
theorem memRead_memWrites (bs : List Byte) (m : List Host.Cell) (a k : Nat) (h : memWf m = true) :
    memRead (memWrites m a bs) k = if a ≤ k ∧ k < a + bs.length then bs.getD (k - a) 0 else memRead m k := by
  induction bs generalizing m a with
  | nil => rw [memWrites, if_neg (by simp only [List.length_nil]; omega)]
  | cons b bs ih =>
    rw [memWrites, ih _ _ (memWf_memWrite m a b h), memRead_memWrite m a k b h]
    by_cases h1 : a = k
    · subst h1
      simp
    · by_cases h2 : a + 1 ≤ k ∧ k < a + 1 + bs.length
      · have : k - a = (k - (a + 1)) + 1 := by omega
        rw [if_pos h2, if_pos (by simp only [List.length_cons]; omega), this, List.getD_cons_succ]
      · rw [if_neg h2, if_neg h1, if_neg (by simp only [List.length_cons]; omega)]

/-- A landing write of a command register of UMPIRE. -/
theorem cmd_umpire {u : State} {acc : Acc} {o : Nat} (h : lands u acc .umpire o = true) (hc : ∀ row, findRow umpireRows o = some row → row.kind = .command ∧ row.pv = 0) (v : Nat) :
    u.isReg acc .umpire o = true ∧ u.writeAccess acc v = if o = 4 then u.snapshot else u.umpireClear v := by
  obtain ⟨hi, r, eb, eo, hr, hw⟩ := command_lands h (by simp) (by simp) (fun j row e => hc row e) v
  exact ⟨hi, by rw [hw]; simp only [State.command, eb, eo]⟩

/-- The sources that a clear may remove, one by one (12 R337). -/
theorem testBit_clearable (u : State) (mask since n : Nat) (hn : n < 128) :
    (u.clearable mask since).testBit n = (mask.testBit n && u.umpire.latched.testBit n && decide (u.classOf n ≤ 2) && !u.umpire.active.testBit n &&
      decide (tabGet 0 u.umpire.lastAt n ≤ since)) := by
  have key (l : List Nat) (hd : l.Nodup) (w : Nat) : (l.foldl (fun w n =>
      if mask.testBit n && u.umpire.latched.testBit n && decide (u.classOf n ≤ 2) && !u.umpire.active.testBit n &&
         decide (tabGet 0 u.umpire.lastAt n ≤ since) then w ||| 2 ^ n else w) w).testBit n =
      (w.testBit n || (decide (n ∈ l) && (mask.testBit n && u.umpire.latched.testBit n && decide (u.classOf n ≤ 2) && !u.umpire.active.testBit n &&
      decide (tabGet 0 u.umpire.lastAt n ≤ since)))) := by
    induction l generalizing w with
    | nil => simp
    | cons a l ih =>
      rw [List.foldl_cons, ih (List.nodup_cons.1 hd).2]
      by_cases ha : n = a
      · subst ha
        have hx : decide (n ∈ l) = false := by simpa using (List.nodup_cons.1 hd).1
        rw [hx]
        split
        · rename_i hc
          rw [hc]
          simp
        · rename_i hc
          simp only [Bool.not_eq_true] at hc
          rw [hc]
          simp
      · have e1 : decide (n ∈ a :: l) = decide (n ∈ l) := by simp [ha]
        rw [e1]
        split
        · simp [Nat.testBit_or, Nat.testBit_two_pow_of_ne (Ne.symm ha)]
        · rfl
  have h := key (List.range 128) List.nodup_range 0
  unfold State.clearable
  rw [h]
  simp [hn]

/-- Releasing held-back classes leaves the latched word. -/
theorem release_latched (x : Umpire) (n : Nat) : (x.release n).latched = x.latched := by
  unfold Umpire.release
  split <;> rfl

/-- Raising an umpire event leaves the latched word. -/
theorem raiseUmpire_latched (u : State) (bs : List Nat) : (u.raiseUmpire bs).umpire.latched = u.umpire.latched := by
  unfold State.raiseUmpire
  split <;> rfl

/-- An alarm outside a debug attempt and outside the ROM check (14 R383). -/
theorem alarm_plain {u : State} {a : Nat} (h1 : u.sec.challenge = none) (h2 : u.romBusy = false) :
    u.alarm a = ((((u.modSec (fun c => { c with debugOpen := false, scope := 0, challenge := none, alarmLog := (AlarmEntry.mk a (u.policyNow a) u.uptime :: c.alarmLog).take 16 })).raise secStatus [0]).followNfault.occurAs 48 (alarmClass u.sec.policy a) a).runPolicy (u.policyNow a)) := by
  simp only [State.alarm, h1, Option.isSome_none, Bool.false_eq_true, if_false, State.alarmCore, h2]

/-- A policy while no erasure is in force (14 R385). -/
theorem runPolicy_open {v : State} {p : Nat} (h : v.sec.erased = false) :
    v.runPolicy p = (match p with
      | 0 => v.modSec (fun c => { c with policyMax := max c.policyMax p })
      | 1 => (v.modSec (fun c => { c with policyMax := max c.policyMax p })).modSec (fun c => { c with lock := true })
      | 2 => (v.modSec (fun c => { c with policyMax := max c.policyMax p })).eraseKeys false
      | _ => (v.modSec (fun c => { c with policyMax := max c.policyMax p })).eraseKeys true) := by
  unfold State.runPolicy
  exact if_neg (by simp [h])

/-- Entries set one after another with one value. -/
theorem foldSet_find (xs : List Nat) (q : Nat) : ∀ (t : Tab Nat) (b : Nat), tabFind (xs.foldl (fun t b => tabSet t b q) t) b = if b ∈ xs then some q else tabFind t b := by
  induction xs with
  | nil => intro t b; simp
  | cons x xs ih =>
    intro t b
    simp only [List.foldl_cons, ih, List.mem_cons]
    by_cases h1 : b ∈ xs
    · simp [h1]
    · by_cases h2 : b = x
      · subst h2; simp [h1]
      · simp [h1, h2, tabFind_tabSet_other _ _ (Ne.symm h2)]

/-- Keys set one after another stay below 24. -/
theorem foldSet_keys (xs : List Nat) (q : Nat) : ∀ (t : Tab Nat), (∀ p ∈ t, p.1 < 24) → (∀ b ∈ xs, b < 24) → ∀ p ∈ xs.foldl (fun t b => tabSet t b q) t, p.1 < 24 := by
  induction xs with
  | nil => intro t h _; exact h
  | cons x xs ih =>
    intro t h hx
    refine ih _ (fun p hp => ?_) (fun b hb => hx b (by simp [hb]))
    rcases mem_tabSet hp with rfl | hp
    · exact hx x (by simp)
    · exact h p hp

/-- A word of event bits stays below 2^24. -/
theorem orBits_lt (t : Tab Nat) : ∀ w, w < 2 ^ 24 → (∀ p ∈ t, p.1 < 24) → t.foldl (fun w p => w ||| 2 ^ p.1) w < 2 ^ 24 := by
  induction t with
  | nil => intro w h _; exact h
  | cons p t ih =>
    intro w h hp
    refine ih _ (Nat.or_lt_two_pow h ?_) (fun q hq => hp q (by simp [hq]))
    exact Nat.pow_lt_pow_right (by decide) (hp p (by simp))

/-- A bit once set stays set. -/
theorem orBits_mono (t : Tab Nat) (b : Nat) : ∀ w : Nat, w.testBit b = true → (t.foldl (fun (w : Nat) (p : Nat × Nat) => w ||| 2 ^ p.1) w).testBit b = true := by
  induction t with
  | nil => intro w h; exact h
  | cons p t ih => intro w h; exact ih _ (by simp [h])

/-- Each entry sets its bit. -/
theorem orBits_mem (t : Tab Nat) (b : Nat) : ∀ w : Nat, (tabFind t b).isSome = true → (t.foldl (fun (w : Nat) (p : Nat × Nat) => w ||| 2 ^ p.1) w).testBit b = true := by
  induction t with
  | nil => intro w h; simp [tabFind] at h
  | cons p t ih =>
    obtain ⟨k, v⟩ := p
    intro w h
    by_cases e : k = b
    · subst e
      exact orBits_mono t k _ (by simp)
    · exact ih _ (by simpa [tabFind, e] using h)

/-- What an MSI-X message leaves of the completion queues and the status registers. -/
theorem msix_crew (u : State) (c v d : Nat) : ((u.msix c v).crew d).eq = (u.crew d).eq ∧ ((u.msix c v).crew d).eqDrops = (u.crew d).eqDrops ∧
    (u.msix c v).status = u.status ∧ (d ≠ c → (u.msix c v).crew d = u.crew d) := by
  unfold State.msix
  split
  · simp only [State.crew_modCrew]
    split <;> exact ⟨rfl, rfl, rfl, fun h => by simp_all⟩
  · exact ⟨rfl, rfl, rfl, fun _ => rfl⟩

/-- What the armed vector leaves of the completion queues. -/
theorem checkArm_crew (u : State) (c d : Nat) : ((u.checkArm c).crew d).eq = (u.crew d).eq ∧ ((u.checkArm c).crew d).eqDrops = (u.crew d).eqDrops ∧
    (d ≠ c → (u.checkArm c).crew d = u.crew d) := by
  unfold State.checkArm
  split
  · obtain ⟨h1, h2, h3, h4⟩ := msix_crew (u.modCrew c (fun k => { k with eqArmed := false })) c 0 d
    rw [h1, h2]
    refine ⟨?_, ?_, fun h => ?_⟩
    · simp only [State.crew_modCrew]; split <;> rfl
    · simp only [State.crew_modCrew]; split <;> rfl
    · rw [h4 h, State.crew_modCrew, if_neg (Ne.symm h)]
  · exact ⟨rfl, rfl, fun _ => rfl⟩

/-- What a crew event leaves of the completion queues, and the event set. -/
theorem raiseCrew_crew (u : State) (c b d : Nat) : ((u.raiseCrew c b).crew d).eq = (u.crew d).eq ∧ ((u.raiseCrew c b).crew d).eqDrops = (u.crew d).eqDrops ∧
    (d ≠ c → (u.raiseCrew c b).crew d = u.crew d) ∧ ((u.raiseCrew c b).statusAt (crewStatus c)).has b = true := by
  have hb : ((u.raise (crewStatus c) [b]).statusAt (crewStatus c)).has b = true := by
    simp [State.raise, Status.has, Status.raised]
  unfold State.raiseCrew
  split
  · exact ⟨rfl, rfl, fun _ => rfl, hb⟩
  · obtain ⟨h1, h2, h3, h4⟩ := msix_crew (u.raise (crewStatus c) [b]) c 1 d
    exact ⟨h1, h2, h4, by unfold State.statusAt; rw [h3]; exact hb⟩

end Sys2Proof
end

