-- ==== Sys2Proof/Laws/Keeps.lean ====
section
/-! SUPPORT. What every effect keeps: the queue of waiting commands, the time, the soundness of the state's bookkeeping, and every
fuse that is set. -/

set_option Elab.async false

namespace Sys2Proof

open Sys2Proof.Machine

/-- From `a` to `s` the queue of waiting commands and the time stay, sound bookkeeping stays sound, and fuses only grow. -/
structure Keeps (a s : State) : Prop where
  pending : s.pending = a.pending
  now : s.now = a.now
  sound : Sound a → Sound s
  fuses : Sound a → Grown a.sec.fuses s.sec.fuses

@[simp] theorem Grown.refl (f : Fuses) : Grown f f := ⟨le_rfl, le_rfl, id, id, fun _ h => h, rfl⟩

theorem Grown.trans {a b c : Fuses} (h : Grown a b) (g : Grown b c) : Grown a c :=
  ⟨h.epoch.trans g.epoch, h.minVersion.trans g.minVersion, fun x => g.fieldLock (h.fieldLock x), fun x => g.keyKill (h.keyKill x),
   fun k x => g.revoked k (h.revoked k x), g.provisionHash.trans h.provisionHash⟩

@[simp] theorem Keeps.refl (a : State) : Keeps a a := ⟨rfl, rfl, id, fun _ => Grown.refl _⟩

theorem Keeps.trans {a b c : State} (h : Keeps a b) (g : Keeps b c) : Keeps a c :=
  ⟨g.pending.trans h.pending, g.now.trans h.now, fun x => g.sound (h.sound x), fun x => (h.fuses x).trans (g.fuses (h.sound x))⟩

/-- The queues of all crews are within their bound. -/
def queuesOk (t : Tab Crew) : Prop := ∀ c, (tabGet blankCrew t c).eq.length ≤ 256

/-- The pasts of all regions are within their bounds. -/
def regionsOk (t : Tab Region) : Prop := ∀ k, regionWf (tabGet blankRegion t k)

/-- A record update keeps what each changed field keeps. -/
@[simp] theorem Keeps.upd {a t : State} (h : Keeps a t) {fc : Nat} {out : List Out} {objs : Tab Val} {regs : Tab Word} {latches : Tab Nat}
    {status : Tab Status} {counts : Counts} {keys : Tab KeyAttempt} {access : Access} {ap hm : List Host.Cell} {fr : Tab Word} {pf : List Host.Cell}
    {sq : Nat} {commits : List Commit} {crews : Tab Crew} {layers : Tab Layer} {lanes : Tab Lane} {programs : Tab Program}
    {cams : Tab CamPort} {slots : Tab Slot} {channels : Tab Channel} {mover : Mover} {ports : Tab Port} {regions : Tab Region}
    {umpire : Umpire} {limp : Limp} {smu : Smu} {sec : Sec} {modes : Modes} {clocks : Clocks} {placement : Placement}
    {power : Power} {cascade : Cascade} {nodes : Tab Node} {segments : Tab Segment} {boots : Tab (Nat × Nat)}
    {panel : List (Nat × List Byte)} {early : Option EarlyCamera}
    (hap : memWf t.aperture = true → memWf ap = true) (hhm : memWf t.hostMem = true → memWf hm = true)
    (hfr : framesWf t.frames = true → framesWf fr = true)
    (hsq : 1 ≤ t.nextSeq ∧ t.nextSeq ≤ 0xFFFF_FFFF → 1 ≤ sq ∧ sq ≤ 0xFFFF_FFFF)
    (hcr : queuesOk t.crews → queuesOk crews) (hrg : regionsOk t.regions → regionsOk regions)
    (hlog : t.umpire.log.length ≤ 16 → umpire.log.length ≤ 16) (hth : t.power.throttle ≤ 7 → power.throttle ≤ 7)
    (hsec : t.sec.fuses.epoch ≤ 16 → Grown t.sec.fuses sec.fuses ∧ sec.fuses.epoch ≤ 16 := by exact fun e => ⟨Grown.refl _, e⟩)
    (hpf : memWf t.prefetch = true → memWf pf = true := by exact id) :
    Keeps a { pending := t.pending, now := t.now, freeCount := fc, out := out, objs := objs, regs := regs, latches := latches,
              status := status, counts := counts, keys := keys, access := access, aperture := ap, hostMem := hm, frames := fr,
              prefetch := pf,
              nextSeq := sq, commits := commits, crews := crews, layers := layers, lanes := lanes, programs := programs,
              cams := cams, slots := slots, channels := channels, mover := mover, ports := ports, regions := regions,
              umpire := umpire, limp := limp, smu := smu, sec := sec, modes := modes, clocks := clocks, placement := placement,
              power := power, cascade := cascade, nodes := nodes, segments := segments, bootQueues := boots, panelInit := panel,
              early := early } :=
  ⟨h.pending, h.now, fun x =>
    have y := h.sound x
    ⟨hap y.aperture, hhm y.hostMem, hfr y.frames, hpf y.prefetch, (hsq ⟨y.seqLow, y.seqHigh⟩).1, (hsq ⟨y.seqLow, y.seqHigh⟩).2, hth y.throttle,
     hlog y.log, hcr y.queues, hrg y.regions, (hsec y.epoch).2⟩, fun x => (h.fuses x).trans (hsec (h.sound x).epoch).1⟩

@[simp] theorem keeps_ite {a s t : State} {c : Prop} [Decidable c] :
    Keeps a (if c then s else t) ↔ (c → Keeps a s) ∧ (¬ c → Keeps a t) := by
  split <;> simp [*]

@[simp] theorem keeps_foldl {α : Type} {a : State} {g : State → α → State} (hg : ∀ t x, Keeps a t → Keeps a (g t x)) (l : List α) {s : State}
    (h : Keeps a s) : Keeps a (l.foldl g s) := by
  induction l generalizing s with
  | nil => exact h
  | cons x l ih => exact ih (hg _ _ h)

@[simp] theorem queuesOk_nil : queuesOk [] := fun c => by simp [tabGet, tabFind, blankCrew]

@[simp] theorem regionsOk_nil : regionsOk [] := fun c => by simp [tabGet, tabFind, blankRegion, regionWf]

@[simp] theorem memWf_nil : memWf [] = true := rfl

@[simp] theorem framesWf_nil : framesWf [] = true := rfl

theorem framesWf_iff (t : Tab Word) : framesWf t = true ↔ tabRising t = true ∧ ∀ p ∈ t, p.2 ≠ 0xC000_0000 := by simp [framesWf]

@[simp] theorem framesWf_filter (t : Tab Word) (f : Nat × Word → Bool) (h : framesWf t = true) : framesWf (t.filter f) = true := by
  rw [framesWf_iff] at *
  exact ⟨tabRising_filter _ _ h.1, fun p hp => h.2 p (List.mem_filter.1 hp).1⟩

theorem framesWf_write (t : Tab Word) (k : Nat) (v : Word) (h : framesWf t = true) :
    framesWf (if v = 0xC000_0000 then tabErase t k else tabSet t k v) = true := by
  rw [framesWf_iff] at *
  split
  · exact ⟨tabRising_tabErase _ _ h.1, fun p hp => h.2 p (mem_tabErase hp)⟩
  · rename_i hv
    refine ⟨tabRising_tabSet _ _ _ h.1, fun p hp => ?_⟩
    rcases mem_tabSet hp with rfl | hp
    · exact hv
    · exact h.2 p hp

/-- The next sequence number is in range where the last one was (04 R84). -/
theorem nextSeqOf_range (n : Nat) (h : 1 ≤ n ∧ n ≤ 0xFFFF_FFFF) : 1 ≤ nextSeqOf n ∧ nextSeqOf n ≤ 0xFFFF_FFFF := by
  unfold nextSeqOf
  split <;> omega

@[simp] theorem keeps_nextSeq {a t : State} (h : Keeps a t) {s : State} (k : Keeps a s) : Keeps a { t with nextSeq := nextSeqOf s.nextSeq } := by
  refine ⟨h.pending, h.now, fun x => ?_, h.fuses⟩
  have y := h.sound x
  have z := k.sound x
  have r := nextSeqOf_range _ ⟨z.seqLow, z.seqHigh⟩
  exact ⟨y.aperture, y.hostMem, y.frames, y.prefetch, r.1, r.2, y.throttle, y.log, y.queues, y.regions, y.epoch⟩

/-- A crew changed so that its own queue stays within its bound. -/
theorem keeps_modCrew_at {a s : State} (h : Keeps a s) (c : Nat) (f : Crew → Crew)
    (hf : (s.crew c).eq.length ≤ 256 → (f (s.crew c)).eq.length ≤ 256) : Keeps a (s.modCrew c f) := by
  refine h.upd id id id id (fun q d => ?_) id id id
  rw [tabGet_tabMod]
  split
  · rename_i hd
    subst hd
    exact hf (q c)
  · exact q d

@[simp] theorem queuesOk_map {t : Tab Crew} {f : Nat × Crew → Nat × Crew} (h : queuesOk t) (hf : ∀ p, (f p).1 = p.1)
    (hq : ∀ p, p.2.eq.length ≤ 256 → (f p).2.eq.length ≤ 256) : queuesOk (t.map f) := by
  intro d
  unfold tabGet
  rw [tabFind_map f hf]
  cases e : tabFind t d with
  | none => simp [blankCrew]
  | some v => simpa using hq (d, v) (by simpa [tabGet, e] using h d)

@[simp] theorem regionsOk_map {t : Tab Region} {f : Nat × Region → Nat × Region} (h : regionsOk t) (hf : ∀ p, (f p).1 = p.1)
    (hq : ∀ p, regionWf p.2 → regionWf (f p).2) : regionsOk (t.map f) := by
  intro d
  unfold tabGet
  rw [tabFind_map f hf]
  cases e : tabFind t d with
  | none => simp [blankRegion, regionWf]
  | some v => simpa using hq (d, v) (by simpa [tabGet, e] using h d)

theorem queuesOk_tabMod {t : Tab Crew} {c : Nat} {f : Crew → Crew} (hf : ∀ k, k.eq.length ≤ 256 → (f k).eq.length ≤ 256)
    (h : queuesOk t) : queuesOk (tabMod blankCrew t c f) := by
  intro d
  rw [tabGet_tabMod]
  split
  · exact hf _ (h d)
  · exact h d

theorem regionsOk_tabMod {t : Tab Region} {c : Nat} {f : Region → Region} (hf : ∀ k, regionWf k → regionWf (f k))
    (h : regionsOk t) : regionsOk (tabMod blankRegion t c f) := by
  intro d
  rw [tabGet_tabMod]
  split
  · exact hf _ (h d)
  · exact h d

end Sys2Proof
end

