-- ==== Sys2Proof/Laws/KeepsShared.lean ====
section
/-! SUPPORT. One lemma for each function that changes the state: what it keeps (Laws/Keeps.lean). Here: the shared operations: registers, flags, delivery, the umpire. -/

set_option Elab.async false

namespace Sys2Proof

open Sys2Proof.Machine

/-! ### Ops -/

@[simp] theorem keeps_setObj {a s : State} (h : Keeps a s) (index : Nat) (sub : Nat) (v : Val) : Keeps a (State.setObj s index sub v) := by
  exact h.upd id id id id id id id id

@[simp] theorem keeps_setKey {a s : State} (h : Keeps a s) (key : Nat) (v : Val) : Keeps a (State.setKey s key v) := by
  exact h.upd id id id id id id id id

@[simp] theorem keeps_setNum {a s : State} (h : Keeps a s) (index : Nat) (sub : Nat) (n : Nat) : Keeps a (State.setNum s index sub n) := by
  simp (maxDischargeDepth := 99) [State.setNum, h]

@[simp] theorem keeps_dropObjs {a s : State} (h : Keeps a s) (lo : Nat) (hi : Nat) : Keeps a (State.dropObjs s lo hi) := by
  exact h.upd id id id id id id id id

@[simp] theorem keeps_modCrew {a s : State} (h : Keeps a s) (c : Nat) (f : Crew → Crew) (hf : ∀ k, k.eq.length ≤ 256 → (f k).eq.length ≤ 256) :
    Keeps a (s.modCrew c f) :=
  h.upd id id id id (queuesOk_tabMod hf) id id id

@[simp] theorem keeps_modLayer {a s : State} (h : Keeps a s) (l : Nat) (f : Layer → Layer) : Keeps a (State.modLayer s l f) := by
  exact h.upd id id id id id id id id

@[simp] theorem keeps_modLane {a s : State} (h : Keeps a s) (n : Nat) (f : Lane → Lane) : Keeps a (State.modLane s n f) := by
  exact h.upd id id id id id id id id

@[simp] theorem keeps_modProgram {a s : State} (h : Keeps a s) (h1 : Nat) (f : Program → Program) : Keeps a (State.modProgram s h1 f) := by
  exact h.upd id id id id id id id id

@[simp] theorem keeps_modCam {a s : State} (h : Keeps a s) (p : Nat) (f : CamPort → CamPort) : Keeps a (State.modCam s p f) := by
  exact h.upd id id id id id id id id

@[simp] theorem keeps_modSlot {a s : State} (h : Keeps a s) (k : Nat) (f : Slot → Slot) : Keeps a (State.modSlot s k f) := by
  exact h.upd id id id id id id id id

@[simp] theorem keeps_modChannel {a s : State} (h : Keeps a s) (k : Nat) (f : Channel → Channel) : Keeps a (State.modChannel s k f) := by
  exact h.upd id id id id id id id id

@[simp] theorem keeps_modPort {a s : State} (h : Keeps a s) (p : Nat) (f : Port → Port) : Keeps a (State.modPort s p f) := by
  exact h.upd id id id id id id id id

@[simp] theorem keeps_modRegion {a s : State} (h : Keeps a s) (k : Nat) (f : Region → Region) (hf : ∀ r, regionWf r → regionWf (f r)) :
    Keeps a (s.modRegion k f) :=
  h.upd id id id id id (regionsOk_tabMod hf) id id

@[simp] theorem keeps_modStatus {a s : State} (h : Keeps a s) (a1 : Nat) (f : Status → Status) : Keeps a (State.modStatus s a1 f) := by
  exact h.upd id id id id id id id id

@[simp] theorem keeps_setReg {a s : State} (h : Keeps a s) (a1 : Nat) (v : Nat) : Keeps a (State.setReg s a1 v) := by
  exact h.upd id id id id id id id id

@[simp] theorem keeps_modUmpire {a s : State} (h : Keeps a s) (f : Umpire → Umpire) (hf : ∀ u, u.log.length ≤ 16 → (f u).log.length ≤ 16) :
    Keeps a (s.modUmpire f) :=
  h.upd id id id id id id (hf _) id

@[simp] theorem keeps_modSmu {a s : State} (h : Keeps a s) (f : Smu → Smu) : Keeps a (State.modSmu s f) := by
  exact h.upd id id id id id id id id

@[simp] theorem keeps_modSec {a s : State} (h : Keeps a s) (f : Sec → Sec) (hf : ∀ c, c.fuses.epoch ≤ 16 → Grown c.fuses (f c).fuses ∧ (f c).fuses.epoch ≤ 16) :
    Keeps a (s.modSec f) :=
  h.upd id id id id id id id id (hf _)

@[simp] theorem keeps_modModes {a s : State} (h : Keeps a s) (f : Modes → Modes) : Keeps a (State.modModes s f) := by
  exact h.upd id id id id id id id id

@[simp] theorem keeps_modClocks {a s : State} (h : Keeps a s) (f : Clocks → Clocks) : Keeps a (State.modClocks s f) := by
  exact h.upd id id id id id id id id

@[simp] theorem keeps_modPlacement {a s : State} (h : Keeps a s) (f : Placement → Placement) : Keeps a (State.modPlacement s f) := by
  exact h.upd id id id id id id id id

@[simp] theorem keeps_modPower {a s : State} (h : Keeps a s) (f : Power → Power) (hf : ∀ u, u.throttle ≤ 7 → (f u).throttle ≤ 7) :
    Keeps a (s.modPower f) :=
  h.upd id id id id id id id (hf _)

@[simp] theorem keeps_modCascade {a s : State} (h : Keeps a s) (f : Cascade → Cascade) : Keeps a (State.modCascade s f) := by
  exact h.upd id id id id id id id id

@[simp] theorem keeps_modAccess {a s : State} (h : Keeps a s) (f : Access → Access) : Keeps a (State.modAccess s f) := by
  exact h.upd id id id id id id id id

@[simp] theorem keeps_modMover {a s : State} (h : Keeps a s) (f : Mover → Mover) : Keeps a (State.modMover s f) := by
  exact h.upd id id id id id id id id

@[simp] theorem keeps_modLimp {a s : State} (h : Keeps a s) (f : Limp → Limp) : Keeps a (State.modLimp s f) := by
  exact h.upd id id id id id id id id

@[simp] theorem keeps_count {a s : State} (h : Keeps a s) (o : Nat) (k : Nat) : Keeps a (State.count s o k) := by
  exact h.upd id id id id id id id id

@[simp] theorem keeps_send {a s : State} (h : Keeps a s) (o : Out) : Keeps a (State.send s o) := by
  exact h.upd id id id id id id id id

@[simp] theorem keeps_used {a s : State} (h : Keeps a s) : Keeps a (State.used s) := by
  exact h.upd id id id id id id id id

/-! ### Flags -/

@[simp] theorem keeps_raise {a s : State} (h : Keeps a s) (a1 : Nat) (bs : List Nat) : Keeps a (State.raise s a1 bs) := by
  simp (maxDischargeDepth := 99) [State.raise, h]

@[simp] theorem keeps_setPower {a s : State} (h : Keeps a s) (on : Nat) : Keeps a (State.setPower s on) := by
  simp (maxDischargeDepth := 99) [State.setPower, h]

@[simp] theorem keeps_setDomain {a s : State} (h : Keeps a s) (d : Nat) (on : Bool) : Keeps a (State.setDomain s d on) := by
  simp (maxDischargeDepth := 99) [State.setDomain, h]

@[simp] theorem keeps_letGo {a s : State} (h : Keeps a s) (d : Nat) : Keeps a (State.letGo s d) := by
  simp (maxDischargeDepth := 99) [State.letGo, h]

@[simp] theorem keeps_lp5Up {a s : State} (h : Keeps a s) : Keeps a (State.lp5Up s) := by
  simp (maxDischargeDepth := 99) [State.lp5Up, h]

@[simp] theorem keeps_msix {a s : State} (h : Keeps a s) (c : Nat) (v : Nat) : Keeps a (State.msix s c v) := by
  simp (maxDischargeDepth := 99) [State.msix, h]

@[simp] theorem keeps_raiseCrew {a s : State} (h : Keeps a s) (c : Nat) (b : Nat) : Keeps a (State.raiseCrew s c b) := by
  simp (maxDischargeDepth := 99) [State.raiseCrew, h]

@[simp] theorem keeps_checkArm {a s : State} (h : Keeps a s) (c : Nat) : Keeps a (State.checkArm s c) := by
  simp (maxDischargeDepth := 99) [State.checkArm, h]

@[simp] theorem keeps_post {a s : State} (h : Keeps a s) (c : Nat) (w : Nat) : Keeps a (State.post s c w) := by
  unfold State.post
  split
  · exact h
  · split
    · simp [h]
    · split
      · simp [h]
      · rename_i hq
        exact keeps_checkArm (keeps_modCrew_at h c _ (fun _ => by simp; omega)) c

@[simp] theorem keeps_postManagers {a s : State} (h : Keeps a s) (w : Nat) : Keeps a (State.postManagers s w) := by
  simp (maxDischargeDepth := 99) [State.postManagers, h]

/-! ### Umpire -/

@[simp] theorem keeps_raiseUmpire {a s : State} (h : Keeps a s) (bs : List Nat) : Keeps a (State.raiseUmpire s bs) := by
  simp (maxDischargeDepth := 99) [State.raiseUmpire, h]

@[simp] theorem keeps_followNfault {a s : State} (h : Keeps a s) : Keeps a (State.followNfault s) := by
  simp (maxDischargeDepth := 99) [State.followNfault, h]

@[simp] theorem keeps_setMode {a s : State} (h : Keeps a s) (m : Mode) : Keeps a (State.setMode s m) := by
  simp (maxDischargeDepth := 99) [State.setMode, h]

@[simp] theorem keeps_smuEvent {a s : State} (h : Keeps a s) (kind : Nat) : Keeps a (State.smuEvent s kind) := by
  simp (maxDischargeDepth := 99) [State.smuEvent, h]

@[simp] theorem keeps_setValidity {a s : State} (h : Keeps a s) (v : Bool) : Keeps a (State.setValidity s v) := by
  simp (maxDischargeDepth := 99) [State.setValidity, h]

@[simp] theorem keeps_discardCrews {a s : State} (h : Keeps a s) : Keeps a (State.discardCrews s) := by
  exact (keeps_dropObjs h _ _).upd (fun _ => rfl) id id id (fun _ => queuesOk_nil) id id id

@[simp] theorem keeps_endRefresh {a s : State} (h : Keeps a s) (n : Nat) : Keeps a (State.endRefresh s n) := by
  simp (maxDischargeDepth := 99) [State.endRefresh, h]

@[simp] theorem keeps_stopLane {a s : State} (h : Keeps a s) (n : Nat) : Keeps a (State.stopLane s n) := by
  simp (maxDischargeDepth := 99) [State.stopLane, h]

@[simp] theorem keeps_limpLane {a s : State} (h : Keeps a s) (d : Nat) : Keeps a (State.limpLane s d) := by
  simp (maxDischargeDepth := 99) [State.limpLane, h]

@[simp] theorem keeps_stopUnits {a s : State} (h : Keeps a s) : Keeps a (State.stopUnits s) := by
  simp (maxDischargeDepth := 99) [State.stopUnits, h]

@[simp] theorem keeps_stopLinks {a s : State} (h : Keeps a s) : Keeps a (State.stopLinks s) := by
  simp (maxDischargeDepth := 99) [State.stopLinks, h]

@[simp] theorem keeps_stopBlocks {a s : State} (h : Keeps a s) : Keeps a (State.stopBlocks s) := by
  simp (maxDischargeDepth := 99) [State.stopBlocks, h]

@[simp] theorem keeps_enterLimp {a s : State} (h : Keeps a s) : Keeps a (State.enterLimp s) := by
  simp +contextual (maxDischargeDepth := 99) [State.enterLimp, h]

@[simp] theorem keeps_disablePorts {a s : State} (h : Keeps a s) : Keeps a (State.disablePorts s) := by
  simp +contextual (maxDischargeDepth := 99) [State.disablePorts, h]

@[simp] theorem keeps_recordC3 {a s : State} (h : Keeps a s) (source : Nat) (detail : Nat) (limpEntered : Bool) : Keeps a (State.recordC3 s source detail limpEntered) := by
  simp (maxDischargeDepth := 99) [State.recordC3, h]

@[simp] theorem keeps_react {a s : State} (h : Keeps a s) (source : Nat) (cls : Nat) (detail : Nat) : Keeps a (State.react s source cls detail) := by
  unfold State.react
  split
  · exact h
  · dsimp only
    generalize hr : (if cls = 3 then _ else s) = r
    have k : Keeps a r := by
      subst hr
      split
      · exact keeps_recordC3 h _ _ _
      · exact h
    simp [k]

@[simp] theorem keeps_occurAs {a s : State} (h : Keeps a s) (source : Nat) (cls : Nat) (detail : Nat) : Keeps a (State.occurAs s source cls detail) := by
  simp (maxDischargeDepth := 99) [State.occurAs, h]

@[simp] theorem keeps_occur {a s : State} (h : Keeps a s) (source : Nat) (detail : Nat) : Keeps a (State.occur s source detail) := by
  simp (maxDischargeDepth := 99) [State.occur, h]

@[simp] theorem keeps_lineOn {a s : State} (h : Keeps a s) (source : Nat) (detail : Nat) : Keeps a (State.lineOn s source detail) := by
  simp (maxDischargeDepth := 99) [State.lineOn, h]

@[simp] theorem keeps_lineOff {a s : State} (h : Keeps a s) (source : Nat) : Keeps a (State.lineOff s source) := by
  simp (maxDischargeDepth := 99) [State.lineOff, h]

theorem log_release (u : Umpire) (n : Nat) : (u.release n).log = u.log := by
  unfold Umpire.release
  split <;> rfl

theorem log_foldl (w : Nat) (l : List Nat) (u : Umpire) :
    (l.foldl (fun x n => if w.testBit n then x.release n else x) u).log = u.log := by
  induction l generalizing u with
  | nil => rfl
  | cons n l ih =>
    rw [List.foldl_cons, ih]
    split
    · exact log_release u n
    · rfl

@[simp] theorem keeps_clearSources {a s : State} (h : Keeps a s) (w : Nat) : Keeps a (State.clearSources s w) := by
  unfold State.clearSources
  split
  · exact h
  · exact keeps_raiseUmpire (h.upd id id id id id id (fun q => by rw [log_foldl]; exact q) id) _

end Sys2Proof
end

