-- ==== Sys2Proof/Laws/KeepsPlan.lean ====
section
/-! SUPPORT. One lemma for each function that changes the state: what it keeps (Laws/Keeps.lean). Here: the plan, pixels, translation, heats, commits and the catch. -/

set_option Elab.async false

namespace Sys2Proof

open Sys2Proof.Machine

/-! ### Plan -/

@[simp] theorem keeps_lp5Wake {a s : State} (h : Keeps a s) (g : State) : Keeps a (State.lp5Wake s g) := by
  simp (maxDischargeDepth := 99) [State.lp5Wake, h]

@[simp] theorem keeps_takeShells {a s : State} (h : Keeps a s) : Keeps a (State.takeShells s) := by
  unfold State.takeShells
  (repeat' split) <;> simp +contextual (maxDischargeDepth := 99) [h]

@[simp] theorem keeps_takePlan {a s : State} (h : Keeps a s) : Keeps a (State.takePlan s) := by
  simp (maxDischargeDepth := 99) [State.takePlan, h]

@[simp] theorem keeps_unpinned {a s : State} (h : Keeps a s) : Keeps a (State.unpinned s) := by
  simp (maxDischargeDepth := 99) [State.unpinned, h]

/-! ### Pixels -/

@[simp] theorem keeps_setPixel {a s : State} (h : Keeps a s) (n : Nat) (x : Nat) (y : Nat) (w : Nat) : Keeps a (State.setPixel s n x y w) := by
  exact h.upd id id (framesWf_write _ _ _) id id id id id

@[simp] theorem keeps_setPixels {a s : State} (h : Keeps a s) (n : Nat) (ws : List ((Int × Int) × Nat)) : Keeps a (State.setPixels s n ws) := by
  simp +contextual (maxDischargeDepth := 99) [State.setPixels, h]

/-! ### Translate -/

@[simp] theorem keeps_xltPage {a s : State} (h : Keeps a s) (c : Nat) (va : Nat) (write : Bool) : Keeps a (State.xltPage s c va write).1 := by
  unfold State.xltPage
  (repeat' split) <;> simp +contextual (maxDischargeDepth := 99) [h]

@[simp] theorem keeps_xltFault {a s : State} (h : Keeps a s) (c : Nat) (addr : Nat) (cause : Nat) (requester : Nat) (detail : Nat) (write : Bool) : Keeps a (State.xltFault s c addr cause requester detail write) := by
  simp (maxDischargeDepth := 99) [State.xltFault, h]

@[simp] theorem keeps_xltRange {a s : State} (h : Keeps a s) (c : Nat) (write : Bool) (requester : Nat) (detail : Nat) (x5 : List Nat) : Keeps a (State.xltRange s c write requester detail x5).1 := by
  induction x5 generalizing s with
  | nil => exact h
  | cons p rest ih =>
    unfold State.xltRange
    have k := keeps_xltPage h c p write
    split
    · rename_i heq
      rw [heq] at k
      exact ih k
    · rename_i heq
      rw [heq] at k
      exact keeps_xltFault k _ _ _ _ _ _

@[simp] theorem keeps_back {a s : State} (h : Keeps a s) (c : Nat) (a2 : Nat) (n : Nat) : Keeps a (State.back s c a2 n).1 := by
  unfold State.back
  dsimp only
  (repeat' split) <;> simp +contextual (maxDischargeDepth := 99) [h]

@[simp] theorem keeps_unitError {a s : State} (h : Keeps a s) (lp5 : Bool) (a2 : Nat) : Keeps a (State.unitError s lp5 a2) := by
  simp (maxDischargeDepth := 99) [State.unitError, h]

@[simp] theorem keeps_transRange {a s : State} (h : Keeps a s) (c : Nat) (host : Bool) (a3 : Nat) (n : Nat) (write : Bool) (requester : Nat) (detail : Nat) : Keeps a (State.transRange s c host a3 n write requester detail).1 := by
  unfold State.transRange
  split
  · exact keeps_xltRange h _ _ _ _ _
  · split
    · split
      · have k := keeps_back h c a3 n
        split
        · rename_i heq
          rw [heq] at k
          exact k
        · rename_i heq
          rw [heq] at k
          exact keeps_xltFault k _ _ _ _ _ _
      · exact h
    · exact keeps_xltFault h _ _ _ _ _ _

@[simp] theorem keeps_reachRange {a s : State} (h : Keeps a s) (c : Nat) (host : Bool) (a3 : Nat) (n : Nat) (write : Bool) (requester : Nat) (detail : Nat) : Keeps a (State.reachRange s c host a3 n write requester detail).1 := by
  unfold State.reachRange
  exact keeps_transRange h c host a3 n write requester detail

@[simp] theorem keeps_readCrew {a s : State} (h : Keeps a s) (c : Nat) (host : Bool) (a3 : Nat) (n : Nat) (requester : Nat) (detail : Nat) : Keeps a (State.readCrew s c host a3 n requester detail).1 := by
  unfold State.readCrew
  have k := keeps_reachRange h c host a3 n false requester detail
  split
  · rename_i heq
    rw [heq] at k
    split
    · exact keeps_unitError k _ _
    · exact k
  · rename_i heq
    rw [heq] at k
    exact k

@[simp] theorem keeps_storeCrew {a s : State} (h : Keeps a s) (c : Nat) (host : Bool) (a3 : Nat) (x4 : List Byte) : Keeps a (State.storeCrew s c host a3 x4) := by
  induction x4 generalizing s a3 with
  | nil => exact h
  | cons b bs ih =>
    unfold State.storeCrew
    refine ih ?_ _
    split
    · split
      · exact h.upd id (memWf_memWrite _ _ _) id id id id id id
      · exact h
    · exact h.upd (memWf_memWrite _ _ _) id id id id id id id

@[simp] theorem keeps_writeCrew {a s : State} (h : Keeps a s) (c : Nat) (host : Bool) (a3 : Nat) (bs : List Byte) (requester : Nat) (detail : Nat) : Keeps a (State.writeCrew s c host a3 bs requester detail).1 := by
  unfold State.writeCrew
  have k := keeps_reachRange h c host a3 bs.length true requester detail
  split
  · rename_i heq
    rw [heq] at k
    exact keeps_storeCrew k _ _ _ _
  · rename_i heq
    rw [heq] at k
    exact k

@[simp] theorem keeps_prefetchRange {a s : State} (h : Keeps a s) (c : Nat) (l : Nat) (r : Nat × Nat) : Keeps a (State.prefetchRange s c l r) := by
  unfold State.prefetchRange
  have k := keeps_readCrew h c true r.1 r.2 1 l
  split
  · rename_i heq
    rw [heq] at k
    exact Keeps.upd k id id id id id id id id (hpf := fun w => memWf_memWrites _ _ _ w)
  · rename_i heq
    rw [heq] at k
    exact k

@[simp] theorem keeps_prefetchLayer {a s : State} (h : Keeps a s) (g : State) (l : Nat) (whole : Bool) (rects : List (Nat × Nat × Nat × Nat)) : Keeps a (State.prefetchLayer s g l whole rects) := by
  simp +contextual (maxDischargeDepth := 99) [State.prefetchLayer, h]

@[simp] theorem keeps_fenceValue {a s : State} (h : Keeps a s) (c : Nat) (host : Bool) (addr : Nat) : Keeps a (State.fenceValue s c host addr).1 := by
  unfold State.fenceValue
  have k := keeps_readCrew h c host addr 8 4 0
  split <;> (rename_i heq; rw [heq] at k; exact k)

@[simp] theorem keeps_fenceWrite {a s : State} (h : Keeps a s) (c : Nat) (host : Bool) (addr : Nat) (value : Nat) : Keeps a (State.fenceWrite s c host addr value) := by
  simp (maxDischargeDepth := 99) [State.fenceWrite, h]

/-! ### Heats -/

@[simp] theorem keeps_leaveSelfRefresh {a s : State} (h : Keeps a s) (n : Nat) : Keeps a (State.leaveSelfRefresh s n) := by
  simp (maxDischargeDepth := 99) [State.leaveSelfRefresh, h]

@[simp] theorem keeps_stir {a s : State} (h : Keeps a s) (cause : Nat) : Keeps a (State.stir s cause) := by
  unfold State.stir
  (repeat' split) <;> simp +contextual (maxDischargeDepth := 99) [h]

@[simp] theorem keeps_damage {a s : State} (h : Keeps a s) (n : Nat) (tiles : List Nat) (cause : Nat) : Keeps a (State.damage s n tiles cause) := by
  simp (maxDischargeDepth := 99) [State.damage, h]

@[simp] theorem keeps_damageAll {a s : State} (h : Keeps a s) (n : Nat) : Keeps a (State.damageAll s n) := by
  simp (maxDischargeDepth := 99) [State.damageAll, h]

@[simp] theorem keeps_damageLayer {a s : State} (h : Keeps a s) (g : State) (l : Nat) : Keeps a (State.damageLayer s g l) := by
  simp (maxDischargeDepth := 99) [State.damageLayer, h]

@[simp] theorem keeps_damageStream {a s : State} (h : Keeps a s) (stream : Nat) : Keeps a (State.damageStream s stream) := by
  simp +contextual (maxDischargeDepth := 99) [State.damageStream, h]

@[simp] theorem keeps_dropFlat {a s : State} (h : Keeps a s) (n : Nat) : Keeps a (State.dropFlat s n) := by
  simp (maxDischargeDepth := 99) [State.dropFlat, h]

theorem keeps_foldl_fst {α β : Type} {a : State} {g : State × β → α → State × β} (hg : ∀ p x, Keeps a p.1 → Keeps a (g p x).1) (l : List α)
    {p : State × β} (h : Keeps a p.1) : Keeps a (l.foldl g p).1 := by
  induction l generalizing p with
  | nil => exact h
  | cons x l ih => exact ih (hg _ _ h)

@[simp] theorem keeps_bindCameras {a s : State} (h : Keeps a s) (n : Nat) : Keeps a (State.bindCameras s n).1 := by
  unfold State.bindCameras
  refine keeps_foldl_fst (fun p l hp => ?_) _ h
  dsimp only
  (repeat' split) <;> simp [hp]

@[simp] theorem keeps_quietCounts {a s : State} (h : Keeps a s) (n : Nat) : Keeps a (State.quietCounts s n) := by
  simp +contextual (maxDischargeDepth := 99) [State.quietCounts, h]

@[simp] theorem keeps_liveCounts {a s : State} (h : Keeps a s) (n : Nat) : Keeps a (State.liveCounts s n) := by
  simp +contextual (maxDischargeDepth := 99) [State.liveCounts, h]

@[simp] theorem keeps_bindHeat {a s : State} (h : Keeps a s) (n : Nat) (f : Nat) : Keeps a (State.bindHeat s n f) := by
  unfold State.bindHeat
  dsimp only
  refine (keeps_modLane ?_ n _).upd id id id id id (fun q => regionsOk_map q (fun p => by split <;> rfl) (fun p hp => by split <;> exact hp)) id id
  refine keeps_bindCameras (keeps_foldl (fun t x ht => ?_) _ ?_) n
  · split <;> simp [ht]
  · simp (maxDischargeDepth := 99) [h]

@[simp] theorem keeps_mergeDamage {a s : State} (h : Keeps a s) (n : Nat) : Keeps a (State.mergeDamage s n) := by
  simp (maxDischargeDepth := 99) [State.mergeDamage, h]

@[simp] theorem keeps_keepTile {a s : State} (h : Keeps a s) (n : Nat) (t : Nat) : Keeps a (State.keepTile s n t) := by
  simp (maxDischargeDepth := 99) [State.keepTile, h]

@[simp] theorem keeps_dropKept {a s : State} (h : Keeps a s) (n : Nat) : Keeps a (State.dropKept s n) := by
  unfold State.dropKept
  split
  · exact h
  · exact (keeps_modLane h n _).upd id id (framesWf_filter _ _) id id id id id

@[simp] theorem keeps_forHeat {a s : State} (h : Keeps a s) (n : Nat) (h2 : Heat) : Keeps a (State.forHeat s n h2) := by
  simp (maxDischargeDepth := 99) [State.forHeat, h]

@[simp] theorem keeps_modBlit {a s : State} (h : Keeps a s) (c : Nat) (f : BlitRun → BlitRun) : Keeps a (State.modBlit s c f) := by
  simp (maxDischargeDepth := 99) [State.modBlit, h]

@[simp] theorem keeps_shareBlits {a s : State} (h : Keeps a s) : Keeps a (State.shareBlits s) := by
  simp +contextual (maxDischargeDepth := 99) [State.shareBlits, h]

@[simp] theorem keeps_divideHeat {a s : State} (h : Keeps a s) (n : Nat) : Keeps a (State.divideHeat s n) := by
  simp (maxDischargeDepth := 99) [State.divideHeat, h]

@[simp] theorem keeps_divide {a s : State} (h : Keeps a s) (n : Nat) : Keeps a (State.divide s n) := by
  simp (maxDischargeDepth := 99) [State.divide, h]

/-! ### Commits -/

@[simp] theorem keeps_stage {a s : State} (h : Keeps a s) (c : Nat) (key : Nat) (v : Val) : Keeps a (State.stage s c key v) := by
  simp (maxDischargeDepth := 99) [State.stage, h]

@[simp] theorem keeps_activate {a s : State} (h : Keeps a s) (x : Nat) : Keeps a (State.activate s x) := by
  unfold State.activate
  (repeat' split) <;> simp +contextual (maxDischargeDepth := 99) [h]

@[simp] theorem keeps_acceptProgram {a s : State} (h : Keeps a s) (x1 : Staged) : Keeps a (State.acceptProgram s x1) := by
  unfold State.acceptProgram
  (repeat' split) <;> simp +contextual (maxDischargeDepth := 99) [h]

@[simp] theorem keeps_withWrite {a s : State} (h : Keeps a s) (x1 : Staged) : Keeps a (State.withWrite s x1) := by
  unfold State.withWrite
  (repeat' split) <;> simp +contextual (maxDischargeDepth := 99) [h]

@[simp] theorem keeps_withWrites {a s : State} (h : Keeps a s) (ws : List Staged) : Keeps a (State.withWrites s ws) := by
  simp +contextual (maxDischargeDepth := 99) [State.withWrites, h]

@[simp] theorem keeps_completed {a s : State} (h : Keeps a s) (c : Nat) (seq : Nat) : Keeps a (State.completed s c seq) := by
  simp (maxDischargeDepth := 99) [State.completed, h]

@[simp] theorem keeps_recordRefusal {a s : State} (h : Keeps a s) (c : Nat) (q : Option Refused) : Keeps a (State.recordRefusal s c q) := by
  unfold State.recordRefusal
  (repeat' split) <;> simp +contextual (maxDischargeDepth := 99) [h]

@[simp] theorem keeps_refuseCommit {a s : State} (h : Keeps a s) (c : Nat) (q : Option Refused) : Keeps a (State.refuseCommit s c q) := by
  simp (maxDischargeDepth := 99) [State.refuseCommit, h]

@[simp] theorem keeps_noMemory {a s : State} (h : Keeps a s) (c : Nat) (q : Option Refused) (g : State) : Keeps a (State.noMemory s c q g) := by
  unfold State.noMemory
  (repeat' split) <;> simp +contextual (maxDischargeDepth := 99) [h]

@[simp] theorem keeps_backRead {a s : State} (h : Keeps a s) (g : State) : Keeps a (State.backRead s g) := by
  simp +contextual (maxDischargeDepth := 99) [State.backRead, h]

@[simp] theorem keeps_planChanged {a s : State} (h : Keeps a s) : Keeps a (State.planChanged s) := by
  simp (maxDischargeDepth := 99) [State.planChanged, h]

@[simp] theorem keeps_replan {a s : State} (h : Keeps a s) : Keeps a (State.replan s) := by
  simp (maxDischargeDepth := 99) [State.replan, h]

@[simp] theorem keeps_supersede {a s : State} (h : Keeps a s) (k : Commit) (seq : Nat) : Keeps a (State.supersede s k seq) := by
  simp +contextual (maxDischargeDepth := 99) [State.supersede, h]

@[simp] theorem keeps_flagLate {a s : State} (h : Keeps a s) (k : Commit) : Keeps a (State.flagLate s k) := by
  simp +contextual (maxDischargeDepth := 99) [State.flagLate, h]

@[simp] theorem keeps_fetchCopies {a s : State} (h : Keeps a s) (before : State) (g : State) (ws : List Staged) : Keeps a (State.fetchCopies s before g ws) := by
  simp +contextual (maxDischargeDepth := 99) [State.fetchCopies, h]

@[simp] theorem keeps_admitCommit {a s : State} (h : Keeps a s) (c : Nat) (r : CommitReq) (g : State) (fences : List Fence) (item : Bool) : Keeps a (State.admitCommit s c r g fences item).1 := by
  simp +contextual (maxDischargeDepth := 99) [State.admitCommit, h]

/-! ### Catch -/

@[simp] theorem keeps_freeLayer {a s : State} (h : Keeps a s) (l : Nat) : Keeps a (State.freeLayer s l) := by
  unfold State.freeLayer
  exact (keeps_dropObjs h _ _).upd id id id id (fun q => queuesOk_map q (fun _ => rfl) (fun _ hp => hp)) id id id

@[simp] theorem keeps_armRegion {a s : State} (h : Keeps a s) (k : Nat) (frame : Nat) : Keeps a (State.armRegion s k frame) := by
  exact keeps_modRegion h _ _ (fun r hr => ⟨hr.1, by simp⟩)

@[simp] theorem keeps_regionChange {a s : State} (h : Keeps a s) (old : State) (key : Nat) : Keeps a (State.regionChange s old key) := by
  unfold State.regionChange
  dsimp only
  split
  · exact h
  · split
    · exact keeps_modRegion h _ _ (fun r hr => hr)
    · split
      · exact keeps_armRegion h _ _
      · exact h

@[simp] theorem keeps_runSignals {a s : State} (h : Keeps a s) (c : Nat) (seq : Nat) (presented : Bool) : Keeps a (State.runSignals s c seq presented) := by
  simp +contextual (maxDischargeDepth := 99) [State.runSignals, h]

@[simp] theorem keeps_dropSignals {a s : State} (h : Keeps a s) (c : Nat) (seq : Nat) : Keeps a (State.dropSignals s c seq) := by
  simp (maxDischargeDepth := 99) [State.dropSignals, h]

@[simp] theorem keeps_replaceFrame {a s : State} (h : Keeps a s) (n : Nat) : Keeps a (State.replaceFrame s n) := by
  simp +contextual (maxDischargeDepth := 99) [State.replaceFrame, h]

@[simp] theorem keeps_startRetime {a s : State} (h : Keeps a s) (n : Nat) (wasOn : Bool) : Keeps a (State.startRetime s n wasOn) := by
  simp (maxDischargeDepth := 99) [State.startRetime, h]

@[simp] theorem keeps_commitDamage {a s : State} (h : Keeps a s) (old : State) (ws : List Staged) : Keeps a (State.commitDamage s old ws) := by
  unfold State.commitDamage
  dsimp only
  refine keeps_foldl (fun t n ht => ?_) _ (keeps_foldl (fun t e ht => ?_) _ (keeps_foldl (fun t l ht => ?_) _ (keeps_foldl (fun t l ht => ?_) _ h)))
  · simp (maxDischargeDepth := 99) [ht]
  · (repeat' split) <;> simp (maxDischargeDepth := 99) [ht]
  · split
    · exact ht
    · exact keeps_foldl (fun u q hu => by simp [hu]) _ ht
  · simp (maxDischargeDepth := 99) [ht]

@[simp] theorem keeps_readLut {a s : State} (h : Keeps a s) (ws : List Staged) (c : Nat) (n : Nat) : Keeps a (State.readLut s ws c n) := by
  unfold State.readLut
  have k := keeps_readCrew h c false (s.laneNum n 4 4) (35937 * 8) 1 n
  split
  · exact h
  · split <;> (rename_i heq; rw [heq] at k; simp [show Keeps a _ from k])

@[simp] theorem keeps_takeWriteback {a s : State} (h : Keeps a s) (k : Commit) : Keeps a (State.takeWriteback s k) := by
  unfold State.takeWriteback
  refine keeps_foldl (fun t e ht => ?_) _ h
  (repeat' split) <;> simp [ht]

@[simp] theorem keeps_moveSurfaces {a s : State} (h : Keeps a s) (old : State) : Keeps a (State.moveSurfaces s old) := by
  simp +contextual (maxDischargeDepth := 99) [State.moveSurfaces, h]

@[simp] theorem keeps_setReach {a s : State} (h : Keeps a s) (n : Nat) : Keeps a (State.setReach s n) := by
  simp (maxDischargeDepth := 99) [State.setReach, h]

@[simp] theorem keeps_applyCommit {a s : State} (h : Keeps a s) (k : Commit) : Keeps a (State.applyCommit s k) := by
  unfold State.applyCommit
  extract_lets old lanes s1 s2 s3 s4 s5 s6 s7
  have h0 : Keeps a old := h.upd id id id id id id id id
  have h2 : Keeps a s2 := keeps_takeWriteback (keeps_commitDamage (keeps_withWrites h0 _) _ _) _
  have h3 : Keeps a s3 := keeps_foldl (fun t n ht => keeps_readLut ht _ _ _) _ h2
  have h4 : Keeps a s4 := keeps_foldl (fun t e ht => by split <;> simp [ht]) _ h3
  have h5 : Keeps a s5 := keeps_foldl (fun t n ht => keeps_setReach ht n) _ (keeps_takePlan (keeps_moveSurfaces h4 _))
  have h6 : Keeps a s6 := keeps_runSignals (keeps_modModes h5 _) _ _ _
  have h7 : Keeps a s7 := keeps_foldl (fun t n ht => keeps_post (keeps_count (keeps_modLane ht n _) _ _) _ _) _ h6
  exact keeps_foldl (fun t n ht => keeps_ite.2 ⟨fun _ => keeps_startRetime ht n _, fun _ => ht⟩) _ h7

@[simp] theorem keeps_removeLayers {a s : State} (h : Keeps a s) (n : Nat) : Keeps a (State.removeLayers s n) := by
  unfold State.removeLayers
  dsimp only
  refine keeps_foldl (fun t m ht => ?_) _ (keeps_foldl (fun t p ht => ?_) _ h)
  · exact keeps_post (keeps_count (keeps_modModes (keeps_modLane (keeps_nextSeq ht ht) n _) _) _ _) _ _
  · simp (maxDischargeDepth := 99) [ht]

@[simp] theorem keeps_dropProgram {a s : State} (h : Keeps a s) (x1 : Staged) : Keeps a (State.dropProgram s x1) := by
  unfold State.dropProgram
  (repeat' split) <;> simp +contextual (maxDischargeDepth := 99) [h]

@[simp] theorem keeps_expire {a s : State} (h : Keeps a s) (n : Nat) (k : Commit) : Keeps a (State.expire s n k) := by
  simp +contextual (maxDischargeDepth := 99) [State.expire, h]

@[simp] theorem keeps_bindIndication {a s : State} (h : Keeps a s) (n : Nat) : Keeps a (State.bindIndication s n) := by
  unfold State.bindIndication
  split
  · exact h
  · split
    · dsimp only
      exact keeps_modRegion (by simp (maxDischargeDepth := 99) [h]) _ _ (fun r hr => hr)
    · exact h

@[simp] theorem keeps_catchCommits {a s : State} (h : Keeps a s) (n : Nat) : Keeps a (State.catchCommits s n) := by
  simp +contextual (maxDischargeDepth := 99) [State.catchCommits, h]

@[simp] theorem keeps_markCatch {a s : State} (h : Keeps a s) (n : Nat) : Keeps a (State.markCatch s n) := by
  simp +contextual (maxDischargeDepth := 99) [State.markCatch, h]

@[simp] theorem keeps_catchLane {a s : State} (h : Keeps a s) (n : Nat) (binds : Bool) : Keeps a (State.catchLane s n binds) := by
  simp (maxDischargeDepth := 99) [State.catchLane, h]

@[simp] theorem keeps_releaseAll {a s : State} (h : Keeps a s) (n : Nat) : Keeps a (State.releaseAll s n) := by
  simp (maxDischargeDepth := 99) [State.releaseAll, h]

@[simp] theorem keeps_porchCatch {a s : State} (h : Keeps a s) (n : Nat) : Keeps a (State.porchCatch s n) := by
  simp (maxDischargeDepth := 99) [State.porchCatch, h]

@[simp] theorem keeps_presentOne {a s : State} (h : Keeps a s) (n : Nat) (a2 : Nat × Nat × Nat) : Keeps a (State.presentOne s n a2) := by
  simp (maxDischargeDepth := 99) [State.presentOne, h]

@[simp] theorem keeps_endRetime {a s : State} (h : Keeps a s) (n : Nat) : Keeps a (State.endRetime s n) := by
  simp +contextual (maxDischargeDepth := 99) [State.endRetime, h]

@[simp] theorem keeps_presentLane {a s : State} (h : Keeps a s) (n : Nat) : Keeps a (State.presentLane s n) := by
  unfold State.presentLane
  dsimp only
  have k : Keeps a (((s.lane n).awaiting.filter (fun a => decide (a.2.2 ≠ 0) && decide (a.2.2 ≤ s.frame n))).foldl (fun t a => t.presentOne n a)
    (s.modLane n (fun l => { l with awaiting := l.awaiting.filter (fun a => !((s.lane n).awaiting.filter
      (fun a => decide (a.2.2 ≠ 0) && decide (a.2.2 ≤ s.frame n))).contains a) }))) :=
    keeps_foldl (fun t p ht => by simp [ht]) _ (keeps_modLane h n _)
  refine keeps_ite.2 ⟨fun _ => keeps_endRetime ?_ n, fun _ => ?_⟩ <;>
    exact k.upd id id id id id (fun q => regionsOk_map q (fun p => by (repeat' split) <;> rfl) (fun p hp => by (repeat' split) <;> exact hp)) id id

@[simp] theorem keeps_afterAcceptance {a s : State} (h : Keeps a s) (before : State) (k : Commit) : Keeps a (State.afterAcceptance s before k) := by
  simp +contextual (maxDischargeDepth := 99) [State.afterAcceptance, h]

@[simp] theorem keeps_acceptCommit {a s : State} (h : Keeps a s) (c : Nat) (r : CommitReq) (item : Bool) : Keeps a (State.acceptCommit s c r item).1 := by
  unfold State.acceptCommit
  dsimp only
  (repeat' split) <;> simp +contextual (maxDischargeDepth := 99) [h]

end Sys2Proof
end

