-- ==== Sys2Proof/Laws/KeepsEngines.lean ====
section
/-! SUPPORT. One lemma for each function that changes the state: what it keeps (Laws/Keeps.lean). Here: tiles, lane and port frames, the mover and the cameras. -/

set_option Elab.async false

namespace Sys2Proof

open Sys2Proof.Machine

/-! ### Tiles -/

@[simp] theorem keeps_readInput {a s : State} (h : Keeps a s) (n : Nat) (t : Nat) (l : Nat) : Keeps a (State.readInput s n t l).1 := by
  unfold State.readInput
  dsimp only
  split
  · exact h
  · split
    · exact h
    · split
      · have k := keeps_xltRange h (((s.layer l).owner).getD 0) false 1 l (dedup ((s.tileRanges n t l).flatMap (fun r => pagesOf r.1 r.2)))
        split <;> (rename_i heq; rw [heq] at k; exact k)
      · split
        · exact h
        · split <;> exact h

@[simp] theorem keeps_readInputs {a s : State} (h : Keeps a s) (g : State) (n : Nat) (t : Nat) (x4 : List Nat) : Keeps a (State.readInputs s g n t x4).1 := by
  induction x4 generalizing s with
  | nil => exact h
  | cons l rest ih =>
    unfold State.readInputs
    extract_lets here
    have k0 : Keeps a here := h.upd id id id id id id id id
    have k1 := keeps_readInput k0 n t l
    generalize here.readInput n t l = p at k1
    obtain ⟨u, i⟩ := p
    have k2 : Keeps a { u with objs := s.objs, layers := s.layers, programs := s.programs, lanes := s.lanes } := Keeps.upd k1 id id id id id id id id
    dsimp only
    split
    · exact ih k2
    · exact ih k2
    · exact k2

@[simp] theorem keeps_modHeat {a s : State} (h : Keeps a s) (n : Nat) (newest : Bool) (f : Heat → Heat) : Keeps a (State.modHeat s n newest f) := by
  simp (maxDischargeDepth := 99) [State.modHeat, h]

@[simp] theorem keeps_storeFlat {a s : State} (h : Keeps a s) (g : State) (n : Nat) (t : Nat) (dead : List Nat) (flat : Option FlatTile) : Keeps a (State.storeFlat s g n t dead flat) := by
  simp (maxDischargeDepth := 99) [State.storeFlat, h]

@[simp] theorem keeps_inputError {a s : State} (h : Keeps a s) (x1 : Input) : Keeps a (State.inputError s x1) := by
  unfold State.inputError
  (repeat' split) <;> simp +contextual (maxDischargeDepth := 99) [h]

@[simp] theorem keeps_writeTile {a s : State} (h : Keeps a s) (n : Nat) (t : Nat) : Keeps a (State.writeTile s n t) := by
  unfold State.writeTile
  split
  · exact h
  · rename_i newest hh heq
    extract_lets g flat skip inputs
    have k := keeps_readInputs h g n t inputs
    split
    · rename_i heq2
      rw [heq2] at k
      exact keeps_inputError (keeps_modHeat k n newest _) _
    · rename_i u dead heq2
      rw [heq2] at k
      extract_lets words v
      have kv : Keeps a v := keeps_ite.2 ⟨fun _ => keeps_keepTile k n t, fun _ => k⟩
      exact keeps_modHeat (keeps_storeFlat (keeps_setPixels kv n words) _ _ _ _ _) n newest _

@[simp] theorem keeps_followPin {a s : State} (h : Keeps a s) (n : Nat) (r : Nat) : Keeps a (State.followPin s n r) := by
  unfold State.followPin
  (repeat' split) <;> simp +contextual (maxDischargeDepth := 99) [h]

@[simp] theorem keeps_releaseRow {a s : State} (h : Keeps a s) (n : Nat) (r : Nat) : Keeps a (State.releaseRow s n r) := by
  simp (maxDischargeDepth := 99) [State.releaseRow, h]

@[simp] theorem keeps_keepTiles {a s : State} (h : Keeps a s) (n : Nat) (r : Nat) (ofNewest : Bool) (h4 : Heat) (tiles : List Nat) : Keeps a (State.keepTiles s n r ofNewest h4 tiles) := by
  simp (maxDischargeDepth := 99) [State.keepTiles, h]

@[simp] theorem keeps_releaseHeat {a s : State} (h : Keeps a s) (n : Nat) (h2 : Heat) : Keeps a (State.releaseHeat s n h2) := by
  unfold State.releaseHeat
  split
  · refine keeps_foldl (fun t p ht => ?_) _ h
    split <;> simp [ht]
  · exact h

@[simp] theorem keeps_closeRow {a s : State} (h : Keeps a s) (n : Nat) (r : Nat) (counts : Bool) : Keeps a (State.closeRow s n r counts) := by
  unfold State.closeRow
  (repeat' split) <;> simp +contextual (maxDischargeDepth := 99) [h]

@[simp] theorem keeps_closeAll {a s : State} (h : Keeps a s) (n : Nat) : Keeps a (State.closeAll s n) := by
  simp +contextual (maxDischargeDepth := 99) [State.closeAll, h]

@[simp] theorem keeps_stallPort {a s : State} (h : Keeps a s) (n : Nat) (line : Nat) (x : Nat) (k : Nat) (uncorrectable : Bool) : Keeps a (State.stallPort s n line x k uncorrectable) := by
  simp (maxDischargeDepth := 99) [State.stallPort, h]

/-! ### Frames -/

@[simp] theorem keeps_genlockLoss {a s : State} (h : Keeps a s) (n : Nat) : Keeps a (State.genlockLoss s n) := by
  simp (maxDischargeDepth := 99) [State.genlockLoss, h]

@[simp] theorem keeps_loseGroup {a s : State} (h : Keeps a s) (k : Nat) : Keeps a (State.loseGroup s k) := by
  simp +contextual (maxDischargeDepth := 99) [State.loseGroup, h]

@[simp] theorem keeps_genlockFrame {a s : State} (h : Keeps a s) (n : Nat) : Keeps a (State.genlockFrame s n) := by
  unfold State.genlockFrame
  (repeat' split) <;> simp +contextual (maxDischargeDepth := 99) [h]

@[simp] theorem keeps_sendMarkers {a s : State} (h : Keeps a s) (n : Nat) : Keeps a (State.sendMarkers s n) := by
  simp +contextual (maxDischargeDepth := 99) [State.sendMarkers, h]

@[simp] theorem keeps_tuneLane {a s : State} (h : Keeps a s) (n : Nat) (ref : Nat) : Keeps a (State.tuneLane s n ref) := by
  simp (maxDischargeDepth := 99) [State.tuneLane, h]

@[simp] theorem keeps_sendPps {a s : State} (h : Keeps a s) (n : Nat) : Keeps a (State.sendPps s n) := by
  simp (maxDischargeDepth := 99) [State.sendPps, h]

@[simp] theorem keeps_sendDeskew {a s : State} (h : Keeps a s) (n : Nat) : Keeps a (State.sendDeskew s n) := by
  simp (maxDischargeDepth := 99) [State.sendDeskew, h]

@[simp] theorem keeps_sendFrame {a s : State} (h : Keeps a s) (n : Nat) : Keeps a (State.sendFrame s n) := by
  simp +contextual (maxDischargeDepth := 99) [State.sendFrame, h]

@[simp] theorem keeps_pwmPeriod {a s : State} (h : Keeps a s) (n : Nat) : Keeps a (State.pwmPeriod s n) := by
  simp (maxDischargeDepth := 99) [State.pwmPeriod, h]

@[simp] theorem keeps_followStep {a s : State} (h : Keeps a s) (n : Nat) : Keeps a (State.followStep s n) := by
  simp (maxDischargeDepth := 99) [State.followStep, h]

@[simp] theorem keeps_beginFrame {a s : State} (h : Keeps a s) (n : Nat) (restart : Bool) : Keeps a (State.beginFrame s n restart) := by
  simp (maxDischargeDepth := 99) [State.beginFrame, h]

@[simp] theorem keeps_enterRefresh {a s : State} (h : Keeps a s) (n : Nat) : Keeps a (State.enterRefresh s n) := by
  simp (maxDischargeDepth := 99) [State.enterRefresh, h]

@[simp] theorem keeps_repeatFrame {a s : State} (h : Keeps a s) (n : Nat) : Keeps a (State.repeatFrame s n) := by
  simp (maxDischargeDepth := 99) [State.repeatFrame, h]

@[simp] theorem keeps_porchMax {a s : State} (h : Keeps a s) (n : Nat) : Keeps a (State.porchMax s n) := by
  simp (maxDischargeDepth := 99) [State.porchMax, h]

@[simp] theorem keeps_writeRuns {a s : State} (h : Keeps a s) (c : Nat) (host : Bool) (requester : Nat) (detail : Nat) (x5 : List (Nat × List Byte)) : Keeps a (State.writeRuns s c host requester detail x5).1 := by
  induction x5 generalizing s with
  | nil => exact h
  | cons p rest ih =>
    obtain ⟨ad, bs⟩ := p
    unfold State.writeRuns
    have k := keeps_writeCrew h c host ad bs requester detail
    split
    · rename_i heq
      rw [heq] at k
      exact ih k
    · rename_i heq
      rw [heq] at k
      exact k

@[simp] theorem keeps_dropWriteback {a s : State} (h : Keeps a s) (n : Nat) : Keeps a (State.dropWriteback s n) := by
  unfold State.dropWriteback
  (repeat' split) <;> simp +contextual (maxDischargeDepth := 99) [h]

@[simp] theorem keeps_abandonWriteback {a s : State} (h : Keeps a s) (n : Nat) : Keeps a (State.abandonWriteback s n) := by
  unfold State.abandonWriteback
  (repeat' split) <;> simp +contextual (maxDischargeDepth := 99) [h]

@[simp] theorem keeps_gateLane {a s : State} (h : Keeps a s) (n : Nat) : Keeps a (State.gateLane s n) := by
  simp (maxDischargeDepth := 99) [State.gateLane, h]

@[simp] theorem keeps_unlockLane {a s : State} (h : Keeps a s) (n : Nat) : Keeps a (State.unlockLane s n) := by
  simp (maxDischargeDepth := 99) [State.unlockLane, h]

@[simp] theorem keeps_disableDone {a s : State} (h : Keeps a s) (n : Nat) : Keeps a (State.disableDone s n) := by
  simp +contextual (maxDischargeDepth := 99) [State.disableDone, h]

@[simp] theorem keeps_retimeDark {a s : State} (h : Keeps a s) (n : Nat) : Keeps a (State.retimeDark s n) := by
  simp (maxDischargeDepth := 99) [State.retimeDark, h]

@[simp] theorem keeps_follow {a s : State} (h : Keeps a s) (n : Nat) : Keeps a (State.follow s n) := by
  simp (maxDischargeDepth := 99) [State.follow, h]

/-- What is due on a lane before its own event, after the time before it (07 R192). -/
@[simp] theorem keeps_meet (s : State) (dt n : Nat) : Keeps (s.tick dt) (s.meet dt n) := keeps_follow (Keeps.refl _) n

@[simp] theorem keeps_lockLane {a s : State} (h : Keeps a s) (n : Nat) : Keeps a (State.lockLane s n) := by
  simp (maxDischargeDepth := 99) [State.lockLane, h]

@[simp] theorem keeps_startF0 {a s : State} (h : Keeps a s) (n : Nat) : Keeps a (State.startF0 s n) := by
  simp (maxDischargeDepth := 99) [State.startF0, h]

@[simp] theorem keeps_unlockAll {a s : State} (h : Keeps a s) : Keeps a (State.unlockAll s) := by
  simp +contextual (maxDischargeDepth := 99) [State.unlockAll, h]

@[simp] theorem keeps_failover {a s : State} (h : Keeps a s) : Keeps a (State.failover s) := by
  simp (maxDischargeDepth := 99) [State.failover, h]

@[simp] theorem keeps_loseReference {a s : State} (h : Keeps a s) : Keeps a (State.loseReference s) := by
  simp (maxDischargeDepth := 99) [State.loseReference, h]

@[simp] theorem keeps_stepLane {a s : State} (h : Keeps a s) (n : Nat) : Keeps a (State.stepLane s n) := by
  simp (maxDischargeDepth := 99) [State.stepLane, h]

@[simp] theorem keeps_judgeWatch {a s : State} (h : Keeps a s) (hz : Nat) : Keeps a (State.judgeWatch s hz) := by
  simp +contextual (maxDischargeDepth := 99) [State.judgeWatch, h]

@[simp] theorem keeps_monitorWindow {a s : State} (h : Keeps a s) (primary : Nat) (active : Nat) (hz : Nat) : Keeps a (State.monitorWindow s primary active hz) := by
  simp (maxDischargeDepth := 99) [State.monitorWindow, h]

@[simp] theorem keeps_grossFailure {a s : State} (h : Keeps a s) : Keeps a (State.grossFailure s) := by
  simp (maxDischargeDepth := 99) [State.grossFailure, h]

@[simp] theorem keeps_switchRef {a s : State} (h : Keeps a s) (ref : Nat) : Keeps a (State.switchRef s ref) := by
  simp +contextual (maxDischargeDepth := 99) [State.switchRef, h]

@[simp] theorem keeps_restoreRef {a s : State} (h : Keeps a s) : Keeps a (State.restoreRef s) := by
  simp +contextual (maxDischargeDepth := 99) [State.restoreRef, h]

@[simp] theorem keeps_xtal32Fail {a s : State} (h : Keeps a s) : Keeps a (State.xtal32Fail s) := by
  simp (maxDischargeDepth := 99) [State.xtal32Fail, h]

/-! ### Ports -/

@[simp] theorem keeps_failLink {a s : State} (h : Keeps a s) (n : Nat) (reason : Nat) : Keeps a (State.failLink s n reason) := by
  simp (maxDischargeDepth := 99) [State.failLink, h]

@[simp] theorem keeps_raiseLink {a s : State} (h : Keeps a s) (n : Nat) (rate : Nat) (lanes : Nat) : Keeps a (State.raiseLink s n rate lanes) := by
  simp (maxDischargeDepth := 99) [State.raiseLink, h]

@[simp] theorem keeps_startTraining {a s : State} (h : Keeps a s) (n : Nat) (k : SinkCaps) : Keeps a (State.startTraining s n k) := by
  simp (maxDischargeDepth := 99) [State.startTraining, h]

@[simp] theorem keeps_powerPanel {a s : State} (h : Keeps a s) (n : Nat) : Keeps a (State.powerPanel s n) := by
  simp (maxDischargeDepth := 99) [State.powerPanel, h]

@[simp] theorem keeps_edpBringup {a s : State} (h : Keeps a s) (n : Nat) (sink : Option SinkCaps) : Keeps a (State.edpBringup s n sink) := by
  unfold State.edpBringup
  (repeat' split) <;> simp +contextual (maxDischargeDepth := 99) [h]

@[simp] theorem keeps_trainOnce {a s : State} (h : Keeps a s) (n : Nat) (trained : Bool) : Keeps a (State.trainOnce s n trained) := by
  unfold State.trainOnce
  (repeat' split) <;> simp +contextual (maxDischargeDepth := 99) [h]

@[simp] theorem keeps_unplug {a s : State} (h : Keeps a s) (n : Nat) : Keeps a (State.unplug s n) := by
  simp (maxDischargeDepth := 99) [State.unplug, h]

@[simp] theorem keeps_hpdPulse {a s : State} (h : Keeps a s) (n : Nat) (lost : Bool) : Keeps a (State.hpdPulse s n lost) := by
  unfold State.hpdPulse
  (repeat' split) <;> simp +contextual (maxDischargeDepth := 99) [h]

@[simp] theorem keeps_compressionMode {a s : State} (h : Keeps a s) (n : Nat) : Keeps a (State.compressionMode s n) := by
  simp (maxDischargeDepth := 99) [State.compressionMode, h]

@[simp] theorem keeps_initialDeskew {a s : State} (h : Keeps a s) (n : Nat) : Keeps a (State.initialDeskew s n) := by
  simp (maxDischargeDepth := 99) [State.initialDeskew, h]

@[simp] theorem keeps_dsiBringup {a s : State} (h : Keeps a s) (n : Nat) (errorReport : Bool) : Keeps a (State.dsiBringup s n errorReport) := by
  simp +contextual (maxDischargeDepth := 99) [State.dsiBringup, h]

@[simp] theorem keeps_sendDsi {a s : State} (h : Keeps a s) (n : Nat) (answer : Option (List Byte)) : Keeps a (State.sendDsi s n answer) := by
  unfold State.sendDsi
  (repeat' split) <;> simp +contextual (maxDischargeDepth := 99) [h]

/-! ### Mover -/

@[simp] theorem keeps_movePost {a s : State} (h : Keeps a s) (k : Nat) (code : Nat) (low : Nat) : Keeps a (State.movePost s k code low) := by
  unfold State.movePost
  (repeat' split) <;> simp +contextual (maxDischargeDepth := 99) [h]

@[simp] theorem keeps_chRaise {a s : State} (h : Keeps a s) (k : Nat) (bit : Nat) : Keeps a (State.chRaise s k bit) := by
  simp (maxDischargeDepth := 99) [State.chRaise, h]

@[simp] theorem keeps_dropRequests {a s : State} (h : Keeps a s) (k : Nat) : Keeps a (State.dropRequests s k) := by
  simp (maxDischargeDepth := 99) [State.dropRequests, h]

@[simp] theorem keeps_chError {a s : State} (h : Keeps a s) (k : Nat) (code : Nat) : Keeps a (State.chError s k code) := by
  simp (maxDischargeDepth := 99) [State.chError, h]

@[simp] theorem keeps_chRefuse {a s : State} (h : Keeps a s) (k : Nat) : Keeps a (State.chRefuse s k) := by
  simp (maxDischargeDepth := 99) [State.chRefuse, h]

@[simp] theorem keeps_moverStart {a s : State} (h : Keeps a s) (k : Nat) : Keeps a (State.moverStart s k) := by
  simp (maxDischargeDepth := 99) [State.moverStart, h]

@[simp] theorem keeps_chResume {a s : State} (h : Keeps a s) (k : Nat) : Keeps a (State.chResume s k) := by
  simp (maxDischargeDepth := 99) [State.chResume, h]

@[simp] theorem keeps_moverResume {a s : State} (h : Keeps a s) (k : Nat) : Keeps a (State.moverResume s k) := by
  simp (maxDischargeDepth := 99) [State.moverResume, h]

@[simp] theorem keeps_chAbort {a s : State} (h : Keeps a s) (k : Nat) : Keeps a (State.chAbort s k) := by
  simp (maxDischargeDepth := 99) [State.chAbort, h]

@[simp] theorem keeps_moverAbort {a s : State} (h : Keeps a s) (k : Nat) : Keeps a (State.moverAbort s k) := by
  simp (maxDischargeDepth := 99) [State.moverAbort, h]

@[simp] theorem keeps_request {a s : State} (h : Keeps a s) (k : Nat) : Keeps a (State.request s k) := by
  simp (maxDischargeDepth := 99) [State.request, h]

@[simp] theorem keeps_pulse {a s : State} (h : Keeps a s) (line : Nat) : Keeps a (State.pulse s line) := by
  simp +contextual (maxDischargeDepth := 99) [State.pulse, h]

@[simp] theorem keeps_reachAll {a s : State} (h : Keeps a s) (c : Nat) (w : Nat) (write : Bool) (detail : Nat) (x5 : List (Bool × Nat)) : Keeps a (State.reachAll s c w write detail x5).1 := by
  induction x5 generalizing s with
  | nil => exact h
  | cons p rest ih =>
    obtain ⟨host, ad⟩ := p
    unfold State.reachAll
    have k := keeps_transRange h c host ad w write 3 detail
    split
    · rename_i heq
      rw [heq] at k
      exact ih k
    · rename_i heq
      rw [heq] at k
      exact k

@[simp] theorem keeps_commitBurst {a s : State} (h : Keeps a s) (b : Burst) : Keeps a (State.commitBurst s b) := by
  unfold State.commitBurst
  split
  · exact h.upd id (memWf_foldl _ _) id id id id id id
  · exact h.upd (memWf_foldl _ _) id id id id id id id

@[simp] theorem keeps_busError {a s : State} (h : Keeps a s) (e : BusError) (complete : List (Nat × Nat)) : Keeps a (State.busError s e complete) := by
  simp +contextual (maxDischargeDepth := 99) [State.busError, h]

@[simp] theorem keeps_failAccess {a s : State} (h : Keeps a s) (k : Nat) (e : BusError) (unit : Option (Bool × Nat)) : Keeps a (State.failAccess s k e unit) := by
  unfold State.failAccess
  (repeat' split) <;> simp +contextual (maxDischargeDepth := 99) [h]

@[simp] theorem keeps_burstStart {a s : State} (h : Keeps a s) (k : Nat) : Keeps a (State.burstStart s k) := by
  unfold State.burstStart
  dsimp only
  have h1 : Keeps a (if s.chPaced k then s.modChannel k (fun c => { c with pending := c.pending - 1 }) else s) :=
    keeps_ite.2 ⟨fun _ => keeps_modChannel h k _, fun _ => h⟩
  generalize (if s.chPaced k then s.modChannel k (fun c => { c with pending := c.pending - 1 }) else s) = s1 at h1
  split
  · exact keeps_chError h1 _ _
  · rename_i w hw
    have k1 := keeps_reachAll h1 w (s.ws k) false k (s.elements k (s.xfer k)
        (placeAfter (s.xfer k) (s.channel k) (s.channel k).inFlight.length).1 (placeAfter (s.xfer k) (s.channel k) (s.channel k).inFlight.length).2).1
    split <;> (rename_i heq; rw [heq] at k1)
    · exact keeps_chError k1 _ _
    · have k2 := keeps_reachAll k1 w (s.wd k) true k (s.elements k (s.xfer k)
        (placeAfter (s.xfer k) (s.channel k) (s.channel k).inFlight.length).1 (placeAfter (s.xfer k) (s.channel k) (s.channel k).inFlight.length).2).2
      split <;> (rename_i heq2; rw [heq2] at k2)
      · exact keeps_chError k2 _ _
      · split
        · exact keeps_failAccess k2 _ _ _
        · exact keeps_modChannel (keeps_modMover k2 _) k _

@[simp] theorem keeps_endChain {a s : State} (h : Keeps a s) (k : Nat) : Keeps a (State.endChain s k) := by
  simp (maxDischargeDepth := 99) [State.endChain, h]

@[simp] theorem keeps_endTransfer {a s : State} (h : Keeps a s) (k : Nat) : Keeps a (State.endTransfer s k) := by
  simp (maxDischargeDepth := 99) [State.endTransfer, h]

@[simp] theorem keeps_failWrite {a s : State} (h : Keeps a s) (k : Nat) (b : Burst) : Keeps a (State.failWrite s k b) := by
  simp (maxDischargeDepth := 99) [State.failWrite, h]

@[simp] theorem keeps_burstDone {a s : State} (h : Keeps a s) (k : Nat) : Keeps a (State.burstDone s k) := by
  unfold State.burstDone
  (repeat' split) <;> simp +contextual (maxDischargeDepth := 99) [h]

@[simp] theorem keeps_chainError {a s : State} (h : Keeps a s) (k : Nat) (code : Nat) : Keeps a (State.chainError s k code) := by
  simp (maxDischargeDepth := 99) [State.chainError, h]

@[simp] theorem keeps_fetchDesc {a s : State} (h : Keeps a s) (k : Nat) : Keeps a (State.fetchDesc s k) := by
  unfold State.fetchDesc
  dsimp only
  split
  · simp (maxDischargeDepth := 99) [h]
  · split
    · simp (maxDischargeDepth := 99) [h]
    · split
      · exact keeps_chError h _ _
      · rename_i w hw
        have k1 := keeps_reachAll h w 32 false k [(bitOf (s.nextDesc k) 62, s.nextDesc k % 2 ^ 62)]
        split <;> (rename_i heq; rw [heq] at k1)
        · exact keeps_chError k1 _ _
        · split
          · exact keeps_modChannel (keeps_failAccess k1 _ _ _) k _
          · split
            · exact keeps_chainError (keeps_modChannel k1 k _) _ _
            · exact keeps_modChannel (keeps_modChannel k1 k _) k _

@[simp] theorem keeps_stopAll {a s : State} (h : Keeps a s) (e : BusError) : Keeps a (State.stopAll s e) := by
  simp +contextual (maxDischargeDepth := 99) [State.stopAll, h]

@[simp] theorem keeps_stopClear {a s : State} (h : Keeps a s) : Keeps a (State.stopClear s) := by
  simp +contextual (maxDischargeDepth := 99) [State.stopClear, h]

@[simp] theorem keeps_udmaFail {a s : State} (h : Keeps a s) (k : Nat) : Keeps a (State.udmaFail s k) := by
  simp (maxDischargeDepth := 99) [State.udmaFail, h]

@[simp] theorem keeps_udmaBurst {a s : State} (h : Keeps a s) (k : Nat) : Keeps a (State.udmaBurst s k) := by
  unfold State.udmaBurst
  dsimp only
  have h1 : Keeps a (s.modMover (fun v => { v with udmaLast := k - 64 })) := keeps_modMover h _
  generalize s.modMover (fun v => { v with udmaLast := k - 64 }) = s1 at h1
  have k1 := keeps_reachAll h1 0 (s.ws k) false k (s.elements k (s.xfer k) (placeAfter (s.xfer k) (s.channel k) 0).1
    (placeAfter (s.xfer k) (s.channel k) 0).2).1
  split <;> (rename_i heq; rw [heq] at k1)
  · exact keeps_chError k1 _ _
  · have k2 := keeps_reachAll k1 0 (s.wd k) true k (s.elements k (s.xfer k) (placeAfter (s.xfer k) (s.channel k) 0).1
    (placeAfter (s.xfer k) (s.channel k) 0).2).2
    split <;> (rename_i heq2; rw [heq2] at k2)
    · exact keeps_chError k2 _ _
    · split
      · exact keeps_udmaFail (by split <;> [exact keeps_unitError k2 _ _; exact k2]) _
      · exact keeps_udmaFail k2 _
      · exact keeps_ite.2 ⟨fun _ => keeps_endTransfer (keeps_modChannel (keeps_commitBurst k2 _) k _) _,
          fun _ => keeps_modChannel (keeps_commitBurst k2 _) k _⟩

/-! ### Camera -/

@[simp] theorem keeps_camFault {a s : State} (h : Keeps a s) (k : Nat) : Keeps a (State.camFault s k) := by
  simp (maxDischargeDepth := 99) [State.camFault, h]

@[simp] theorem keeps_fwdPost {a s : State} (h : Keeps a s) (k : Nat) (code : Nat) (x : Nat) : Keeps a (State.fwdPost s k code x) := by
  simp (maxDischargeDepth := 99) [State.fwdPost, h]

@[simp] theorem keeps_fwdRewind {a s : State} (h : Keeps a s) (k : Nat) : Keeps a (State.fwdRewind s k) := by
  unfold State.fwdRewind
  (repeat' split) <;> simp +contextual (maxDischargeDepth := 99) [h]

@[simp] theorem keeps_fwdBegin {a s : State} (h : Keeps a s) (k : Nat) : Keeps a (State.fwdBegin s k) := by
  simp (maxDischargeDepth := 99) [State.fwdBegin, h]

@[simp] theorem keeps_fwdDrop {a s : State} (h : Keeps a s) (k : Nat) (f : Nat) : Keeps a (State.fwdDrop s k f) := by
  unfold State.fwdDrop
  dsimp only
  (repeat' split) <;> simp +contextual (maxDischargeDepth := 99) [h]

@[simp] theorem keeps_fwdLoss {a s : State} (h : Keeps a s) (k : Nat) (cause : Nat) : Keeps a (State.fwdLoss s k cause) := by
  simp (maxDischargeDepth := 99) [State.fwdLoss, h]

@[simp] theorem keeps_fwdFail {a s : State} (h : Keeps a s) (k : Nat) (f : Nat) (cause : Nat) : Keeps a (State.fwdFail s k f cause) := by
  unfold State.fwdFail
  (repeat' split) <;> simp +contextual (maxDischargeDepth := 99) [h]

@[simp] theorem keeps_fwdFailAll {a s : State} (h : Keeps a s) (k : Nat) (cause : Nat) : Keeps a (State.fwdFailAll s k cause) := by
  simp +contextual (maxDischargeDepth := 99) [State.fwdFailAll, h]

@[simp] theorem keeps_fwdFrame {a s : State} (h : Keeps a s) (k : Nat) : Keeps a (State.fwdFrame s k) := by
  unfold State.fwdFrame
  extract_lets u
  have k1 : Keeps a u := by
    unfold u
    (repeat' split) <;> simp [h]
  (repeat' split) <;> simp [h, k1]

@[simp] theorem keeps_fwdRequest {a s : State} (h : Keeps a s) (k : Nat) (f : Nat) (x3 : Nat) : Keeps a (State.fwdRequest s k f x3) := by
  induction x3 generalizing s with
  | zero => exact h
  | succ n ih =>
    unfold State.fwdRequest
    split
    · exact keeps_ite.2 ⟨fun _ => keeps_fwdFail (keeps_raise h _ _) _ _ _, fun _ => ih (keeps_modSlot (keeps_request h _) _ _)⟩
    · exact h

@[simp] theorem keeps_fwdBurst {a s : State} (h : Keeps a s) (ch : Nat) (k : Nat) : Keeps a (State.fwdBurst s ch k) := by
  unfold State.fwdBurst
  dsimp only
  (repeat' split) <;> (first | (rename_i heq; have e := congrArg Prod.fst heq; dsimp only at e; subst e) | skip) <;> simp +contextual (maxDischargeDepth := 99) [h]

@[simp] theorem keeps_fwdBurstDone {a s : State} (h : Keeps a s) (ch : Nat) (k : Nat) : Keeps a (State.fwdBurstDone s ch k) := by
  unfold State.fwdBurstDone
  (repeat' split) <;> simp +contextual (maxDischargeDepth := 99) [h]

@[simp] theorem keeps_fwdFinish {a s : State} (h : Keeps a s) (k : Nat) : Keeps a (State.fwdFinish s k) := by
  unfold State.fwdFinish
  (repeat' split) <;> simp +contextual (maxDischargeDepth := 99) [h]

@[simp] theorem keeps_releaseBands {a s : State} (h : Keeps a s) (k : Nat) (line : Nat) : Keeps a (State.releaseBands s k line) := by
  simp (maxDischargeDepth := 99) [State.releaseBands, h]

@[simp] theorem keeps_signalProcessed {a s : State} (h : Keeps a s) (k : Nat) : Keeps a (State.signalProcessed s k) := by
  unfold State.signalProcessed
  (repeat' split) <;> simp +contextual (maxDischargeDepth := 99) [h]

@[simp] theorem keeps_abandonBand {a s : State} (h : Keeps a s) (k : Nat) (b : Nat) : Keeps a (State.abandonBand s k b) := by
  unfold State.abandonBand
  (repeat' split) <;> simp +contextual (maxDischargeDepth := 99) [h]

@[simp] theorem keeps_catchLead {a s : State} (h : Keeps a s) (n : Nat) : Keeps a (State.catchLead s n) := by
  simp (maxDischargeDepth := 99) [State.catchLead, h]

@[simp] theorem keeps_takeLock {a s : State} (h : Keeps a s) (n : Nat) : Keeps a (State.takeLock s n) := by
  simp (maxDischargeDepth := 99) [State.takeLock, h]

@[simp] theorem keeps_scheduleLane {a s : State} (h : Keeps a s) (n : Nat) : Keeps a (State.scheduleLane s n) := by
  simp (maxDischargeDepth := 99) [State.scheduleLane, h]

@[simp] theorem keeps_trackLane {a s : State} (h : Keeps a s) (sum : Nat) (c : Nat) (n : Nat) : Keeps a (State.trackLane s sum c n) := by
  simp (maxDischargeDepth := 99) [State.trackLane, h]

@[simp] theorem keeps_cutLane {a s : State} (h : Keeps a s) (n : Nat) : Keeps a (State.cutLane s n) := by
  simp (maxDischargeDepth := 99) [State.cutLane, h]

@[simp] theorem keeps_endFrame {a s : State} (h : Keeps a s) (k : Nat) (noEnd : Bool) : Keeps a (State.endFrame s k noEnd) := by
  simp +contextual (maxDischargeDepth := 99) [State.endFrame, h]

@[simp] theorem keeps_setRing {a s : State} (h : Keeps a s) (k : Nat) : Keeps a (State.setRing s k) := by
  simp (maxDischargeDepth := 99) [State.setRing, h]

@[simp] theorem keeps_dropFrame {a s : State} (h : Keeps a s) (k : Nat) : Keeps a (State.dropFrame s k) := by
  simp (maxDischargeDepth := 99) [State.dropFrame, h]

@[simp] theorem keeps_startFrame {a s : State} (h : Keeps a s) (k : Nat) : Keeps a (State.startFrame s k) := by
  simp +contextual (maxDischargeDepth := 99) [State.startFrame, h]

@[simp] theorem keeps_csiStart {a s : State} (h : Keeps a s) (p : Nat) (vc : Nat) : Keeps a (State.csiStart s p vc) := by
  simp +contextual (maxDischargeDepth := 99) [State.csiStart, h]

@[simp] theorem keeps_csiEnd {a s : State} (h : Keeps a s) (p : Nat) (vc : Nat) : Keeps a (State.csiEnd s p vc) := by
  simp +contextual (maxDischargeDepth := 99) [State.csiEnd, h]

@[simp] theorem keeps_takeLine {a s : State} (h : Keeps a s) (crcError : Bool) (samples : List Nat) (k : Nat) : Keeps a (State.takeLine s crcError samples k) := by
  simp (maxDischargeDepth := 99) [State.takeLine, h]

@[simp] theorem keeps_packet {a s : State} (h : Keeps a s) (p header : Nat) (f : State → State) (hf : ∀ t, Keeps a t → Keeps a (f t)) :
    Keeps a (State.packet s p header f) := by
  unfold State.packet
  exact keeps_ite.2 ⟨fun _ => hf _ h, fun _ => keeps_ite.2 ⟨fun _ => hf _ (keeps_modCam h p _), fun _ => keeps_occur (keeps_raise (keeps_modCam h p _) _ _) _ _⟩⟩

@[simp] theorem keeps_longPacket {a s : State} (h : Keeps a s) (p : Nat) (vc : Nat) (dataType : Nat) (crcError : Bool) (samples : List Nat) : Keeps a (State.longPacket s p vc dataType crcError samples) := by
  unfold State.longPacket
  (repeat' split) <;> simp +contextual (maxDischargeDepth := 99) [h]

@[simp] theorem keeps_landLine {a s : State} (h : Keeps a s) (k : Nat) (line : Nat) : Keeps a (State.landLine s k line) := by
  simp +contextual (maxDischargeDepth := 99) [State.landLine, h]

@[simp] theorem keeps_loseStream {a s : State} (h : Keeps a s) (k : Nat) : Keeps a (State.loseStream s k) := by
  simp (maxDischargeDepth := 99) [State.loseStream, h]

/-! ### Operands -/

@[simp] theorem keeps_takeHead {a s : State} (h : Keeps a s) (c : Nat) : Keeps a (State.takeHead s c) := by
  simp (maxDischargeDepth := 99) [State.takeHead, h]

@[simp] theorem keeps_itemError {a s : State} (h : Keeps a s) (c : Nat) (reason : Nat) (cookie : Nat) : Keeps a (State.itemError s c reason cookie) := by
  simp (maxDischargeDepth := 99) [State.itemError, h]

end Sys2Proof
end

