-- ==== Sys2Proof/Laws/KeepsPrograms.lean ====
section
/-! SUPPORT. One lemma for each function that changes the state: what it keeps (Laws/Keeps.lean). Here: programs, blits, crewing, the queue, resets and security. -/

set_option Elab.async false

namespace Sys2Proof

open Sys2Proof.Machine

/-! ### Programs -/

@[simp] theorem keeps_programPost {a s : State} (h : Keeps a s) (c : Nat) (reason : Nat) (cookie : Nat) (handle : Nat) : Keeps a (State.programPost s c reason cookie handle) := by
  simp (maxDischargeDepth := 99) [State.programPost, h]

@[simp] theorem keeps_programSet {a s : State} (h : Keeps a s) (c : Nat) : Keeps a (State.programSet s c) := by
  simp (maxDischargeDepth := 99) [State.programSet, h]

@[simp] theorem keeps_programReady {a s : State} (h : Keeps a s) (c : Nat) : Keeps a (State.programReady s c) := by
  unfold State.programReady
  split
  · exact h
  · extract_lets t mine hd key
    have k1 : Keeps a t := by simp [t, h]
    have k2 (m : Tab Program) : Keeps a { t with programs := m } := k1.upd id id id id id id id id
    (repeat' split) <;> simp [k1, k2]

@[simp] theorem keeps_programDelete {a s : State} (h : Keeps a s) (c : Nat) : Keeps a (State.programDelete s c) := by
  unfold State.programDelete
  extract_lets i hh t named
  have k : Keeps a t := keeps_takeHead h c
  split
  · exact keeps_itemError k _ _ _
  · exact k.upd id id id id (queuesOk_tabMod (fun _ q => q)) id id id

@[simp] theorem keeps_writebackDone {a s : State} (h : Keeps a s) (n : Nat) : Keeps a (State.writebackDone s n) := by
  unfold State.writebackDone
  dsimp only
  (repeat' split) <;> (first | (rename_i heq; have e := congrArg Prod.fst heq; dsimp only at e; subst e) | skip) <;> simp +contextual (maxDischargeDepth := 99) [h]

@[simp] theorem keeps_copyDone {a s : State} (h : Keeps a s) (l : Nat) : Keeps a (State.copyDone s l) := by
  unfold State.copyDone
  (repeat' split) <;> simp +contextual (maxDischargeDepth := 99) [h]

@[simp] theorem keeps_pinItem {a s : State} (h : Keeps a s) (c : Nat) : Keeps a (State.pinItem s c) := by
  simp (maxDischargeDepth := 99) [State.pinItem, h]

/-! ### Placing -/

@[simp] theorem keeps_unfrozenOnly {a s : State} (h : Keeps a s) : Keeps a (State.unfrozenOnly s) := by
  simp +contextual (maxDischargeDepth := 99) [State.unfrozenOnly, h]

@[simp] theorem keeps_shedPost {a s : State} (h : Keeps a s) (code : Nat) (e : Nat × Nat × Nat) : Keeps a (State.shedPost s code e) := by
  have k (l : List Nat) : Keeps a (l.foldl (fun t l => match (s.layer l).owner with
      | some c => t.post c (eventWord code 0xF 0 0 l)
      | none => t) s) :=
    keeps_foldl (fun t x ht => by split <;> simp [ht]) _ h
  unfold State.shedPost
  dsimp only
  split
  · exact k _
  · split <;> simp [h]
  · exact k _
  · exact h

@[simp] theorem keeps_restartHeats {a s : State} (h : Keeps a s) (e : Nat × Nat × Nat) : Keeps a (State.restartHeats s e) := by
  simp +contextual (maxDischargeDepth := 99) [State.restartHeats, h]

@[simp] theorem keeps_applyShed {a s : State} (h : Keeps a s) (e : Nat × Nat × Nat) : Keeps a (State.applyShed s e) := by
  simp (maxDischargeDepth := 99) [State.applyShed, h]

@[simp] theorem keeps_undoShed {a s : State} (h : Keeps a s) (e : Nat × Nat × Nat) : Keeps a (State.undoShed s e) := by
  simp (maxDischargeDepth := 99) [State.undoShed, h]

@[simp] theorem keeps_shedEntry {a s : State} (h : Keeps a s) (r : Nat) : Keeps a (State.shedEntry s r) := by
  unfold State.shedEntry
  (repeat' split) <;> simp +contextual (maxDischargeDepth := 99) [h]

@[simp] theorem keeps_shedExit {a s : State} (h : Keeps a s) (r : Nat) : Keeps a (State.shedExit s r) := by
  unfold State.shedExit
  (repeat' split) <;> simp +contextual (maxDischargeDepth := 99) [h]

@[simp] theorem keeps_shedEvaluate {a s : State} (h : Keeps a s) : Keeps a (State.shedEvaluate s) := by
  simp +contextual (maxDischargeDepth := 99) [State.shedEvaluate, h]

@[simp] theorem keeps_shellStart {a s : State} (h : Keeps a s) : Keeps a (State.shellStart s) := by
  simp (maxDischargeDepth := 99) [State.shellStart, h]

@[simp] theorem keeps_followShells {a s : State} (h : Keeps a s) : Keeps a (State.followShells s) := by
  simp (maxDischargeDepth := 99) [State.followShells, h]

@[simp] theorem keeps_shellEnd {a s : State} (h : Keeps a s) (passed : Bool) : Keeps a (State.shellEnd s passed) := by
  unfold State.shellEnd
  (repeat' split) <;> simp +contextual (maxDischargeDepth := 99) [h]

@[simp] theorem keeps_corrected {a s : State} (h : Keeps a s) (lp5 : Bool) (channel : Nat) (n : Nat) : Keeps a (State.corrected s lp5 channel n) := by
  simp (maxDischargeDepth := 99) [State.corrected, h]

@[simp] theorem keeps_setRepair {a s : State} (h : Keeps a s) (lp5 : Bool) (channel : Nat) (on : Bool) : Keeps a (State.setRepair s lp5 channel on) := by
  unfold State.setRepair
  extract_lets put t
  have k1 : Keeps a t := by simp [t, h]
  (repeat' split) <;> simp [h, k1]

@[simp] theorem keeps_scrub {a s : State} (h : Keeps a s) (lp5 : Bool) (channel : Nat) (fixed : List Nat) (bad : List Nat) : Keeps a (State.scrub s lp5 channel fixed bad) := by
  simp +contextual (maxDischargeDepth := 99) [State.scrub, h]

@[simp] theorem keeps_askSelftest {a s : State} (h : Keeps a s) : Keeps a (State.askSelftest s) := by
  simp (maxDischargeDepth := 99) [State.askSelftest, h]

/-! ### Blits -/

@[simp] theorem keeps_withSurf {a s : State} (h : Keeps a s) (l : Nat) (c : Nat) (d : Surf) (fill : Nat) (crop : Rect) : Keeps a (State.withSurf s l c d fill crop) := by
  simp (maxDischargeDepth := 99) [State.withSurf, h]

@[simp] theorem keeps_reachList {a s : State} (h : Keeps a s) (c : Nat) (host : Bool) (write : Bool) (x4 : List (Nat × Nat)) : Keeps a (State.reachList s c host write x4).1 := by
  induction x4 generalizing s with
  | nil => exact h
  | cons p rest ih =>
    obtain ⟨ad, n⟩ := p
    unfold State.reachList
    have k := keeps_reachRange h c host ad n write 2 0
    split
    · rename_i heq
      rw [heq] at k
      exact ih k
    · rename_i heq
      rw [heq] at k
      exact k

@[simp] theorem keeps_blitBlock {a s : State} (h : Keeps a s) (s0 : State) (c : Nat) (mask : Nat) (d : Drawing) (blk : Rect) : Keeps a (State.blitBlock s0 c mask d s blk).1 := by
  unfold State.blitBlock
  dsimp only
  split
  · exact h
  · split
    · rename_i heq
      have e := congrArg Prod.fst heq
      dsimp only at e
      subst e
      exact keeps_reachList h _ _ _ _
    · rename_i heq
      have e := congrArg Prod.fst heq
      dsimp only at e
      subst e
      split
      · rename_i heq
        have e := congrArg Prod.fst heq
        dsimp only at e
        subst e
        exact keeps_reachList (keeps_reachList h _ _ _ _) _ _ _ _
      · rename_i heq
        have e := congrArg Prod.fst heq
        dsimp only at e
        subst e
        split
        · rename_i heq
          have e := congrArg Prod.fst heq
          dsimp only at e
          subst e
          exact keeps_reachList (keeps_reachList (keeps_reachList h _ _ _ _) _ _ _ _) _ _ _ _
        · rename_i heq
          have e := congrArg Prod.fst heq
          dsimp only at e
          subst e
          refine keeps_foldl (fun t p ht => ?_) _ (keeps_reachList (keeps_reachList (keeps_reachList h _ _ _ _) _ _ _ _) _ _ _ _)
          exact keeps_ite.2 ⟨fun _ => keeps_storeCrew (keeps_used ht) _ _ _ _, fun _ => keeps_storeCrew ht _ _ _ _⟩

@[simp] theorem keeps_blitBlocks {a s : State} (h : Keeps a s) (s0 : State) (c : Nat) (mask : Nat) (d : Drawing) (blocks : List (Nat × Nat)) :
    Keeps a (State.blitBlocks s0 c mask d s blocks).1 := by
  unfold State.blitBlocks
  refine keeps_foldl_fst (fun p b hp => ?_) _ h
  split
  · exact keeps_blitBlock hp _ _ _ _ _
  · exact hp

@[simp] theorem keeps_blitPost {a s : State} (h : Keeps a s) (c : Nat) (faulted : Bool) (cookie : Nat) (blocks : Nat) : Keeps a (State.blitPost s c faulted cookie blocks) := by
  simp (maxDischargeDepth := 99) [State.blitPost, h]

@[simp] theorem keeps_blitItem {a s : State} (h : Keeps a s) (c : Nat) (fill : Nat) (d : Except Abort Drawing) : Keeps a (State.blitItem s c fill d) := by
  unfold State.blitItem
  (repeat' split) <;> simp +contextual (maxDischargeDepth := 99) [h]

@[simp] theorem keeps_takeBlit {a s : State} (h : Keeps a s) (c : Nat) : Keeps a (State.takeBlit s c) := by
  simp (maxDischargeDepth := 99) [State.takeBlit, h]

@[simp] theorem keeps_blitWrite {a s : State} (h : Keeps a s) (c : Nat) (n : Nat) : Keeps a (State.blitWrite s c n) := by
  unfold State.blitWrite
  split
  · exact h
  · split
    · exact h
    · rename_i r _ _ d _
      extract_lets seen
      have k := keeps_blitBlocks h seen c (bits (r.item.word 0) 47 32) d (r.left.take n)
      generalize seen.blitBlocks c (bits (r.item.word 0) 47 32) d s (r.left.take n) = p at k
      exact keeps_modBlit k c _

@[simp] theorem keeps_clipChange {a s : State} (h : Keeps a s) (c : Nat) : Keeps a (State.clipChange s c) := by
  unfold State.clipChange
  (repeat' split) <;> simp +contextual (maxDischargeDepth := 99) [h]

@[simp] theorem keeps_blitDone {a s : State} (h : Keeps a s) (c : Nat) : Keeps a (State.blitDone s c) := by
  unfold State.blitDone
  dsimp only
  (repeat' split) <;> simp +contextual (maxDischargeDepth := 99) [h]

/-! ### Crewing -/

@[simp] theorem keeps_giveLayer {a s : State} (h : Keeps a s) (l : Nat) (c : Nat) : Keeps a (State.giveLayer s l c) := by
  simp (maxDischargeDepth := 99) [State.giveLayer, h]

@[simp] theorem keeps_unassign {a s : State} (h : Keeps a s) (req : Nat) (l : Nat) : Keeps a (State.unassign s req l).1 := by
  unfold State.unassign
  dsimp only
  (repeat' split) <;> simp +contextual (maxDischargeDepth := 99) [h]

@[simp] theorem keeps_assign {a s : State} (h : Keeps a s) (req : Nat) (l : Nat) (v : Nat) : Keeps a (State.assign s req l v).1 := by
  unfold State.assign
  (repeat' split) <;> simp +contextual (maxDischargeDepth := 99) [h]

@[simp] theorem keeps_createLayer {a s : State} (h : Keeps a s) (c : Nat) (cookie : Nat) : Keeps a (State.createLayer s c cookie) := by
  unfold State.createLayer
  (repeat' split) <;> simp +contextual (maxDischargeDepth := 99) [h]

@[simp] theorem keeps_stageLayer {a s : State} (h : Keeps a s) (req : Nat) (l : Nat) (sub : Nat) (v : Nat) : Keeps a (State.stageLayer s req l sub v).1 := by
  unfold State.stageLayer
  (repeat' split) <;> simp +contextual (maxDischargeDepth := 99) [h]

@[simp] theorem keeps_layerSet {a s : State} (h : Keeps a s) (c : Nat) (l : Nat) (x3 : List (Nat × Nat)) : Keeps a (State.layerSet s c l x3) := by
  induction x3 generalizing s with
  | nil => exact h
  | cons p rest ih =>
    obtain ⟨sub, v⟩ := p
    unfold State.layerSet
    have k := keeps_stageLayer h c l sub v
    split
    · rename_i heq
      rw [heq] at k
      exact ih k
    · rename_i heq
      rw [heq] at k
      exact keeps_itemError k _ _ _

@[simp] theorem keeps_flushCq {a s : State} (h : Keeps a s) (c : Nat) : Keeps a (State.flushCq s c) := by
  simp (maxDischargeDepth := 99) [State.flushCq, h]

@[simp] theorem keeps_discardCommit {a s : State} (h : Keeps a s) (k : Commit) : Keeps a (State.discardCommit s k) := by
  simp (maxDischargeDepth := 99) [State.discardCommit, h]

@[simp] theorem keeps_leaveLayers {a s : State} (h : Keeps a s) (c : Nat) : Keeps a (State.leaveLayers s c) := by
  simp +contextual (maxDischargeDepth := 99) [State.leaveLayers, h]

@[simp] theorem keeps_dropBacking {a s : State} (h : Keeps a s) (c : Nat) : Keeps a (State.dropBacking s c) := by
  unfold State.dropBacking
  exact keeps_modCrew (h.upd (memWf_filter _ _) id id id id id id id) c _ (fun _ q => q)

@[simp] theorem keeps_crewSteps {a s : State} (h : Keeps a s) (c : Nat) : Keeps a (State.crewSteps s c) := by
  simp +contextual (maxDischargeDepth := 99) [State.crewSteps, h]

@[simp] theorem keeps_disableCrew {a s : State} (h : Keeps a s) (c : Nat) : Keeps a (State.disableCrew s c) := by
  simp (maxDischargeDepth := 99) [State.disableCrew, h]

@[simp] theorem keeps_functionReset {a s : State} (h : Keeps a s) (c : Nat) : Keeps a (State.functionReset s c) := by
  simp (maxDischargeDepth := 99) [State.functionReset, h]

@[simp] theorem keeps_writeEnable {a s : State} (h : Keeps a s) (c : Nat) (v : Nat) : Keeps a (State.writeEnable s c v) := by
  simp (maxDischargeDepth := 99) [State.writeEnable, h]

/-! ### Queue -/

@[simp] theorem keeps_cqDrop {a s : State} (h : Keeps a s) (c : Nat) : Keeps a (State.cqDrop s c) := by
  simp (maxDischargeDepth := 99) [State.cqDrop, h]

@[simp] theorem keeps_cqResync {a s : State} (h : Keeps a s) (c : Nat) : Keeps a (State.cqResync s c) := by
  simp (maxDischargeDepth := 99) [State.cqResync, h]

@[simp] theorem keeps_pushOutside {a s : State} (h : Keeps a s) (c : Nat) (w : Nat) : Keeps a (State.pushOutside s c w) := by
  simp (maxDischargeDepth := 99) [State.pushOutside, h]

@[simp] theorem keeps_pushInside {a s : State} (h : Keeps a s) (c : Nat) (w : Nat) : Keeps a (State.pushInside s c w) := by
  have k : Keeps a (s.modCrew c Crew.spoil) := keeps_modCrew h c _ (fun _ q => q)
  unfold State.pushInside
  split
  · exact keeps_pushOutside k _ _
  · split
    · exact keeps_cqDrop k _
    · split
      · exact keeps_cqResync k _
      · exact keeps_modCrew h c _ (fun _ q => q)

@[simp] theorem keeps_cqPush {a s : State} (h : Keeps a s) (c : Nat) (hi : Nat) : Keeps a (State.cqPush s c hi) := by
  simp (maxDischargeDepth := 99) [State.cqPush, h]

@[simp] theorem keeps_eqPop {a s : State} (h : Keeps a s) (c : Nat) : Keeps a (State.eqPop s c) := by
  unfold State.eqPop
  split
  · rename_i w rest heq
    exact keeps_send (keeps_modCrew_at h c _ (fun q => by rw [heq] at q; simp at q ⊢; omega)) _
  · exact keeps_modCrew h c _ (fun _ q => q)

@[simp] theorem keeps_eqPopEnd {a s : State} (h : Keeps a s) (c : Nat) : Keeps a (State.eqPopEnd s c) := by
  simp (maxDischargeDepth := 99) [State.eqPopEnd, h]

@[simp] theorem keeps_eqArm {a s : State} (h : Keeps a s) (c : Nat) (v : Nat) : Keeps a (State.eqArm s c v) := by
  simp (maxDischargeDepth := 99) [State.eqArm, h]

@[simp] theorem keeps_doorbell {a s : State} (h : Keeps a s) (c : Nat) : Keeps a (State.doorbell s c) := by
  simp (maxDischargeDepth := 99) [State.doorbell, h]

@[simp] theorem keeps_commitItem {a s : State} (h : Keeps a s) (c : Nat) : Keeps a (State.commitItem s c) := by
  simp (maxDischargeDepth := 99) [State.commitItem, h]

@[simp] theorem keeps_registerOutcome {a s : State} (h : Keeps a s) (n : Nat) (o : Except Abort Nat) : Keeps a (State.registerOutcome s n o) := by
  unfold State.registerOutcome
  (repeat' split) <;> simp +contextual (maxDischargeDepth := 99) [h]

@[simp] theorem keeps_acceptNext {a s : State} (h : Keeps a s) (c : Nat) : Keeps a (State.acceptNext s c) := by
  unfold State.acceptNext
  (repeat' split) <;> simp +contextual (maxDischargeDepth := 99) [h]

@[simp] theorem keeps_fenceWait {a s : State} (h : Keeps a s) (c : Nat) : Keeps a (State.fenceWait s c) := by
  simp (maxDischargeDepth := 99) [State.fenceWait, h]

@[simp] theorem keeps_fencePoll {a s : State} (h : Keeps a s) (c : Nat) : Keeps a (State.fencePoll s c) := by
  unfold State.fencePoll
  dsimp only
  (repeat' split) <;> simp +contextual (maxDischargeDepth := 99) [h]

@[simp] theorem keeps_fenceTimeout {a s : State} (h : Keeps a s) (c : Nat) : Keeps a (State.fenceTimeout s c) := by
  unfold State.fenceTimeout
  (repeat' split) <;> simp +contextual (maxDischargeDepth := 99) [h]

@[simp] theorem keeps_fenceSignal {a s : State} (h : Keeps a s) (c : Nat) : Keeps a (State.fenceSignal s c) := by
  unfold State.fenceSignal
  dsimp only
  (repeat' split) <;> simp +contextual (maxDischargeDepth := 99) [h]

@[simp] theorem keeps_dropBadHead {a s : State} (h : Keeps a s) (c : Nat) : Keeps a (State.dropBadHead s c) := by
  simp (maxDischargeDepth := 99) [State.dropBadHead, h]

@[simp] theorem keeps_layerSetItem {a s : State} (h : Keeps a s) (c : Nat) : Keeps a (State.layerSetItem s c) := by
  simp (maxDischargeDepth := 99) [State.layerSetItem, h]

@[simp] theorem keeps_layerCreateItem {a s : State} (h : Keeps a s) (c : Nat) : Keeps a (State.layerCreateItem s c) := by
  simp (maxDischargeDepth := 99) [State.layerCreateItem, h]

@[simp] theorem keeps_layerDestroyItem {a s : State} (h : Keeps a s) (c : Nat) : Keeps a (State.layerDestroyItem s c) := by
  unfold State.layerDestroyItem
  dsimp only
  have k := keeps_unassign (keeps_takeHead h c) c (layerField ((s.head c).word 0))
  split
  · rename_i heq
    rw [heq] at k
    exact k
  · rename_i heq
    rw [heq] at k
    exact keeps_itemError k _ _ _

/-! ### Resets -/

@[simp] theorem keeps_resetDomains {a s : State} (h : Keeps a s) (cause : Nat) : Keeps a (State.resetDomains s cause) := by
  refine ⟨h.pending, h.now, fun x => ?_, h.fuses⟩
  have y := h.sound x
  exact ⟨rfl, y.hostMem, rfl, rfl, by simp [State.resetDomains, State.reset], by simp [State.resetDomains, State.reset],
    by simp [State.resetDomains, State.reset, blankPower], by simp [State.resetDomains, Umpire.afterReset, blankUmpire],
    queuesOk_nil, regionsOk_nil, y.epoch⟩

@[simp] theorem keeps_unpower {a s : State} (h : Keeps a s) (mode : Mode) : Keeps a (State.unpower s mode) := by
  unfold State.unpower
  exact (keeps_resetDomains h 0).upd id id id id id id (fun _ => by simp [Umpire.afterReset, blankUmpire]) id

@[simp] theorem keeps_islandLost {a s : State} (h : Keeps a s) : Keeps a (State.islandLost s) := by
  simp (maxDischargeDepth := 99) [State.islandLost, h]

/-! ### Security -/

theorem grown_erase (f : Fuses) (p : Bool) (h : f.epoch ≤ 16) :
    Grown f { f with epoch := min 16 (f.epoch + 1), keyKill := f.keyKill || p } ∧ min 16 (f.epoch + 1) ≤ 16 :=
  ⟨⟨by simp; omega, le_rfl, id, fun k => by simp [k], fun _ k => k, rfl⟩, by omega⟩

theorem grown_revoke (f : Fuses) (v : Nat) (h : f.epoch ≤ 16) :
    Grown f { f with revoked := f.revoked ||| v } ∧ f.epoch ≤ 16 :=
  ⟨⟨le_rfl, le_rfl, id, id, fun _ k => by simp [k], rfl⟩, h⟩

theorem grown_hashes (f : Fuses) (d : Option Nat) (b : Tab Nat) (h : f.epoch ≤ 16) :
    Grown f { f with debugHash := d, bootHashes := b } ∧ f.epoch ≤ 16 :=
  ⟨⟨le_rfl, le_rfl, id, id, fun _ k => k, rfl⟩, h⟩

theorem grown_version (f : Fuses) (v : Nat) (h : f.epoch ≤ 16) :
    Grown f { f with minVersion := max f.minVersion v } ∧ f.epoch ≤ 16 :=
  ⟨⟨le_rfl, le_max_left _ _, id, id, fun _ k => k, rfl⟩, h⟩

@[simp] theorem keeps_eraseKeys {a s : State} (h : Keeps a s) (permanent : Bool) : Keeps a (State.eraseKeys s permanent) := by
  unfold State.eraseKeys
  exact keeps_modSec h _ (fun c hc => grown_erase c.fuses permanent hc)

@[simp] theorem keeps_runPolicy {a s : State} (h : Keeps a s) (p : Nat) : Keeps a (State.runPolicy s p) := by
  unfold State.runPolicy
  (repeat' split) <;> simp +contextual (maxDischargeDepth := 99) [h]

@[simp] theorem keeps_alarmCore {a s : State} (h : Keeps a s) (a1 : Nat) : Keeps a (State.alarmCore s a1) := by
  simp (maxDischargeDepth := 99) [State.alarmCore, h]

@[simp] theorem keeps_countFailure {a s : State} (h : Keeps a s) : Keeps a (State.countFailure s) := by
  simp (maxDischargeDepth := 99) [State.countFailure, h]

@[simp] theorem keeps_debugFailure {a s : State} (h : Keeps a s) : Keeps a (State.debugFailure s) := by
  simp (maxDischargeDepth := 99) [State.debugFailure, h]

@[simp] theorem keeps_alarm {a s : State} (h : Keeps a s) (a1 : Nat) : Keeps a (State.alarm s a1) := by
  simp (maxDischargeDepth := 99) [State.alarm, h]

@[simp] theorem keeps_readChallenge {a s : State} (h : Keeps a s) : Keeps a (State.readChallenge s) := by
  simp (maxDischargeDepth := 99) [State.readChallenge, h]

@[simp] theorem keeps_openDebug {a s : State} (h : Keeps a s) (scope : Nat) : Keeps a (State.openDebug s scope) := by
  simp (maxDischargeDepth := 99) [State.openDebug, h]

@[simp] theorem keeps_unlockDebug {a s : State} (h : Keeps a s) (scope : Nat) (signature : List Byte) : Keeps a (State.unlockDebug s scope signature) := by
  unfold State.unlockDebug
  (repeat' split) <;> simp +contextual (maxDischargeDepth := 99) [h]

@[simp] theorem keeps_revokeSlot {a s : State} (h : Keeps a s) (v : Nat) : Keeps a (State.revokeSlot s v) := by
  unfold State.revokeSlot
  dsimp only
  split
  · exact h
  · split
    · exact keeps_raise h _ _
    · exact keeps_modSec h _ (fun c hc => grown_revoke c.fuses _ hc)

@[simp] theorem keeps_writePolicy {a s : State} (h : Keeps a s) (v : Nat) : Keeps a (State.writePolicy s v) := by
  simp (maxDischargeDepth := 99) [State.writePolicy, h]

@[simp] theorem keeps_provision {a s : State} (h : Keeps a s) (data : List Byte) : Keeps a (State.provision s data).1 := by
  unfold State.provision
  dsimp only
  (repeat' split) <;> first
    | exact h
    | exact keeps_debugFailure h
    | (refine keeps_raise (keeps_modSec h _ ?_) _ _
       intro c hc
       exact grown_hashes c.fuses _ _ hc)

@[simp] theorem keeps_loadKeys {a s : State} (h : Keeps a s) (blob : Nat) : Keeps a (State.loadKeys s blob) := by
  simp (maxDischargeDepth := 99) [State.loadKeys, h]

@[simp] theorem keeps_waitSlot {a s : State} (h : Keeps a s) (k : Nat) : Keeps a (State.waitSlot s k) := by
  simp (maxDischargeDepth := 99) [State.waitSlot, h]

theorem regionsOk_foldl (l : List (Nat × Val)) (t : Tab Region) (h : regionsOk t) :
    regionsOk (l.foldl (fun (t : Tab Region) (p : Nat × Val) =>
      tabMod blankRegion t (p.1 / 256 - 0x7100) (fun r => { r with expected := valNat p.2 })) t) := by
  induction l generalizing t with
  | nil => exact h
  | cons p l ih => exact ih _ (regionsOk_tabMod (fun _ q => q) h)

theorem log_configured (u : Umpire) (l : List (Nat × Nat)) (h : u.log.length ≤ 16) : (u.configured l).log.length ≤ 16 := by
  unfold Umpire.configured
  have k (v : Umpire) (hv : v.log.length ≤ 16) : (l.foldl (fun v p =>
      if classFixed p.1 ∨ 128 ≤ p.1 then v
      else if v.latched.testBit p.1 then { v with heldBack := tabSet v.heldBack p.1 (p.2 % 4) }
      else { v with classes := tabSet v.classes p.1 (p.2 % 4), heldBack := tabErase v.heldBack p.1 }) v).log.length ≤ 16 := by
    induction l generalizing v with
    | nil => exact hv
    | cons p l ih =>
      refine ih _ ?_
      dsimp only
      (repeat' split) <;> exact hv
  exact k _ h

@[simp] theorem keeps_configure {a s : State} (h : Keeps a s) (g : LaunchCfg) : Keeps a (State.configure s g) := by
  unfold State.configure
  dsimp only
  refine keeps_followNfault (keeps_setPower ?_ _)
  split
  · exact keeps_waitSlot (keeps_setNum (keeps_setNum (keeps_modModes (h.upd id id id id id (regionsOk_foldl _ _) (log_configured _ _) id) _) _ _ _) _ _ _) _
  · exact keeps_modModes (h.upd id id id id id (regionsOk_foldl _ _) (log_configured _ _) id) _

@[simp] theorem keeps_refuseImages {a s : State} (h : Keeps a s) : Keeps a (State.refuseImages s) := by
  simp (maxDischargeDepth := 99) [State.refuseImages, h]

@[simp] theorem keeps_acceptImage {a s : State} (h : Keeps a s) (i : BootImage) (status : Nat) : Keeps a (State.acceptImage s i status) := by
  simp (maxDischargeDepth := 99) [State.acceptImage, h]

@[simp] theorem keeps_checkImages {a s : State} (h : Keeps a s) (a1 : BootImage) (b : BootImage) : Keeps a (State.checkImages s a1 b) := by
  simp (maxDischargeDepth := 99) [State.checkImages, h]

/-! ### Sealed -/

@[simp] theorem keeps_checkKm {a s : State} (h : Keeps a s) : Keeps a (State.checkKm s) := by
  simp (maxDischargeDepth := 99) [State.checkKm, h]

@[simp] theorem keeps_overrateCheck {a s : State} (h : Keeps a s) (input : Nat) : Keeps a (State.overrateCheck s input) := by
  simp (maxDischargeDepth := 99) [State.overrateCheck, h]

@[simp] theorem keeps_pulseEdge {a s : State} (h : Keeps a s) (input : Nat) : Keeps a (State.pulseEdge s input) := by
  simp (maxDischargeDepth := 99) [State.pulseEdge, h]

@[simp] theorem keeps_setNeeds {a s : State} (h : Keeps a s) (v : Bool) : Keeps a (State.setNeeds s v) := by
  simp (maxDischargeDepth := 99) [State.setNeeds, h]

@[simp] theorem keeps_logEntry {a s : State} (h : Keeps a s) (index : Nat) (sub : Nat) (kind : Nat) (old : Nat) (new : Nat) : Keeps a (State.logEntry s index sub kind old new) := by
  simp (maxDischargeDepth := 99) [State.logEntry, h]

@[simp] theorem keeps_auditEvent {a s : State} (h : Keeps a s) (kind : Nat) : Keeps a (State.auditEvent s kind) := by
  simp (maxDischargeDepth := 99) [State.auditEvent, h]

@[simp] theorem keeps_smuFault {a s : State} (h : Keeps a s) : Keeps a (State.smuFault s) := by
  simp (maxDischargeDepth := 99) [State.smuFault, h]

@[simp] theorem keeps_writeRecord {a s : State} (h : Keeps a s) : Keeps a (State.writeRecord s) := by
  simp (maxDischargeDepth := 99) [State.writeRecord, h]

@[simp] theorem keeps_loadSlot {a s : State} (h : Keeps a s) (x : SmuSlot) : Keeps a (State.loadSlot s x) := by
  simp (maxDischargeDepth := 99) [State.loadSlot, h]

@[simp] theorem keeps_startSmu {a s : State} (h : Keeps a s) (slots : List SmuSlot) (fwSigned : Bool) : Keeps a (State.startSmu s slots fwSigned) := by
  unfold State.startSmu
  dsimp only
  (repeat' split) <;> simp +contextual (maxDischargeDepth := 99) [h]

@[simp] theorem keeps_placeIndication {a s : State} (h : Keeps a s) : Keeps a (State.placeIndication s) := by
  simp (maxDischargeDepth := 99) [State.placeIndication, h]

@[simp] theorem keeps_postIndication {a s : State} (h : Keeps a s) (b : Nat) (raster : List Nat) : Keeps a (State.postIndication s b raster) := by
  simp (maxDischargeDepth := 99) [State.postIndication, h]

@[simp] theorem keeps_commitParam {a s : State} (h : Keeps a s) (key : Nat) (old : Val) : Keeps a (State.commitParam s key old) := by
  simp (maxDischargeDepth := 99) [State.commitParam, h]

@[simp] theorem keeps_commitFw {a s : State} (h : Keeps a s) : Keeps a (State.commitFw s) := by
  simp (maxDischargeDepth := 99) [State.commitFw, h]

@[simp] theorem keeps_smuAnswer {a s : State} (h : Keeps a s) (crew : Nat) (cookie : Nat) (result : Nat) (data : Nat) : Keeps a (State.smuAnswer s crew cookie result data) := by
  simp (maxDischargeDepth := 99) [State.smuAnswer, h]

@[simp] theorem keeps_leaveVerification {a s : State} (h : Keeps a s) : Keeps a (State.leaveVerification s) := by
  simp (maxDischargeDepth := 99) [State.leaveVerification, h]

@[simp] theorem keeps_closeVerified {a s : State} (h : Keeps a s) (k : SmuClosing) : Keeps a (State.closeVerified s k) := by
  simp +contextual (maxDischargeDepth := 99) [State.closeVerified, h]

@[simp] theorem keeps_closeFailed {a s : State} (h : Keeps a s) : Keeps a (State.closeFailed s) := by
  unfold State.closeFailed
  (repeat' split) <;> simp +contextual (maxDischargeDepth := 99) [h]

@[simp] theorem keeps_judgeIndication {a s : State} (h : Keeps a s) (pass : Bool) : Keeps a (State.judgeIndication s pass) := by
  unfold State.judgeIndication
  dsimp only
  (repeat' split) <;> simp +contextual (maxDischargeDepth := 99) [h]

@[simp] theorem keeps_beginJourney {a s : State} (h : Keeps a s) (t : Nat) : Keeps a (State.beginJourney s t) := by
  simp (maxDischargeDepth := 99) [State.beginJourney, h]

@[simp] theorem keeps_authenticated {a s : State} (h : Keeps a s) (v : Nat) : Keeps a (State.authenticated s v) := by
  simp (maxDischargeDepth := 99) [State.authenticated, h]

@[simp] theorem keeps_offsetTime {a s : State} (h : Keeps a s) (plus : Bool) : Keeps a (State.offsetTime s plus) := by
  simp (maxDischargeDepth := 99) [State.offsetTime, h]

@[simp] theorem keeps_openClosing {a s : State} (h : Keeps a s) (crew : Nat) (cookie : Nat) : Keeps a (State.openClosing s crew cookie) := by
  simp +contextual (maxDischargeDepth := 99) [State.openClosing, h]

@[simp] theorem keeps_smuEffect {a s : State} (h : Keeps a s) (a1 : SmuAnswer) : Keeps a (State.smuEffect s a1) := by
  unfold State.smuEffect
  (repeat' split) <;> simp +contextual (maxDischargeDepth := 99) [h]

@[simp] theorem keeps_smuServe {a s : State} (h : Keeps a s) (a1 : SmuAnswer) : Keeps a (State.smuServe s a1) := by
  unfold State.smuServe
  (repeat' split) <;> simp +contextual (maxDischargeDepth := 99) [h]

@[simp] theorem keeps_smuImage {a s : State} (h : Keeps a s) : Keeps a (State.smuImage s) := by
  simp +contextual (maxDischargeDepth := 99) [State.smuImage, h]

@[simp] theorem keeps_smuItem {a s : State} (h : Keeps a s) (c : Nat) : Keeps a (State.smuItem s c) := by
  simp (maxDischargeDepth := 99) [State.smuItem, h]

@[simp] theorem keeps_accrue {a s : State} (h : Keeps a s) (d : Nat) : Keeps a (State.accrue s d) := by
  simp (maxDischargeDepth := 99) [State.accrue, h]

@[simp] theorem keeps_smuTick {a s : State} (h : Keeps a s) : Keeps a (State.smuTick s) := by
  unfold State.smuTick
  dsimp only
  (repeat' split) <;> simp +contextual (maxDischargeDepth := 99) [h]

@[simp] theorem keeps_sealChange {a s : State} (h : Keeps a s) (opened : Bool) : Keeps a (State.sealChange s opened) := by
  simp (maxDischargeDepth := 99) [State.sealChange, h]

@[simp] theorem keeps_sealTimeout {a s : State} (h : Keeps a s) : Keeps a (State.sealTimeout s) := by
  simp (maxDischargeDepth := 99) [State.sealTimeout, h]

end Sys2Proof
end

