-- ==== Sys2Proof/Laws/KeepsModes.lean ====
section
/-! SUPPORT. One lemma for each function that changes the state: what it keeps (Laws/Keeps.lean). Here: the photo-finish, fault sources, launch, the cascade, hosts and the register map. -/

set_option Elab.async false

namespace Sys2Proof

open Sys2Proof.Machine

/-! ### Photo -/

@[simp] theorem keeps_photoFail {a s : State} (h : Keeps a s) (n : Nat) (i : Nat) (k : Check) : Keeps a (State.photoFail s n i k) := by
  unfold State.photoFail
  extract_lets s1 s2 s3
  have h1 : Keeps a s1 := keeps_occur h _ _
  have h2 : Keeps a s2 := keeps_ite.2 ⟨fun _ => keeps_setValidity h1 _, fun _ => h1⟩
  clear_value s2
  have h3 := keeps_modRegion h2 (n * 32 + i) (fun r => { r with failed := true }) (fun r q => q)
  have h4 : Keeps a s3 := keeps_count (keeps_raise h3 _ _) _ _
  clear_value s3
  exact keeps_post h4 _ _

@[simp] theorem keeps_evaluate {a s : State} (h : Keeps a s) (n : Nat) (i : Nat) : Keeps a (State.evaluate s n i) := by
  unfold State.evaluate
  split
  · exact h
  · rename_i k hk
    extract_lets f r ws crc counts
    split
    rename_i o w hw
    extract_lets run raised t u
    have h1 : Keeps a t := keeps_modRegion h _ _ (fun _ _ => ⟨by simp, Nat.mod_lt _ (by decide)⟩)
    have h2 : Keeps a u := keeps_ite.2 ⟨fun _ => keeps_judgeIndication h1 _, fun _ => h1⟩
    exact keeps_ite.2 ⟨fun _ => keeps_photoFail h2 _ _ _, fun _ => h2⟩

@[simp] theorem keeps_rearm {a s : State} (h : Keeps a s) (n : Nat) (i : Nat) : Keeps a (State.rearm s n i) := by
  exact keeps_modRegion h _ _ (fun r q => q)

@[simp] theorem keeps_armLane {a s : State} (h : Keeps a s) (n : Nat) : Keeps a (State.armLane s n) := by
  simp +contextual (maxDischargeDepth := 99) [State.armLane, h]

/-! ### Faults -/

@[simp] theorem keeps_snapshot {a s : State} (h : Keeps a s) : Keeps a (State.snapshot s) := by
  simp (maxDischargeDepth := 99) [State.snapshot, h]

@[simp] theorem keeps_umpireClear {a s : State} (h : Keeps a s) (v : Nat) : Keeps a (State.umpireClear s v) := by
  simp (maxDischargeDepth := 99) [State.umpireClear, h]

@[simp] theorem keeps_clearObject {a s : State} (h : Keeps a s) (mask : Nat) (since : Nat) : Keeps a (State.clearObject s mask since) := by
  simp (maxDischargeDepth := 99) [State.clearObject, h]

@[simp] theorem keeps_writeClass {a s : State} (h : Keeps a s) (k : Nat) (v : Nat) : Keeps a (State.writeClass s k v) := by
  simp (maxDischargeDepth := 99) [State.writeClass, h]

@[simp] theorem keeps_ackC3 {a s : State} (h : Keeps a s) (v : Nat) : Keeps a (State.ackC3 s v) := by
  simp (maxDischargeDepth := 99) [State.ackC3, h]

@[simp] theorem keeps_inject {a s : State} (h : Keeps a s) (v : Nat) : Keeps a (State.inject s v) := by
  simp (maxDischargeDepth := 99) [State.inject, h]

@[simp] theorem keeps_faultOccurs {a s : State} (h : Keeps a s) (source : Nat) (detail : Nat) : Keeps a (State.faultOccurs s source detail) := by
  simp (maxDischargeDepth := 99) [State.faultOccurs, h]

@[simp] theorem keeps_writeLimp {a s : State} (h : Keeps a s) (gpio : Nat) : Keeps a (State.writeLimp s gpio) := by
  unfold State.writeLimp
  (repeat' split) <;> simp +contextual (maxDischargeDepth := 99) [h]

@[simp] theorem keeps_limpFrame {a s : State} (h : Keeps a s) (gpio : Nat) : Keeps a (State.limpFrame s gpio) := by
  simp (maxDischargeDepth := 99) [State.limpFrame, h]

/-! ### Launch -/

@[simp] theorem keeps_launchLane {a s : State} (h : Keeps a s) (n : Nat) : Keeps a (State.launchLane s n) := by
  simp +contextual (maxDischargeDepth := 99) [State.launchLane, h]

@[simp] theorem keeps_earlyProgram {a s : State} (h : Keeps a s) (n : Nat) (e : EarlyProgram) : Keeps a (State.earlyProgram s n e) := by
  simp (maxDischargeDepth := 99) [State.earlyProgram, h]

@[simp] theorem keeps_startEarly {a s : State} (h : Keeps a s) : Keeps a (State.startEarly s) := by
  unfold State.startEarly
  (repeat' split) <;> simp +contextual (maxDischargeDepth := 99) [h]

@[simp] theorem keeps_bootCheck {a s : State} (h : Keeps a s) (a1 : BootImage) (b : BootImage) : Keeps a (State.bootCheck s a1 b) := by
  simp (maxDischargeDepth := 99) [State.bootCheck, h]

@[simp] theorem keeps_limpStart {a s : State} (h : Keeps a s) (r : LimpRecord) : Keeps a (State.limpStart s r) := by
  simp (maxDischargeDepth := 99) [State.limpStart, h]

@[simp] theorem keeps_buildPlan {a s : State} (h : Keeps a s) : Keeps a (State.buildPlan s) := by
  simp (maxDischargeDepth := 99) [State.buildPlan, h]

@[simp] theorem keeps_testDone {a s : State} (h : Keeps a s) (shells : List Nat) (boathouse : List Nat) (lp5 : List Nat) (limpOk : Bool) : Keeps a (State.testDone s shells boathouse lp5 limpOk) := by
  simp +contextual (maxDischargeDepth := 99) [State.testDone, h]

@[simp] theorem keeps_startLanes {a s : State} (h : Keeps a s) : Keeps a (State.startLanes s) := by
  simp +contextual (maxDischargeDepth := 99) [State.startLanes, h]

@[simp] theorem keeps_raiseMinimum {a s : State} (h : Keeps a s) : Keeps a (State.raiseMinimum s) := by
  exact keeps_modSec h _ (fun c hc => grown_version c.fuses _ hc)

@[simp] theorem keeps_enterRun {a s : State} (h : Keeps a s) : Keeps a (State.enterRun s) := by
  simp (maxDischargeDepth := 99) [State.enterRun, h]

@[simp] theorem keeps_goLimp {a s : State} (h : Keeps a s) : Keeps a (State.goLimp s) := by
  simp (maxDischargeDepth := 99) [State.goLimp, h]

@[simp] theorem keeps_enterTarget {a s : State} (h : Keeps a s) : Keeps a (State.enterTarget s) := by
  simp (maxDischargeDepth := 99) [State.enterTarget, h]

@[simp] theorem keeps_launchDone {a s : State} (h : Keeps a s) : Keeps a (State.launchDone s) := by
  simp (maxDischargeDepth := 99) [State.launchDone, h]

@[simp] theorem keeps_provisioned {a s : State} (h : Keeps a s) (data : List Byte) : Keeps a (State.provisioned s data).1 := by
  unfold State.provisioned
  have k := keeps_provision h data
  split
  · rename_i heq
    rw [heq] at k
    exact keeps_ite.2 ⟨fun _ => keeps_enterTarget k, fun _ => k⟩
  · exact k

@[simp] theorem keeps_relaunch {a s : State} (h : Keeps a s) : Keeps a (State.relaunch s) := by
  simp +contextual (maxDischargeDepth := 99) [State.relaunch, h]

@[simp] theorem keeps_setTarget {a s : State} (h : Keeps a s) (v : Nat) : Keeps a (State.setTarget s v) := by
  simp (maxDischargeDepth := 99) [State.setTarget, h]

@[simp] theorem keeps_modeRequest {a s : State} (h : Keeps a s) (v : Nat) : Keeps a (State.modeRequest s v).1 := by
  unfold State.modeRequest
  (repeat' split) <;> simp +contextual (maxDischargeDepth := 99) [h]

@[simp] theorem keeps_registerMode {a s : State} (h : Keeps a s) (v : Nat) : Keeps a (State.registerMode s v) := by
  unfold State.registerMode
  have k := keeps_modeRequest h v
  split
  · rename_i heq
    rw [heq] at k
    exact k
  · exact keeps_raise h _ _

@[simp] theorem keeps_sleepRequest {a s : State} (h : Keeps a s) (v : Nat) : Keeps a (State.sleepRequest s v) := by
  simp (maxDischargeDepth := 99) [State.sleepRequest, h]

@[simp] theorem keeps_wakeUp {a s : State} (h : Keeps a s) (pulse : Bool) : Keeps a (State.wakeUp s pulse) := by
  simp (maxDischargeDepth := 99) [State.wakeUp, h]

@[simp] theorem keeps_asleep {a s : State} (h : Keeps a s) (watch : Bool) : Keeps a (State.asleep s watch) := by
  unfold State.asleep
  exact (keeps_resetDomains h 0).upd id id id id id id id (fun _ => by simp [blankPower])

@[simp] theorem keeps_restLane {a s : State} (h : Keeps a s) (n : Nat) : Keeps a (State.restLane s n) := by
  simp (maxDischargeDepth := 99) [State.restLane, h]

@[simp] theorem keeps_sleepDone {a s : State} (h : Keeps a s) : Keeps a (State.sleepDone s) := by
  unfold State.sleepDone
  (repeat' split) <;> simp +contextual (maxDischargeDepth := 99) [h]

@[simp] theorem keeps_wakeEvent {a s : State} (h : Keeps a s) (w : WakeSource) : Keeps a (State.wakeEvent s w) := by
  simp (maxDischargeDepth := 99) [State.wakeEvent, h]

@[simp] theorem keeps_standingLevels {a s : State} (h : Keeps a s) : Keeps a (State.standingLevels s) := by
  simp (maxDischargeDepth := 99) [State.standingLevels, h]

@[simp] theorem keeps_repeatC3 {a s : State} (h : Keeps a s) : Keeps a (State.repeatC3 s) := by
  unfold State.repeatC3
  (repeat' split) <;> simp +contextual (maxDischargeDepth := 99) [h]

@[simp] theorem keeps_releaseReset {a s : State} (h : Keeps a s) (straps : Nat) : Keeps a (State.releaseReset s straps) := by
  simp (maxDischargeDepth := 99) [State.releaseReset, h]

@[simp] theorem keeps_resetPin {a s : State} (h : Keeps a s) (lowNs : Nat) : Keeps a (State.resetPin s lowNs) := by
  simp (maxDischargeDepth := 99) [State.resetPin, h]

@[simp] theorem keeps_supplyFails {a s : State} (h : Keeps a s) (supply : Nat) (belowReset : Bool) : Keeps a (State.supplyFails s supply belowReset) := by
  simp (maxDischargeDepth := 99) [State.supplyFails, h]

@[simp] theorem keeps_applyStandby {a s : State} (h : Keeps a s) : Keeps a (State.applyStandby s) := by
  simp (maxDischargeDepth := 99) [State.applyStandby, h]

@[simp] theorem keeps_removeStandby {a s : State} (h : Keeps a s) : Keeps a (State.removeStandby s) := by
  simp (maxDischargeDepth := 99) [State.removeStandby, h]

@[simp] theorem keeps_cyclePower {a s : State} (h : Keeps a s) : Keeps a (State.cyclePower s) := by
  simp (maxDischargeDepth := 99) [State.cyclePower, h]

theorem keeps_setThrottle {a s : State} (h : Keeps a s) (k : Nat) (hk : s.power.throttle ≤ 7 → k ≤ 7) : Keeps a (s.setThrottle k) := by
  unfold State.setThrottle
  have q : Keeps a ((s.modPower (fun p => { p with throttle := k, throttledAt := some s.now })).raise powerStatus [4]) :=
    keeps_raise (h.upd (power := { s.power with throttle := k, throttledAt := some s.now }) id id id id id id id hk) _ _
  exact keeps_ite.2 ⟨fun _ => keeps_lineOn q _ _, fun _ => keeps_lineOff q _⟩

@[simp] theorem keeps_crystalFails {a s : State} (h : Keeps a s) : Keeps a (State.crystalFails s) := by
  simp (maxDischargeDepth := 99) [State.crystalFails, h]

@[simp] theorem keeps_rcWindowEnds {a s : State} (h : Keeps a s) : Keeps a (State.rcWindowEnds s) := by
  simp (maxDischargeDepth := 99) [State.rcWindowEnds, h]

/-! ### Cascade -/

@[simp] theorem keeps_modLink {a s : State} (h : Keeps a s) (k : Nat) (f : Link → Link) : Keeps a (State.modLink s k f) := by
  simp (maxDischargeDepth := 99) [State.modLink, h]

@[simp] theorem keeps_modNode {a s : State} (h : Keeps a s) (n : Nat) (f : Node → Node) : Keeps a (State.modNode s n f) := by
  simp (maxDischargeDepth := 99) [State.modNode, h]

@[simp] theorem keeps_linkLevel {a s : State} (h : Keeps a s) : Keeps a (State.linkLevel s) := by
  simp (maxDischargeDepth := 99) [State.linkLevel, h]

@[simp] theorem keeps_startLinks {a s : State} (h : Keeps a s) : Keeps a (State.startLinks s) := by
  simp (maxDischargeDepth := 99) [State.startLinks, h]

@[simp] theorem keeps_nodeChanged {a s : State} (h : Keeps a s) (n : Nat) (post : Bool) : Keeps a (State.nodeChanged s n post) := by
  simp (maxDischargeDepth := 99) [State.nodeChanged, h]

@[simp] theorem keeps_setReachable {a s : State} (h : Keeps a s) (n : Nat) (r : Bool) : Keeps a (State.setReachable s n r) := by
  simp (maxDischargeDepth := 99) [State.setReachable, h]

@[simp] theorem keeps_takeCascadeRef {a s : State} (h : Keeps a s) : Keeps a (State.takeCascadeRef s) := by
  simp +contextual (maxDischargeDepth := 99) [State.takeCascadeRef, h]

@[simp] theorem keeps_masterReturns {a s : State} (h : Keeps a s) : Keeps a (State.masterReturns s) := by
  simp (maxDischargeDepth := 99) [State.masterReturns, h]

@[simp] theorem keeps_linkBringup {a s : State} (h : Keeps a s) (k : Nat) (peer : Nat) (peerMaster : Bool) (towards : Bool) (authentic : Bool) (loop : Bool) (delay : Nat) : Keeps a (State.linkBringup s k peer peerMaster towards authentic loop delay) := by
  simp (maxDischargeDepth := 99) [State.linkBringup, h]

@[simp] theorem keeps_linkRetry {a s : State} (h : Keeps a s) (k : Nat) : Keeps a (State.linkRetry s k) := by
  simp (maxDischargeDepth := 99) [State.linkRetry, h]

@[simp] theorem keeps_bootAll {a s : State} (h : Keeps a s) (a1 : BootImage) (b : BootImage) : Keeps a (State.bootAll s a1 b) := by
  simp (maxDischargeDepth := 99) [State.bootAll, h]

@[simp] theorem keeps_loseCascade {a s : State} (h : Keeps a s) : Keeps a (State.loseCascade s) := by
  simp +contextual (maxDischargeDepth := 99) [State.loseCascade, h]

@[simp] theorem keeps_holdSpans {a s : State} (h : Keeps a s) : Keeps a (State.holdSpans s) := by
  simp (maxDischargeDepth := 99) [State.holdSpans, h]

@[simp] theorem keeps_linkLoss {a s : State} (h : Keeps a s) (k : Nat) : Keeps a (State.linkLoss s k) := by
  simp +contextual (maxDischargeDepth := 99) [State.linkLoss, h]

@[simp] theorem keeps_loseMaster {a s : State} (h : Keeps a s) : Keeps a (State.loseMaster s) := by
  simp (maxDischargeDepth := 99) [State.loseMaster, h]

@[simp] theorem keeps_masterBack {a s : State} (h : Keeps a s) : Keeps a (State.masterBack s) := by
  simp (maxDischargeDepth := 99) [State.masterBack, h]

@[simp] theorem keeps_catchLinked {a s : State} (h : Keeps a s) : Keeps a (State.catchLinked s) := by
  simp +contextual (maxDischargeDepth := 99) [State.catchLinked, h]

@[simp] theorem keeps_takeMarker {a s : State} (h : Keeps a s) (masterCatch : Bool) : Keeps a (State.takeMarker s masterCatch) := by
  simp (maxDischargeDepth := 99) [State.takeMarker, h]

@[simp] theorem keeps_lateMarker {a s : State} (h : Keeps a s) (n : Nat) : Keeps a (State.lateMarker s n) := by
  simp (maxDischargeDepth := 99) [State.lateMarker, h]

@[simp] theorem keeps_takeSummary {a s : State} (h : Keeps a s) (n : Nat) (mode : Nat) (nfaultLow : Bool) (links : Nat) (umpire : Nat) : Keeps a (State.takeSummary s n mode nfaultLow links umpire) := by
  simp (maxDischargeDepth := 99) [State.takeSummary, h]

@[simp] theorem keeps_sendEvents {a s : State} (h : Keeps a s) (mask : Nat) : Keeps a (State.sendEvents s mask) := by
  simp +contextual (maxDischargeDepth := 99) [State.sendEvents, h]

@[simp] theorem keeps_spanCopied {a s : State} (h : Keeps a s) (j : Nat) : Keeps a (State.spanCopied s j) := by
  simp (maxDischargeDepth := 99) [State.spanCopied, h]

/-! ### CamSetup -/

@[simp] theorem keeps_writeStream {a s : State} (h : Keeps a s) (k : Nat) (v : Nat) : Keeps a (State.writeStream s k v) := by
  simp (maxDischargeDepth := 99) [State.writeStream, h]

@[simp] theorem keeps_startFwd {a s : State} (h : Keeps a s) (c : Nat) (k : Nat) : Keeps a (State.startFwd s c k).1 := by
  unfold State.startFwd
  extract_lets before g
  clear_value before g
  split
  · exact h
  · split
    · exact h
    · split
      · simp [h]
      · exact h
      · extract_lets t
        have k : Keeps a t := keeps_lp5Wake (keeps_setDomain (keeps_modChannel (keeps_modSlot (keeps_setNum h _ _ _) _ _) _ _) _ _) _
        clear_value t
        simp [k]

@[simp] theorem keeps_stopFwd {a s : State} (h : Keeps a s) (k : Nat) : Keeps a (State.stopFwd s k) := by
  unfold State.stopFwd
  dsimp only
  (repeat' split) <;> simp +contextual (maxDischargeDepth := 99) [h]

@[simp] theorem keeps_writeCam {a s : State} (h : Keeps a s) (c : Nat) (p : Nat) (b : Nat) (sub : Nat) (x : Val) : Keeps a (State.writeCam s c p b sub x).1 := by
  unfold State.writeCam
  dsimp only
  (repeat' split) <;> simp +contextual (maxDischargeDepth := 99) [h]

/-! ### Hosts -/

@[simp] theorem keeps_linkDown {a s : State} (h : Keeps a s) (p : Nat) : Keeps a (State.linkDown s p) := by
  unfold State.linkDown
  extract_lets t u
  have k : Keeps a t := keeps_modPort h _ _
  have k2 : Keeps a u := k.upd id id id id (fun q => queuesOk_map q (fun p => by split <;> rfl) (fun p hp => by split <;> exact hp)) id id id
  exact keeps_lineOn (keeps_raise k2 _ _) _ _

@[simp] theorem keeps_linkUp {a s : State} (h : Keeps a s) (p : Nat) (lanes : Nat) (speed : Nat) : Keeps a (State.linkUp s p lanes speed) := by
  simp (maxDischargeDepth := 99) [State.linkUp, h]

@[simp] theorem keeps_retrain {a s : State} (h : Keeps a s) (p : Nat) (lanes : Nat) (speed : Nat) : Keeps a (State.retrain s p lanes speed) := by
  simp (maxDischargeDepth := 99) [State.retrain, h]

@[simp] theorem keeps_assertPerst {a s : State} (h : Keeps a s) (p : Nat) : Keeps a (State.assertPerst s p) := by
  simp (maxDischargeDepth := 99) [State.assertPerst, h]

@[simp] theorem keeps_deassertPerst {a s : State} (h : Keeps a s) (p : Nat) : Keeps a (State.deassertPerst s p) := by
  simp (maxDischargeDepth := 99) [State.deassertPerst, h]

@[simp] theorem keeps_changeVfs {a s : State} (h : Keeps a s) (p : Nat) (enable : Bool) (numVfs : Nat) : Keeps a (State.changeVfs s p enable numVfs) := by
  simp (maxDischargeDepth := 99) [State.changeVfs, h]

@[simp] theorem keeps_apertureRead {a s : State} (h : Keeps a s) (c : Nat) (offset : Nat) (n : Nat) (bad : Option (Bool × Nat)) : Keeps a (State.apertureRead s c offset n bad) := by
  unfold State.apertureRead
  dsimp only
  (repeat' split) <;> simp +contextual (maxDischargeDepth := 99) [h]

@[simp] theorem keeps_apertureWrite {a s : State} (h : Keeps a s) (c : Nat) (offset : Nat) (data : List Byte) : Keeps a (State.apertureWrite s c offset data) := by
  simp (maxDischargeDepth := 99) [State.apertureWrite, h]

@[simp] theorem keeps_xltInvalidate {a s : State} (h : Keeps a s) (c : Nat) : Keeps a (State.xltInvalidate s c) := by
  simp (maxDischargeDepth := 99) [State.xltInvalidate, h]

@[simp] theorem keeps_xltDone {a s : State} (h : Keeps a s) (c : Nat) : Keeps a (State.xltDone s c) := by
  simp (maxDischargeDepth := 99) [State.xltDone, h]

@[simp] theorem keeps_cplTimeout {a s : State} (h : Keeps a s) (p : Nat) (reader : Option BusError) : Keeps a (State.cplTimeout s p reader) := by
  unfold State.cplTimeout
  (repeat' split) <;> simp +contextual (maxDischargeDepth := 99) [h]

/-! ### Reading -/

@[simp] theorem keeps_capture {a s : State} (h : Keeps a s) (c : Nat) (token : Nat) : Keeps a (State.capture s c token) := by
  simp (maxDischargeDepth := 99) [State.capture, h]

@[simp] theorem keeps_readObj {a s : State} (h : Keeps a s) (c : Nat) (i : Nat) (sub : Nat) : Keeps a (State.readObj s c i sub).1 := by
  unfold State.readObj
  (repeat' split) <;> simp +contextual (maxDischargeDepth := 99) [h]

/-! ### Writing -/

@[simp] theorem keeps_confirmedWrite {a s : State} (h : Keeps a s) (index : Nat) (v : Nat) : Keeps a (State.confirmedWrite s index v).1 := by
  unfold State.confirmedWrite
  (repeat' split) <;> simp +contextual (maxDischargeDepth := 99) [h]

@[simp] theorem keeps_confirmWrite {a s : State} (h : Keeps a s) (attempt : Option Confirm) (index : Nat) (sub : Nat) (data : List Byte) : Keeps a (State.confirmWrite s attempt index sub data).1 := by
  unfold State.confirmWrite
  dsimp only
  split
  · rename_i k r _
    split
    · have q := keeps_confirmedWrite h index k.value
      split <;> (rename_i heq; rw [heq] at q; exact q)
    · exact h
  · exact h

@[simp] theorem keeps_commitWrite {a s : State} (h : Keeps a s) (c : Nat) (mask : Nat) (linked : Bool) : Keeps a (State.commitWrite s c mask linked).1 := by
  simp (maxDischargeDepth := 99) [State.commitWrite, h]

@[simp] theorem keeps_commitLinked {a s : State} (h : Keeps a s) (c : Nat) (n : Nat) (mask : Nat) : Keeps a (State.commitLinked s c n mask).1 := by
  unfold State.commitLinked
  (repeat' split) <;> simp +contextual (maxDischargeDepth := 99) [h]

@[simp] theorem keeps_writeLane {a s : State} (h : Keeps a s) (c : Nat) (n : Nat) (b : Nat) (r : ObjRow) (v : Val) : Keeps a (State.writeLane s c n b r v).1 := by
  unfold State.writeLane
  (repeat' split) <;> simp +contextual (maxDischargeDepth := 99) [h]

@[simp] theorem keeps_writeCrewObj {a s : State} (h : Keeps a s) (c : Nat) (w : Nat) (row : Nat) (sub : Nat) (v : Val) : Keeps a (State.writeCrewObj s c w row sub v).1 := by
  unfold State.writeCrewObj
  (repeat' split) <;> simp +contextual (maxDischargeDepth := 99) [h]

@[simp] theorem keeps_writeFixed {a s : State} (h : Keeps a s) (c : Nat) (index : Nat) (sub : Nat) (v : Val) : Keeps a (State.writeFixed s c index sub v).1 := by
  unfold State.writeFixed
  split
  · simp (maxDischargeDepth := 99) [h]
  · split <;> simp [h]
  · simp [h]
  · have q := keeps_provisioned h (valContent v)
    split <;> (rename_i heq; rw [heq] at q; exact q)
  · simp (maxDischargeDepth := 99) [h]
  · simp [h]
  · simp [h]

@[simp] theorem keeps_putObj {a s : State} (h : Keeps a s) (c : Nat) (index : Nat) (r : ObjRow) (v : Val) : Keeps a (State.putObj s c index r v).1 := by
  unfold State.putObj
  extract_lets done
  have k (x : State × Option Abort) (hx : Keeps a x.1) : Keeps a (done x).1 := by
    obtain ⟨t, o⟩ := x
    cases o <;> exact hx
  (repeat' split) <;> simp (maxDischargeDepth := 99) [h, k]

@[simp] theorem keeps_putDefault {a s : State} (h : Keeps a s) (c : Nat) (index : Nat) (r : ObjRow) : Keeps a (State.putDefault s c index r) := by
  unfold State.putDefault
  (repeat' split) <;> simp +contextual (maxDischargeDepth := 99) [h]

@[simp] theorem keeps_restoreOne {a s : State} (h : Keeps a s) (c : Nat) (index : Nat) (r : ObjRow) : Keeps a (State.restoreOne s c index r) := by
  unfold State.restoreOne
  (repeat' split) <;> simp +contextual (maxDischargeDepth := 99) [h]

@[simp] theorem keeps_restoreIndex {a s : State} (h : Keeps a s) (c : Nat) (index : Nat) : Keeps a (State.restoreIndex s c index) := by
  simp +contextual (maxDischargeDepth := 99) [State.restoreIndex, h]

@[simp] theorem keeps_restoreCrew {a s : State} (h : Keeps a s) (c : Nat) (w : Nat) : Keeps a (State.restoreCrew s c w) := by
  simp +contextual (maxDischargeDepth := 99) [State.restoreCrew, h]

@[simp] theorem keeps_restoreOwn {a s : State} (h : Keeps a s) (c : Nat) : Keeps a (State.restoreOwn s c) := by
  simp +contextual (maxDischargeDepth := 99) [State.restoreOwn, h]

@[simp] theorem keeps_restoreLane {a s : State} (h : Keeps a s) (c : Nat) (n : Nat) : Keeps a (State.restoreLane s c n) := by
  simp +contextual (maxDischargeDepth := 99) [State.restoreLane, h]

@[simp] theorem keeps_restoreLayers {a s : State} (h : Keeps a s) (c : Nat) (crews : List Nat) : Keeps a (State.restoreLayers s c crews) := by
  simp +contextual (maxDischargeDepth := 99) [State.restoreLayers, h]

@[simp] theorem keeps_dropPins {a s : State} (h : Keeps a s) : Keeps a (State.dropPins s) := by
  simp (maxDischargeDepth := 99) [State.dropPins, h]

@[simp] theorem keeps_restoreCam {a s : State} (h : Keeps a s) (c : Nat) (p : Nat) : Keeps a (State.restoreCam s c p) := by
  simp +contextual (maxDischargeDepth := 99) [State.restoreCam, h]

@[simp] theorem keeps_restoreDevice {a s : State} (h : Keeps a s) (c : Nat) : Keeps a (State.restoreDevice s c) := by
  simp +contextual (maxDischargeDepth := 99) [State.restoreDevice, h]

@[simp] theorem keeps_restore {a s : State} (h : Keeps a s) (c : Nat) (code : Nat) : Keeps a (State.restore s c code).1 := by
  unfold State.restore
  (repeat' split) <;> simp +contextual (maxDischargeDepth := 99) [h]

@[simp] theorem keeps_restoreComm {a s : State} (h : Keeps a s) : Keeps a (State.restoreComm s) := by
  simp (maxDischargeDepth := 99) [State.restoreComm, h]

@[simp] theorem keeps_writeObj {a s : State} (h : Keeps a s) (c : Nat) (attempt : Option Confirm) (index : Nat) (sub : Nat) (offset : Nat) (data : List Byte) : Keeps a (State.writeObj s c attempt index sub offset data).1 := by
  unfold State.writeObj
  (repeat' split) <;> simp +contextual (maxDischargeDepth := 99) [h]

end Sys2Proof
end

