-- ==== Sys2Proof/Laws/KeepsRows.lean ====
section
/-! SUPPORT. One lemma for each function that changes the state: what it keeps (Laws/Keeps.lean). Here: requests and the commands. -/

set_option Elab.async false

namespace Sys2Proof

open Sys2Proof.Machine

/-! ### Requests -/

@[simp] theorem keeps_readRange {a s : State} (h : Keeps a s) (c : Nat) (r : ObjRow) (q : Req) : Keeps a (State.readRange s c r q).1 := by
  unfold State.readRange
  have k := keeps_readObj h c q.index q.sub
  split
  · rename_i heq
    rw [heq] at k
    exact k
  · rename_i heq
    rw [heq] at k
    dsimp only
    split <;> exact k

@[simp] theorem keeps_endAttempt {a s : State} (h : Keeps a s) (c : Nat) : Keeps a (State.endAttempt s c) := by
  simp (maxDischargeDepth := 99) [State.endAttempt, h]

@[simp] theorem keeps_carryOut {a s : State} (h : Keeps a s) (c : Nat) (cmd : Nat) (attempt : Option Confirm) (q : Req) : Keeps a (State.carryOut s c cmd attempt q).1 := by
  unfold State.carryOut
  split
  · exact h
  · split
    · have w := keeps_writeObj h c attempt q.index q.sub q.offset q.data
      split <;> (rename_i heq; rw [heq] at w; exact w)
    · split
      · exact h
      · split
        · exact h
        · split
          · exact h
          · exact keeps_readRange h _ _ _

@[simp] theorem keeps_serve {a s : State} (h : Keeps a s) (via : Via) (c : Nat) (cmd : Nat) (deny : Bool) (q : Req) : Keeps a (State.serve s via c cmd deny q).1 := by
  unfold State.serve
  dsimp only
  (repeat' split) <;> simp +contextual (maxDischargeDepth := 99) [h]

@[simp] theorem keeps_afterAll {a s : State} (h : Keeps a s) (rs : List (Req × Rsp)) : Keeps a (State.afterAll s rs) := by
  simp (maxDischargeDepth := 99) [State.afterAll, h]

@[simp] theorem keeps_drop {a s : State} (h : Keeps a s) (n : Nat) (x2 : Via) : Keeps a (State.drop s n x2) := by
  unfold State.drop
  (repeat' split) <;> simp +contextual (maxDischargeDepth := 99) [h]

@[simp] theorem keeps_admitRequests {a s : State} (h : Keeps a s) (via : Via) (n : Nat) : Keeps a (State.admitRequests s via n).1 := by
  unfold State.admitRequests
  dsimp only
  (repeat' split) <;> simp +contextual (maxDischargeDepth := 99) [h]

@[simp] theorem keeps_canSend {a s : State} (h : Keeps a s) (k : Nat) (client : Nat) (node : Nat) (bs : List Byte) : Keeps a (State.canSend s k client node bs) := by
  simp (maxDischargeDepth := 99) [State.canSend, h]

@[simp] theorem keeps_canRsp {a s : State} (h : Keeps a s) (k : Nat) (client : Nat) (q : Req) (code : Nat) (data : List Byte) : Keeps a (State.canRsp s k client q code data) := by
  simp (maxDischargeDepth := 99) [State.canRsp, h]

@[simp] theorem keeps_canRequest {a s : State} (h : Keeps a s) (k : Nat) (client : Nat) (cmd : Nat) (q : Req) : Keeps a (State.canRequest s k client cmd q) := by
  unfold State.canRequest
  extract_lets via
  have hk := keeps_admitRequests h via 1
  generalize s.admitRequests via 1 = p at hk
  obtain ⟨s1, taken⟩ := p
  dsimp only at hk ⊢
  split
  · exact hk
  · split
    · exact keeps_canRsp (keeps_endAttempt hk _) _ _ _ _ _
    · rename_i data _
      have w := keeps_serve hk via (s1.canCrew k) cmd false { q with data := data, offset := 0, length := 0 }
      split
      · rename_i heq
        rw [heq] at w
        exact w
      · rename_i heq
        rw [heq] at w
        exact keeps_ite.2 ⟨fun _ => w, fun _ => keeps_afterAll (keeps_canRsp w _ _ _ _ _) _⟩

@[simp] theorem keeps_segSend {a s : State} (h : Keeps a s) (k : Nat) (client : Nat) (node : Nat) (cmd : Nat) (tag : Nat) (seq : Nat) (data : List Byte) : Keeps a (State.segSend s k client node cmd tag seq data) := by
  simp (maxDischargeDepth := 99) [State.segSend, h]

@[simp] theorem keeps_segAbort {a s : State} (h : Keeps a s) (k : Nat) (client : Nat) (node : Nat) (x : Segment) (a5 : Abort) : Keeps a (State.segAbort s k client node x a5) := by
  simp (maxDischargeDepth := 99) [State.segAbort, h]

@[simp] theorem keeps_segReplace {a s : State} (h : Keeps a s) (k : Nat) (client : Nat) (node : Nat) : Keeps a (State.segReplace s k client node) := by
  unfold State.segReplace
  (repeat' split) <;> simp +contextual (maxDischargeDepth := 99) [h]

@[simp] theorem keeps_segPump {a s : State} (h : Keeps a s) (k : Nat) (client : Nat) (node : Nat) (x : Segment) (x5 : Nat) : Keeps a (State.segPump s k client node x x5) := by
  induction x5 generalizing s x with
  | zero => exact h.upd id id id id id id id id
  | succ n ih =>
    unfold State.segPump
    split
    · exact h.upd id id id id id id id id
    · exact ih (keeps_segSend h _ _ _ _ _ _ _) _

@[simp] theorem keeps_segRead {a s : State} (h : Keeps a s) (k : Nat) (client : Nat) (q : Req) : Keeps a (State.segRead s k client q) := by
  unfold State.segRead
  extract_lets via
  have hk := keeps_admitRequests h via 1
  generalize s.admitRequests via 1 = p at hk
  obtain ⟨s1, taken⟩ := p
  dsimp only at hk ⊢
  split
  · exact hk
  · have hk2 : Keeps a (if s1.planned then s1.segReplace k client q.node else s1) :=
      keeps_ite.2 ⟨fun _ => keeps_segReplace hk _ _ _, fun _ => hk⟩
    generalize (if s1.planned then s1.segReplace k client q.node else s1) = s2 at hk2
    have w := keeps_serve hk2 via (s2.canCrew k) 1 false { q with offset := 0, length := 0 }
    split
    · rename_i heq
      rw [heq] at w
      exact w
    · rename_i heq
      rw [heq] at w
      exact keeps_segPump (keeps_canRsp w _ _ _ _ _) _ _ _ _ _
    · rename_i heq
      rw [heq] at w
      exact keeps_canRsp w _ _ _ _ _

@[simp] theorem keeps_segWrite {a s : State} (h : Keeps a s) (k : Nat) (client : Nat) (q : Req) : Keeps a (State.segWrite s k client q) := by
  simp (maxDischargeDepth := 99) [State.segWrite, h]

@[simp] theorem keeps_segFinish {a s : State} (h : Keeps a s) (k : Nat) (client : Nat) (node : Nat) (x : Segment) (data : List Byte) : Keeps a (State.segFinish s k client node x data) := by
  unfold State.segFinish
  extract_lets q t
  have hk : Keeps a t := h.upd id id id id id id id id
  clear_value t
  have w := keeps_serve hk (.can k client) (t.canCrew k) 2 false q
  split
  · rename_i heq
    rw [heq] at w
    exact w
  · rename_i heq
    rw [heq] at w
    exact keeps_ite.2 ⟨fun _ => w, fun _ => keeps_afterAll (keeps_canRsp w _ _ _ _ _) _⟩

@[simp] theorem keeps_segFrame {a s : State} (h : Keeps a s) (k client node tag : Nat) (dir : Bool) (f : State → State)
    (hf : ∀ t, Keeps a t → Keeps a (f t)) : Keeps a (State.segFrame s k client node tag dir f) := by
  unfold State.segFrame
  have hk := keeps_admitRequests h (.can k client) 1
  generalize s.admitRequests (.can k client) 1 = p at hk
  obtain ⟨s1, taken⟩ := p
  dsimp only at hk ⊢
  exact keeps_ite.2 ⟨fun _ => hk, fun _ => keeps_ite.2 ⟨fun _ => keeps_canRsp hk _ _ _ _ _, fun _ =>
    keeps_ite.2 ⟨fun _ => keeps_canRsp hk _ _ _ _ _, fun _ => hf _ hk⟩⟩⟩

@[simp] theorem keeps_segData {a s : State} (h : Keeps a s) (k : Nat) (client : Nat) (node : Nat) (tag : Nat) (seq : Nat) (data : List Byte) : Keeps a (State.segData s k client node tag seq data) := by
  unfold State.segData
  (repeat' split) <;> simp +contextual (maxDischargeDepth := 99) [h]

@[simp] theorem keeps_segAck {a s : State} (h : Keeps a s) (k : Nat) (client : Nat) (node : Nat) (tag : Nat) (seq : Nat) : Keeps a (State.segAck s k client node tag seq) := by
  unfold State.segAck
  (repeat' split) <;> simp +contextual (maxDischargeDepth := 99) [h]

@[simp] theorem keeps_segCancel {a s : State} (h : Keeps a s) (k : Nat) (client : Nat) (node : Nat) (tag : Nat) : Keeps a (State.segCancel s k client node tag) := by
  unfold State.segCancel
  (repeat' split) <;> simp +contextual (maxDischargeDepth := 99) [h]

@[simp] theorem keeps_segTimeout {a s : State} (h : Keeps a s) (k : Nat) (client : Nat) (node : Nat) : Keeps a (State.segTimeout s k client node) := by
  unfold State.segTimeout
  (repeat' split) <;> simp +contextual (maxDischargeDepth := 99) [h]

@[simp] theorem keeps_serveAll {a s : State} (h : Keeps a s) (via : Via) (c : Nat) (allow : Bool) (x4 : List (Nat × Req)) : Keeps a (State.serveAll s via c allow x4).1 := by
  induction x4 generalizing s with
  | nil => exact h
  | cons p rest ih =>
    obtain ⟨cmd, q⟩ := p
    exact ih (keeps_serve h _ _ _ _ _)

@[simp] theorem keeps_serveMessage {a s : State} (h : Keeps a s) (via : Via) (c : Nat) (allow : Bool) (es : List (Nat × Req)) : Keeps a (State.serveMessage s via c allow es).1 := by
  unfold State.serveMessage
  (repeat' split) <;> simp +contextual (maxDischargeDepth := 99) [h]

@[simp] theorem keeps_udpServe {a s : State} (h : Keeps a s) (k : Nat) (ip : Nat) (port : Nat) (es : List (Nat × Req)) : Keeps a (State.udpServe s k ip port es) := by
  unfold State.udpServe
  dsimp only
  (repeat' split) <;> simp +contextual (maxDischargeDepth := 99) [h]

@[simp] theorem keeps_udpTake {a s : State} (h : Keeps a s) (k : Nat) (ip : Nat) (port : Nat) (payload : List Byte) : Keeps a (State.udpTake s k ip port payload) := by
  unfold State.udpTake
  (repeat' split) <;> simp +contextual (maxDischargeDepth := 99) [h]

@[simp] theorem keeps_mbxFinish {a s : State} (h : Keeps a s) (c : Nat) : Keeps a (State.mbxFinish s c) := by
  simp (maxDischargeDepth := 99) [State.mbxFinish, h]

@[simp] theorem keeps_mbxServe {a s : State} (h : Keeps a s) (c : Nat) (es : List (Nat × Req)) : Keeps a (State.mbxServe s c es) := by
  unfold State.mbxServe
  dsimp only
  (repeat' split) <;> simp +contextual (maxDischargeDepth := 99) [h]

@[simp] theorem keeps_mbxGo {a s : State} (h : Keeps a s) (c : Nat) : Keeps a (State.mbxGo s c) := by
  unfold State.mbxGo
  dsimp only
  (repeat' split) <;> simp +contextual (maxDischargeDepth := 99) [h]

@[simp] theorem keeps_mbxWrite {a s : State} (h : Keeps a s) (c : Nat) (offset : Nat) (v : Nat) : Keeps a (State.mbxWrite s c offset v) := by
  simp (maxDischargeDepth := 99) [State.mbxWrite, h]

@[simp] theorem keeps_request1 {a s : State} (h : Keeps a s) (cmd : Nat) (via : Via) (q : Req) : Keeps a (State.request1 s cmd via q) := by
  unfold State.request1
  (repeat' split) <;> simp +contextual (maxDischargeDepth := 99) [h]

@[simp] theorem keeps_answerNow {a s : State} (h : Keeps a s) (x1 : Via) : Keeps a (State.answerNow s x1) := by
  unfold State.answerNow
  (repeat' split) <;> simp +contextual (maxDischargeDepth := 99) [h]

@[simp] theorem keeps_forwardFails {a s : State} (h : Keeps a s) (node : Nat) : Keeps a (State.forwardFails s node) := by
  unfold State.forwardFails
  (repeat' split) <;> simp +contextual (maxDischargeDepth := 99) [h]

/-! ### RegView -/

@[simp] theorem keeps_readReg {a s : State} (h : Keeps a s) (m : Master) (crew : Nat) (r : Reg) : Keeps a (State.readReg s m crew r).1 := by
  unfold State.readReg
  dsimp only
  split
  · split
    · exact keeps_modCrew h _ _ (fun k q => by simp; omega)
    · exact h
  · split
    · exact h.upd id id id id id id id id
    · split
      · exact keeps_used h
      · exact h

/-! ### Registers -/

@[simp] theorem keeps_unimpl {a s : State} (h : Keeps a s) (acc : Acc) (write : Bool) (part : Bool) (shape : Bool) : Keeps a (State.unimpl s acc write part shape) := by
  simp (maxDischargeDepth := 99) [State.unimpl, h]

@[simp] theorem keeps_accessEnds {a s : State} (h : Keeps a s) (acc : Acc) (domain : Option Nat) (syndrome : Nat) : Keeps a (State.accessEnds s acc domain syndrome) := by
  simp (maxDischargeDepth := 99) [State.accessEnds, h]

@[simp] theorem keeps_keyAbort {a s : State} (h : Keeps a s) (page : Nat) (m : Master) (crew : Nat) (addr : Nat) (reason : Nat) : Keeps a (State.keyAbort s page m crew addr reason) := by
  simp (maxDischargeDepth := 99) [State.keyAbort, h]

@[simp] theorem keeps_disturb {a s : State} (h : Keeps a s) (page : Nat) (reason : Nat) : Keeps a (State.disturb s page reason) := by
  unfold State.disturb
  (repeat' split) <;> simp +contextual (maxDischargeDepth := 99) [h]

@[simp] theorem keeps_expireKey {a s : State} (h : Keeps a s) (page : Nat) : Keeps a (State.expireKey s page) := by
  unfold State.expireKey
  (repeat' split) <;> simp +contextual (maxDischargeDepth := 99) [h]

@[simp] theorem keeps_wakeFor {a s : State} (h : Keeps a s) (d : Option Nat) : Keeps a (State.wakeFor s d) := by
  unfold State.wakeFor
  (repeat' split) <;> simp +contextual (maxDischargeDepth := 99) [h]

@[simp] theorem keeps_pvCheck {a s : State} (h : Keeps a s) (acc : Acc) (r : Reg) (v : Nat) : Keeps a (State.pvCheck s acc r v) := by
  simp (maxDischargeDepth := 99) [State.pvCheck, h]

@[simp] theorem keeps_writeBack {a s : State} (h : Keeps a s) (acc : Acc) (r : Reg) (v : Nat) : Keeps a (State.writeBack s acc r v) := by
  simp (maxDischargeDepth := 99) [State.writeBack, h]

@[simp] theorem keeps_keyEffect {a s : State} (h : Keeps a s) (r : Reg) (v : Nat) : Keeps a (State.keyEffect s r v) := by
  unfold State.keyEffect
  (repeat' split) <;> simp +contextual (maxDischargeDepth := 99) [h]

@[simp] theorem keeps_keyA {a s : State} (h : Keeps a s) (acc : Acc) (page : Nat) (v : Nat) : Keeps a (State.keyA s acc page v) := by
  simp (maxDischargeDepth := 99) [State.keyA, h]

@[simp] theorem keeps_keyB {a s : State} (h : Keeps a s) (acc : Acc) (page : Nat) (v : Nat) : Keeps a (State.keyB s acc page v) := by
  unfold State.keyB
  (repeat' split) <;> simp +contextual (maxDischargeDepth := 99) [h]

@[simp] theorem keeps_putField {a s : State} (h : Keeps a s) (f : RegField) (c : Nat) : Keeps a (State.putField s f c).1 := by
  unfold State.putField
  dsimp only
  (repeat' split) <;> simp +contextual (maxDischargeDepth := 99) [h]

@[simp] theorem keeps_putFields {a s : State} (h : Keeps a s) (r : Reg) (v : Nat) (x3 : List RegField) : Keeps a (State.putFields s r v x3).1 := by
  induction x3 generalizing s with
  | nil => exact h
  | cons f rest ih =>
    unfold State.putFields
    split
    · exact ih h
    · exact ih (keeps_putField h _ _)

@[simp] theorem keeps_putCam {a s : State} (h : Keeps a s) (p : Nat) (f : RegField) (c : Nat) : Keeps a (State.putCam s p f c).1 := by
  unfold State.putCam
  extract_lets held v
  clear_value held v
  split
  · exact h
  · split
    · exact h
    · have k := keeps_writeCam h 0 p (f.index % 256) f.sub (.num v)
      split
      · rename_i heq
        rw [heq] at k
        exact k
      · exact h

@[simp] theorem keeps_camWrite {a s : State} (h : Keeps a s) (p : Nat) (r : Reg) (v : Nat) : Keeps a (State.camWrite s p r v) := by
  unfold State.camWrite
  extract_lets fs isOn ordered
  have k : Keeps a (ordered.foldl (fun (x : State × Bool) f =>
    match x.1.wanted r v f with
    | none => x
    | some c => let (u, good) := x.1.putCam p f c; (u, x.2 && good)) (s, true)).1 := by
    refine keeps_foldl_fst (fun q f hq => ?_) _ h
    split
    · exact hq
    · exact keeps_putCam hq _ _ _
  generalize (ordered.foldl (fun (x : State × Bool) f =>
    match x.1.wanted r v f with
    | none => x
    | some c => let (u, good) := x.1.putCam p f c; (u, x.2 && good)) (s, true)) = q at k
  exact keeps_ite.2 ⟨fun _ => k, fun _ => keeps_raise k _ _⟩

@[simp] theorem keeps_photoWrite {a s : State} (h : Keeps a s) (r : Reg) (v : Nat) : Keeps a (State.photoWrite s r v) := by
  simp (maxDischargeDepth := 99) [State.photoWrite, h]

@[simp] theorem keeps_laneCommit {a s : State} (h : Keeps a s) (n : Nat) (v : Nat) : Keeps a (State.laneCommit s n v) := by
  simp (maxDischargeDepth := 99) [State.laneCommit, h]

@[simp] theorem keeps_swLines {a s : State} (h : Keeps a s) (v : Nat) : Keeps a (State.swLines s v) := by
  simp +contextual (maxDischargeDepth := 99) [State.swLines, h]

@[simp] theorem keeps_countsSnapshot {a s : State} (h : Keeps a s) : Keeps a (State.countsSnapshot s) := by
  simp (maxDischargeDepth := 99) [State.countsSnapshot, h]

@[simp] theorem keeps_msixUnmask {a s : State} (h : Keeps a s) (c : Nat) : Keeps a (State.msixUnmask s c) := by
  simp (maxDischargeDepth := 99) [State.msixUnmask, h]

@[simp] theorem keeps_crewCommand {a s : State} (h : Keeps a s) (c : Nat) (o : Nat) (v : Nat) : Keeps a (State.crewCommand s c o v) := by
  unfold State.crewCommand
  (repeat' split) <;> simp +contextual (maxDischargeDepth := 99) [h]

@[simp] theorem keeps_command {a s : State} (h : Keeps a s) (crew : Nat) (r : Reg) (v : Nat) : Keeps a (State.command s crew r v) := by
  unfold State.command
  (repeat' split) <;> simp +contextual (maxDischargeDepth := 99) [h]

@[simp] theorem keeps_controls {a s : State} (h : Keeps a s) (k : Nat) (v : Nat) : Keeps a (State.controls s k v) := by
  simp (maxDischargeDepth := 99) [State.controls, h]

@[simp] theorem keeps_channelWrite {a s : State} (h : Keeps a s) (r : Reg) (v : Nat) : Keeps a (State.channelWrite s r v) := by
  simp (maxDischargeDepth := 99) [State.channelWrite, h]

@[simp] theorem keeps_plainWrite {a s : State} (h : Keeps a s) (r : Reg) (v : Nat) : Keeps a (State.plainWrite s r v) := by
  unfold State.plainWrite
  (repeat' split) <;> simp +contextual (maxDischargeDepth := 99) [h]

@[simp] theorem keeps_viewWrite {a s : State} (h : Keeps a s) (r : Reg) (v : Nat) : Keeps a (State.viewWrite s r v) := by
  unfold State.viewWrite
  (repeat' split) <;> simp +contextual (maxDischargeDepth := 99) [h]

@[simp] theorem keeps_writeReg {a s : State} (h : Keeps a s) (acc : Acc) (r : Reg) (v : Nat) : Keeps a (State.writeReg s acc r v) := by
  unfold State.writeReg
  (repeat' split) <;> simp +contextual (maxDischargeDepth := 99) [h]

@[simp] theorem keeps_writeAccess {a s : State} (h : Keeps a s) (acc : Acc) (v : Nat) : Keeps a (State.writeAccess s acc v) := by
  unfold State.writeAccess
  dsimp only
  (repeat' split) <;> simp +contextual (maxDischargeDepth := 99) [h]

@[simp] theorem keeps_readAccess {a s : State} (h : Keeps a s) (acc : Acc) : Keeps a (State.readAccess s acc).1 := by
  unfold State.readAccess
  dsimp only
  (repeat' split) <;> simp +contextual (maxDischargeDepth := 99) [h]

@[simp] theorem keeps_answerRead {a s : State} (h : Keeps a s) (acc : Acc) (v : Option Nat) : Keeps a (State.answerRead s acc v) := by
  unfold State.answerRead
  (repeat' split) <;> simp +contextual (maxDischargeDepth := 99) [h]

@[simp] theorem keeps_writeWide {a s : State} (h : Keeps a s) (acc : Acc) (v : Nat) (hi : Option Nat) : Keeps a (State.writeWide s acc v hi) := by
  unfold State.writeWide
  (repeat' split) <;> simp +contextual (maxDischargeDepth := 99) [h]

@[simp] theorem keeps_readWide {a s : State} (h : Keeps a s) (acc : Acc) (size : Nat) : Keeps a (State.readWide s acc size).1 := by
  unfold State.readWide
  dsimp only
  (repeat' split) <;> simp +contextual (maxDischargeDepth := 99) [h]

@[simp] theorem keeps_spiReads {a s : State} (h : Keeps a s) (addr : Nat) : Keeps a (State.spiReads s addr) := by
  simp (maxDischargeDepth := 99) [State.spiReads, h]

@[simp] theorem keeps_spiWrites {a s : State} (h : Keeps a s) (addr : Nat) (v : Nat) : Keeps a (State.spiWrites s addr v) := by
  simp (maxDischargeDepth := 99) [State.spiWrites, h]

@[simp] theorem keeps_endsEmpty {a s : State} (h : Keeps a s) (t : State) (acc : Acc) (write : Bool) (flags : Nat) : Keeps a (State.endsEmpty s t acc write flags) := by
  unfold State.endsEmpty
  (repeat' split) <;> simp +contextual (maxDischargeDepth := 99) [h]

@[simp] theorem keeps_endIrregular {a s : State} (h : Keeps a s) (acc : Acc) (write : Bool) (size : Nat) (enables : Nat) : Keeps a (State.endIrregular s acc write size enables) := by
  simp (maxDischargeDepth := 99) [State.endIrregular, h]

@[simp] theorem keeps_stalls {a s : State} (h : Keeps a s) (acc : Acc) (write : Bool) : Keeps a (State.stalls s acc write) := by
  unfold State.stalls
  simp +contextual (maxDischargeDepth := 99) [h]

/-! ### RegisterRows -/

@[simp] theorem keeps_dualKey {a s : State} (h : Keeps a s) (acc : Acc) (v : Nat) : Keeps a (State.dualKey s acc v) := by
  simp (maxDischargeDepth := 99) [State.dualKey, h]

@[simp] theorem keeps_controlWrite {a s : State} (h : Keeps a s) (acc : Acc) (bit : Nat) : Keeps a (State.controlWrite s acc bit) := by
  unfold State.controlWrite
  split <;> simp (maxDischargeDepth := 99) [h]

/-! ### CommitRows -/

@[simp] theorem keeps_readFence {a s : State} (h : Keeps a s) (k : Commit) : Keeps a (State.readFence s k) := by
  unfold State.readFence
  have k0 : Keeps a (k.fences.foldl (fun (x : State × List Fence) f =>
    let (u, v) := x.1.fenceValue k.crew f.host f.addr
    (u, x.2 ++ [{ f with met := v.any (fun n => decide (f.target ≤ n)) }])) (s, [])).1 :=
    keeps_foldl_fst (fun q f hq => by exact keeps_fenceValue hq k.crew f.host f.addr) _ h
  generalize (k.fences.foldl (fun (x : State × List Fence) f =>
    let (u, v) := x.1.fenceValue k.crew f.host f.addr
    (u, x.2 ++ [{ f with met := v.any (fun n => decide (f.target ≤ n)) }])) (s, [])) = q at k0
  obtain ⟨t, fs⟩ := q
  dsimp only at k0 ⊢
  have k1 : Keeps a { t with commits := t.commits.map (fun x => if x.seq = k.seq then { x with fences := fs, eligible := fs.all Fence.met } else x) } :=
    k0.upd id id id id id id id id
  exact keeps_ite.2 ⟨fun _ => k1, fun _ => keeps_ite.2 ⟨fun _ => keeps_applyCommit k1 _,
    fun _ => keeps_foldl (fun t n ht => keeps_porchCatch ht n) _ k1⟩⟩

@[simp] theorem keeps_readFences {a s : State} (h : Keeps a s) (n : Nat) : Keeps a (State.readFences s n) := by
  simp +contextual (maxDischargeDepth := 99) [State.readFences, h]

@[simp] theorem keeps_handOver {a s : State} (h : Keeps a s) (n : Nat) : Keeps a (State.handOver s n) := by
  simp (maxDischargeDepth := 99) [State.handOver, h]

/-! ### LaneRows -/

@[simp] theorem keeps_porchMin {a s : State} (h : Keeps a s) (n : Nat) : Keeps a (State.porchMin s n) := by
  simp (maxDischargeDepth := 99) [State.porchMin, h]

/-! ### PortRows -/

@[simp] theorem keeps_hpdRises {a s : State} (h : Keeps a s) (n : Nat) : Keeps a (State.hpdRises s n) := by
  simp (maxDischargeDepth := 99) [State.hpdRises, h]

/-! ### ModeRows -/

@[simp] theorem keeps_settled {a s : State} (h : Keeps a s) (d : Nat) : Keeps a (State.settled s d) := by
  simp (maxDischargeDepth := 99) [State.settled, h]

@[simp] theorem keeps_idleOff {a s : State} (h : Keeps a s) (d : Nat) : Keeps a (State.idleOff s d) := by
  simp +contextual (maxDischargeDepth := 99) [State.idleOff, h]

/-! ### A command as a whole -/

/-- A command answers a next state, which keeps what its effect keeps. -/
theorem keeps_happen {dt : Nat} {ready : State → Bool} {eff : State → State} {s : State}
    (h : ready (s.tick dt) = true → Keeps (s.tick dt) (eff (s.tick dt))) :
    ∃ t, happen dt ready eff s = .next t ∧ Keeps (s.tick dt) t := by
  unfold happen
  split
  · exact ⟨_, rfl, h ‹_›⟩
  · exact ⟨_, rfl, Keeps.refl _⟩

/-- A lane's own event, after what was due on its lane (07 R192). -/
theorem keeps_happenOn {dt n : Nat} {ready : State → Bool} {eff : State → State} {s : State}
    (h : ready (s.meet dt n) = true → Keeps (s.tick dt) (eff (s.meet dt n))) :
    ∃ t, happenOn dt n ready eff s = .next t ∧ Keeps (s.tick dt) t :=
  keeps_happen (fun hr => h (Bool.and_eq_true _ _ ▸ hr).2)

end Sys2Proof
end

