-- ==== Sys2Proof/Laws/OnlyLane.lean ====
section
/-! SUPPORT. The frame of a lane's own events: each operation on lane `n` keeps everything outside it. -/

set_option Elab.async false

namespace Sys2Proof

open Sys2Proof.Machine

variable {n : Nat} {a s : State}


/-- Nothing changed. -/
theorem OnlyLane.rfl' : OnlyLane n a a := by constructor <;> intros <;> rfl

/-- Time passes. -/
theorem OnlyLane.tick (dt : Nat) : OnlyLane n a (a.tick dt) := by constructor <;> intros <;> rfl

/-- The lane itself changes. -/
theorem OnlyLane.modLane (h : OnlyLane n a s) (f : Lane → Lane) : OnlyLane n a (s.modLane n f) := by
  obtain ⟨⟩ := h
  constructor <;> try assumption
  intro m hm
  rename_i hl
  rw [State.lane_modLane, if_neg (Ne.symm hm)]
  exact hl m hm

/-- Events are raised. -/
theorem OnlyLane.raise (h : OnlyLane n a s) (r : Nat) (bs : List Nat) : OnlyLane n a (s.raise r bs) := by obtain ⟨⟩ := h; constructor <;> assumption

/-- A counter counts. -/
theorem OnlyLane.count (h : OnlyLane n a s) (r k : Nat) : OnlyLane n a (s.count r k) := by obtain ⟨⟩ := h; constructor <;> assumption

/-- The device sends. -/
theorem OnlyLane.send (h : OnlyLane n a s) (o : Out) : OnlyLane n a (s.send o) := by obtain ⟨⟩ := h; constructor <;> assumption

/-- A line falls. -/
theorem OnlyLane.lineOff (h : OnlyLane n a s) (k : Nat) : OnlyLane n a (s.lineOff k) := by obtain ⟨⟩ := h; constructor <;> assumption

/-- Frame memories change. -/
theorem OnlyLane.frames (h : OnlyLane n a s) (f : Tab Word) : OnlyLane n a { s with frames := f } := by obtain ⟨⟩ := h; constructor <;> assumption

/-- One change after another. -/
theorem OnlyLane.fold {α : Type} (xs : List α) (f : State → α → State) (hf : ∀ t x, OnlyLane n a t → OnlyLane n a (f t x)) :
    ∀ s, OnlyLane n a s → OnlyLane n a (xs.foldl f s) := by
  induction xs with
  | nil => exact fun _ h => h
  | cons x xs ih => exact fun s h => ih _ (hf s x h)

/-- Either of two changes. -/
theorem OnlyLane.ite {c : Prop} [Decidable c] {u v : State} (h : OnlyLane n a u) (g : OnlyLane n a v) : OnlyLane n a (if c then u else v) := by
  split <;> assumption


/-- The kept tiles of the last frame go. -/
theorem OnlyLane.dropKept (h : OnlyLane n a s) : OnlyLane n a (s.dropKept n) := by
  unfold State.dropKept; exact .ite h ((h.modLane _).frames _)

/-- Genlock at a frame start. -/
theorem OnlyLane.genlockFrame (h : OnlyLane n a s) : OnlyLane n a (s.genlockFrame n) := by
  unfold State.genlockFrame State.genlockLoss
  dsimp only
  (repeat' split) <;> first | exact h.modLane _ | exact h | exact (h.modLane _).raise _ _ | exact (h.raise _ _).modLane _

/-- A frame of the lane's layers without a change passes (05 R127). -/
theorem OnlyLane.quietCounts (h : OnlyLane n a s) : OnlyLane n a (s.quietCounts n) := by
  have key (ls : List Nat) (hl : ∀ l ∈ ls, a.lyr l 2 = n) : ∀ t, OnlyLane n a t → OnlyLane n a (ls.foldl (fun t l =>
      t.modLayer l (fun q => { q with quiet := if q.stirred then 0 else q.quiet + 1, stirred := false })) t) := by
    induction ls with
    | nil => exact fun _ g => g
    | cons l ls ih =>
      refine fun t g => ih (fun x hx => hl x (List.mem_cons_of_mem _ hx)) _ ?_
      have hq := g.quiet
      have hy := g.layers
      obtain ⟨⟩ := g
      constructor <;> try assumption
      · intro m hm
        rw [State.layer_modLayer, if_neg (fun e : l = m => hm (e ▸ hl l List.mem_cons_self))]
        exact hy m hm
      · intro m
        rw [State.layer_modLayer]
        split
        · rename_i e
          subst e
          have e2 := hq l
          generalize t.layer l = x at e2 ⊢
          generalize a.layer l = y at e2 ⊢
          cases x
          cases y
          simp only [Layer.mk.injEq] at e2 ⊢
          simp [e2]
        · exact hq m
  refine key _ (fun l hl => ?_) _ h
  have e : s.lyr l 2 = a.lyr l 2 := by simp only [State.lyr, State.num, State.obj, h.objs]
  rw [← e]
  unfold State.layersOn at hl
  have hm := mem_sortBy hl
  simp only [List.mem_map, List.mem_filter, Bool.and_eq_true, decide_eq_true_eq] at hm
  obtain ⟨p, ⟨_, _, hp⟩, rfl⟩ := hm
  exact hp

/-- The frequency that the last catch set takes effect (07 R191). -/
theorem OnlyLane.followStep (h : OnlyLane n a s) : OnlyLane n a (s.followStep n) := by
  unfold State.followStep
  exact .ite h (h.modLane _)

/-- The Picture Parameter Set is sent (08 R212). -/
theorem OnlyLane.sendPps (h : OnlyLane n a s) : OnlyLane n a (s.sendPps n) := by
  unfold State.sendPps
  exact .ite h (.ite (h.send _) (h.send _))

/-- The periodic deskew is sent (08 R203). -/
theorem OnlyLane.sendDeskew (h : OnlyLane n a s) : OnlyLane n a (s.sendDeskew n) := by
  unfold State.sendDeskew
  exact .ite ((h.send _).modLane _) h

/-- A frame goes out (07 R180, R197). -/
theorem OnlyLane.sendFrame (h : OnlyLane n a s) : OnlyLane n a (s.sendFrame n) := by
  unfold State.sendFrame
  exact .ite h ((OnlyLane.ite (.fold _ _ (fun t x g => g.send _) _ h.sendPps.sendDeskew) h.sendPps.sendDeskew).send _)

/-- A period of the backlight starts (08 R213). -/
theorem OnlyLane.pwmPeriod (h : OnlyLane n a s) : OnlyLane n a (s.pwmPeriod n) := by
  unfold State.pwmPeriod
  exact .ite (h.modLane _) ((h.modLane _).send _)

/-- Markers are sent. -/
theorem OnlyLane.sendMarkers (h : OnlyLane n a s) : OnlyLane n a (s.sendMarkers n) := by
  unfold State.sendMarkers
  exact .ite (.fold _ _ (fun t x g => .ite (g.send _) g) _ h) h

/-- A frame starts (07 R180). -/
theorem OnlyLane.beginFrame (h : OnlyLane n a s) (b : Bool) : OnlyLane n a (s.beginFrame n b) := by
  unfold State.beginFrame
  exact OnlyLane.sendMarkers (.ite (OnlyLane.pwmPeriod ((h.dropKept.genlockFrame.followStep.sendFrame.count _ _).quietCounts.modLane _))
    ((h.dropKept.genlockFrame.followStep.sendFrame.count _ _).quietCounts.modLane _))

/-- A link comes up (08 R206). -/
theorem OnlyLane.raiseLink (h : OnlyLane n a s) (r w : Nat) : OnlyLane n a (s.raiseLink n r w) := by
  unfold State.raiseLink; exact ((h.modLane _).raise _ _).lineOff _

end Sys2Proof
end

