-- ==== Sys2Proof/WellFormed.lean ====
section
/-! DEFINITION. Which commands are well formed: every operand that names a crew, a lane, a port, a channel and so on names
one the device has (02 R20, 04 R76, 07 R198, 09 R232, R252, 10 R265, R272, 12 R331, 14 R382). -/

namespace Sys2Proof

/-- Crew and address of a register access are in range (02 R20, 03 R53). -/
def Acc.wf (a : Acc) : Bool := decide (a.crew < 512) && decide (a.addr < 2 ^ 32)

/-- Transport numbers are in range (02 R36, R39, R45). -/
def Via.wf : Via → Bool
  | .can k client => decide (k < 2) && decide (client < 256)
  | .eth k _ _ => decide (k < 2)
  | .mailbox crew => decide (crew < 512)

/-- The fields of a request fit their encodings (02 R28, R40). -/
def Req.wf (r : Req) : Bool :=
  decide (r.node < 4) && decide (r.tag < 16) && decide (r.index < 0x1_0000) && decide (r.sub < 256)

/-- Every operand of the command is in its range. -/
def Instr.wf : Instr → Bool
  | .read _ via req => via.wf && req.wf
  | .write _ via req => via.wf && req.wf
  | .describe _ via req => via.wf && req.wf
  | .segReadInit _ k client req => decide (k < 2) && decide (client < 256) && req.wf
  | .segWriteInit _ k client req => decide (k < 2) && decide (client < 256) && req.wf
  | .segData _ k client dest tag _ _ => decide (k < 2) && decide (client < 256) && decide (dest.node < 4) && decide (tag < 16)
  | .segAck _ k client dest tag _ => decide (k < 2) && decide (client < 256) && decide (dest.node < 4) && decide (tag < 16)
  | .cancel _ k client dest tag => decide (k < 2) && decide (client < 256) && decide (dest.node < 4) && decide (tag < 16)
  | .segTimeout _ k client node => decide (k < 2) && decide (client < 256) && decide (node < 4)
  | .udpDatagram _ k _ _ _ => decide (k < 2)
  | .mbxGo _ crew _ => decide (crew < 512)
  | .mbxRequestBufferWrite _ crew _ _ => decide (crew < 512)
  | .mbxDone _ crew => decide (crew < 512)
  | .functionLevelReset _ port fn => decide (port < 4) && decide (fn < 128)
  | .resyncRequest _ crew token => decide (crew < 512) && decide (token < 2 ^ 32)
  | .setAliasWrite _ acc _ => acc.wf
  | .clearAliasWrite _ acc _ => acc.wf
  | .toggleAliasWrite _ acc _ => acc.wf
  | .statusWriteBack _ acc _ => acc.wf
  | .keyAWrite _ acc _ => acc.wf
  | .keyBWrite _ acc _ => acc.wf
  | .dualKeyTimeout _ _ => true
  | .loReadLatch _ span => span.acc.wf && decide (span.size ≤ 8)
  | .countsSnapshot _ acc => acc.wf
  | .registerWrite _ acc _ => acc.wf
  | .unimplAccess _ acc _ _ _ => acc.wf
  | .stallTimeout _ acc _ => acc.wf
  | .spiRead _ addr => decide (addr < 2 ^ 32)
  | .spiWrite _ addr _ => decide (addr < 2 ^ 32)
  | .spiBadCommand _ command => decide (command < 256)
  | .wakeFailed _ domain => decide (domain < 96)
  | .layerCreate _ crew => decide (crew < 512)
  | .layerDestroy _ crew => decide (crew < 512)
  | .layerSet _ crew => decide (crew < 512)
  | .commit _ crew => decide (crew < 512)
  | .fenceWait _ crew => decide (crew < 512)
  | .fenceWaitPoll _ crew => decide (crew < 512)
  | .fenceWaitExpired _ crew => decide (crew < 512)
  | .fenceSignal _ crew => decide (crew < 512)
  | .malformedItem _ crew => decide (crew < 512)
  | .commitAcceptance _ crew => decide (crew < 512)
  | .laneCommitWrite _ acc lane _ => acc.wf && decide (lane < 8)
  | .fenceRead _ lane => decide (lane < 8)
  | .laneCatch _ lane => decide (lane < 8)
  | .retimeF0Start _ lane => decide (lane < 8)
  | .presented _ lane => decide (lane < 8)
  | .frameStart _ lane => decide (lane < 8)
  | .quarterWake _ quarters => decide (quarters < 2 ^ 64)
  | .rowRelease _ lane _ => decide (lane < 8)
  | .tileWrite _ lane _ _ => decide (lane < 8)
  | .rowClose _ lane _ => decide (lane < 8)
  | .portStall _ lane _ _ _ _ => decide (lane < 8)
  | .selfRefreshEntry _ lane => decide (lane < 8)
  | .vrrPorchMin _ lane => decide (lane < 8)
  | .heatComplete _ lane => decide (lane < 8)
  | .vrrMaxFrontPorch _ lane => decide (lane < 8)
  | .edpBringup _ lane _ => decide (lane < 8)
  | .linkTrainingAttempt _ lane _ => decide (lane < 8)
  | .hpdTimeout _ lane => decide (lane < 8)
  | .hpdRise _ lane => decide (lane < 8)
  | .hpdUnplug _ lane => decide (lane < 8)
  | .hpdIrq _ lane _ => decide (lane < 8)
  | .dsiBringup _ lane _ => decide (lane < 8)
  | .teEdge _ lane _ => decide (lane < 8)
  | .dsiCmdSend _ lane _ => decide (lane < 8)
  | .blpwmPeriodStart _ lane => decide (lane < 8)
  | .pclkLock _ lane => decide (lane < 8)
  | .pclkUnlock _ lane => decide (lane < 8)
  | .refMonitorWindow _ _ _ => true
  | .grossLoss _ => true
  | .refRestore _ => true
  | .csiFrameStart _ port packet => decide (port < 8) && decide (packet.vc < 16)
  | .csiLongPacket _ port vc _ _ _ _ => decide (port < 8) && decide (vc < 16)
  | .csiFrameEnd _ port packet => decide (port < 8) && decide (packet.vc < 16)
  | .lineLanded _ port slot _ => decide (port < 8) && decide (slot < 4)
  | .streamLost _ port slot => decide (port < 8) && decide (slot < 4)
  | .bandAbandoned _ port slot _ => decide (port < 8) && decide (slot < 4)
  | .processedLineSignal _ port slot => decide (port < 8) && decide (slot < 4)
  | .forwardDone _ port slot => decide (port < 8) && decide (slot < 4)
  | .programSet _ crew => decide (crew < 512)
  | .programReady _ crew => decide (crew < 512)
  | .programDelete _ crew => decide (crew < 512)
  | .writebackDone _ lane => decide (lane < 8)
  | .writebackAbandoned _ lane => decide (lane < 8)
  | .residenceCopyDone _ layer => decide (layer < 2048)
  | .pin _ crew => decide (crew < 512)
  | .shedEvaluation _ => true
  | .shellSelftestStart _ => true
  | .shellSelftestEnd _ _ => true
  | .scrubPass _ _ channel _ _ => decide (channel < 8)
  | .selftestRequest _ _ _ => true
  | .fill _ crew => decide (crew < 512)
  | .copy _ crew => decide (crew < 512)
  | .blendCopy _ crew => decide (crew < 512)
  | .rect _ crew => decide (crew < 512)
  | .line _ crew => decide (crew < 512)
  | .glyph _ crew => decide (crew < 512)
  | .blitDone _ crew => decide (crew < 512)
  | .moverStart _ acc channel => acc.wf && decide (channel < 64)
  | .moverResume _ acc channel => acc.wf && decide (channel < 64)
  | .moverAbort _ acc channel => acc.wf && decide (channel < 64)
  | .moverSwReq _ acc channel => acc.wf && decide (channel < 64)
  | .swLineWrite _ acc _ => acc.wf
  | .requestEdge _ edge => decide (edge < 64)
  | .moverBurstStart _ channel => decide (channel < 64)
  | .moverBurstDone _ channel => decide (channel < 64)
  | .descriptorFetch _ channel => decide (channel < 64)
  | .moverBusError _ _ _ => true
  | .allStopComplete _ => true
  | .stopClear _ acc => acc.wf
  | .autoResume _ => true
  | .udmaStart _ acc channel => acc.wf && decide (channel < 8)
  | .udmaResume _ acc channel => acc.wf && decide (channel < 8)
  | .udmaAbort _ acc channel => acc.wf && decide (channel < 8)
  | .udmaBurstDone _ => true
  | .udmaBusError _ _ => true
  | .perstAssert _ port => decide (port < 4)
  | .perstDeassert _ port => decide (port < 4)
  | .portReady _ port => decide (port < 4)
  | .hostLinkDown _ port => decide (port < 4)
  | .hostLinkUp _ port _ _ => decide (port < 4)
  | .linkRetrain _ port _ _ => decide (port < 4)
  | .vfEnableChange _ port _ _ => decide (port < 4)
  | .apertureRead _ crew _ _ _ => decide (crew < 512)
  | .apertureWrite _ crew _ _ => decide (crew < 512)
  | .xltInvalidate _ acc _ => acc.wf
  | .xltInvalDone _ crew => decide (crew < 512)
  | .cqPush _ crew _ => decide (crew < 512)
  | .cqFlush _ crew => decide (crew < 512)
  | .eqPop _ crew => decide (crew < 512)
  | .eqPopTimeout _ crew => decide (crew < 512)
  | .eqArm _ crew _ => decide (crew < 512)
  | .doorbell _ crew => decide (crew < 512)
  | .cplTimeout _ port _ => decide (port < 4)
  | .regionEvaluation _ lane region => decide (lane < 8) && decide (region < 32)
  | .photoRearm _ crew lane region => decide (crew < 512) && decide (lane < 8) && decide (region < 32)
  | .faultOccurrence _ source _ => decide (source < 128)
  | .limpFrameStart _ _ => true
  | .umpireSnapshot _ acc => acc.wf
  | .umpireClear _ acc _ => acc.wf
  | .umpireClassWrite _ acc k _ => acc.wf && decide (k < 8)
  | .c3Ack _ acc _ => acc.wf
  | .faultInject _ acc _ => acc.wf
  | .smuStart _ _ _ => true
  | .smuPulseEdge _ input => decide (input < 4)
  | .overrateClear _ => true
  | .smuTick _ => true
  | .indicationPost _ buffer _ => decide (buffer < 2)
  | .indicationGapTimeout _ => true
  | .smuSealChange _ _ => true
  | .sealOpenTimeout _ => true
  | .hire _ crew => decide (crew < 512)
  | .tariff _ crew => decide (crew < 512)
  | .stop _ crew => decide (crew < 512)
  | .endJourney _ crew => decide (crew < 512)
  | .supplement _ crew => decide (crew < 512)
  | .tripReset _ crew => decide (crew < 512)
  | .showId _ crew => decide (crew < 512)
  | .showIdEnd _ => true
  | .timeOffset _ crew => decide (crew < 512)
  | .verifyChallenge _ crew => decide (crew < 512)
  | .verifyOpen _ crew => decide (crew < 512)
  | .paramWrite _ crew => decide (crew < 512)
  | .verifyClose _ crew => decide (crew < 512)
  | .verifyCloseTimeout _ => true
  | .verifyInactivityTimeout _ => true
  | .fwBlock _ crew => decide (crew < 512)
  | .logClear _ crew => decide (crew < 512)
  | .bootImageCheck _ _ _ => true
  | .revoke _ acc _ => acc.wf
  | .dbgChallengeRead _ => true
  | .dbgUnlock _ _ _ => true
  | .dbgBackoffExpiry _ => true
  | .securityAlarm _ alarm => decide (alarm < 7)
  | .alarmPolicyWrite _ acc _ => acc.wf
  | .provisionWindowExpiry _ => true
  | .modeRequest _ acc _ => acc.wf
  | .launchComplete _ => true
  | .fullSelftestDone _ _ _ _ _ => true
  | .sleepRequest _ acc _ => acc.wf
  | .sleepComplete _ => true
  | .wake _ _ => true
  | .resetN _ _ => true
  | .resetRelease _ _ => true
  | .supplyFault _ _ _ => true
  | .vstbyApplied _ => true
  | .powerCycle _ => true
  | .throttleRaise _ => true
  | .throttleLower _ => true
  | .silithLinkUp _ link _ _ _ _ _ _ => decide (link < 2)
  | .silithLinkRetry _ link => decide (link < 2)
  | .silithLinkLost _ link => decide (link < 2)
  | .frameStartMarker _ _ => true
  | .markerLate _ lane => decide (lane < 8)
  | .leavingMarker _ => true
  | .masterKeepaliveTimeout _ => true
  | .forwardTimeout _ node => decide (node < 4)
  | .nodeSummary _ node _ _ _ _ => decide (node < 4)
  | .eventTx _ acc _ => acc.wf
  | .spanResync _ span => decide (span < 4)
  | .xtal32Fault _ => true
  | .xtal32RcWindowEnd _ => true
  | .vstbyRemoved _ => true
  | .arpRequest _ k _ => decide (k < 2)
  | .icmpEchoRequest _ k _ _ => decide (k < 2)
  | .domainIdleOff _ domain => decide (domain < 96)
  | .limpRecordLoaded _ _ => true
  | .planBuilt _ => true
  | .masterBack _ => true

end Sys2Proof
end

