-- ==== Sys2Proof/Laws/PerInstr.lean ====
section
/-! SUPPORT. Statements about every command as syntax, one lemma for each constructor. -/

set_option Elab.async false

namespace Sys2Proof.Laws.Timed

open Sys2Proof

/-- Time is an operand of its own: with another time the command names the same operands, and is well formed as before. -/
def Statement (i : Instr) : Prop := ∃ f : Nat → Instr, f i.dt = i ∧ ∀ d, (f d).dt = d ∧ (f d).wf = i.wf

theorem read : ∀ dt x0 x1, Statement (.read dt x0 x1) := fun _ x0 x1 => ⟨fun d => .read d x0 x1, rfl, fun _ => ⟨rfl, rfl⟩⟩
theorem write : ∀ dt x0 x1, Statement (.write dt x0 x1) := fun _ x0 x1 => ⟨fun d => .write d x0 x1, rfl, fun _ => ⟨rfl, rfl⟩⟩
theorem describe : ∀ dt x0 x1, Statement (.describe dt x0 x1) := fun _ x0 x1 => ⟨fun d => .describe d x0 x1, rfl, fun _ => ⟨rfl, rfl⟩⟩
theorem segReadInit : ∀ dt x0 x1 x2, Statement (.segReadInit dt x0 x1 x2) := fun _ x0 x1 x2 => ⟨fun d => .segReadInit d x0 x1 x2, rfl, fun _ => ⟨rfl, rfl⟩⟩
theorem segWriteInit : ∀ dt x0 x1 x2, Statement (.segWriteInit dt x0 x1 x2) := fun _ x0 x1 x2 => ⟨fun d => .segWriteInit d x0 x1 x2, rfl, fun _ => ⟨rfl, rfl⟩⟩
theorem segData : ∀ dt x0 x1 x2 x3 x4 x5, Statement (.segData dt x0 x1 x2 x3 x4 x5) := fun _ x0 x1 x2 x3 x4 x5 => ⟨fun d => .segData d x0 x1 x2 x3 x4 x5, rfl, fun _ => ⟨rfl, rfl⟩⟩
theorem segAck : ∀ dt x0 x1 x2 x3 x4, Statement (.segAck dt x0 x1 x2 x3 x4) := fun _ x0 x1 x2 x3 x4 => ⟨fun d => .segAck d x0 x1 x2 x3 x4, rfl, fun _ => ⟨rfl, rfl⟩⟩
theorem cancel : ∀ dt x0 x1 x2 x3, Statement (.cancel dt x0 x1 x2 x3) := fun _ x0 x1 x2 x3 => ⟨fun d => .cancel d x0 x1 x2 x3, rfl, fun _ => ⟨rfl, rfl⟩⟩
theorem segTimeout : ∀ dt x0 x1 x2, Statement (.segTimeout dt x0 x1 x2) := fun _ x0 x1 x2 => ⟨fun d => .segTimeout d x0 x1 x2, rfl, fun _ => ⟨rfl, rfl⟩⟩
theorem udpDatagram : ∀ dt x0 x1 x2 x3, Statement (.udpDatagram dt x0 x1 x2 x3) := fun _ x0 x1 x2 x3 => ⟨fun d => .udpDatagram d x0 x1 x2 x3, rfl, fun _ => ⟨rfl, rfl⟩⟩
theorem mbxGo : ∀ dt x0 x1, Statement (.mbxGo dt x0 x1) := fun _ x0 x1 => ⟨fun d => .mbxGo d x0 x1, rfl, fun _ => ⟨rfl, rfl⟩⟩
theorem mbxRequestBufferWrite : ∀ dt x0 x1 x2, Statement (.mbxRequestBufferWrite dt x0 x1 x2) := fun _ x0 x1 x2 => ⟨fun d => .mbxRequestBufferWrite d x0 x1 x2, rfl, fun _ => ⟨rfl, rfl⟩⟩
theorem mbxDone : ∀ dt x0, Statement (.mbxDone dt x0) := fun _ x0 => ⟨fun d => .mbxDone d x0, rfl, fun _ => ⟨rfl, rfl⟩⟩
theorem functionLevelReset : ∀ dt x0 x1, Statement (.functionLevelReset dt x0 x1) := fun _ x0 x1 => ⟨fun d => .functionLevelReset d x0 x1, rfl, fun _ => ⟨rfl, rfl⟩⟩
theorem resyncRequest : ∀ dt x0 x1, Statement (.resyncRequest dt x0 x1) := fun _ x0 x1 => ⟨fun d => .resyncRequest d x0 x1, rfl, fun _ => ⟨rfl, rfl⟩⟩
theorem setAliasWrite : ∀ dt x0 x1, Statement (.setAliasWrite dt x0 x1) := fun _ x0 x1 => ⟨fun d => .setAliasWrite d x0 x1, rfl, fun _ => ⟨rfl, rfl⟩⟩
theorem clearAliasWrite : ∀ dt x0 x1, Statement (.clearAliasWrite dt x0 x1) := fun _ x0 x1 => ⟨fun d => .clearAliasWrite d x0 x1, rfl, fun _ => ⟨rfl, rfl⟩⟩
theorem toggleAliasWrite : ∀ dt x0 x1, Statement (.toggleAliasWrite dt x0 x1) := fun _ x0 x1 => ⟨fun d => .toggleAliasWrite d x0 x1, rfl, fun _ => ⟨rfl, rfl⟩⟩
theorem statusWriteBack : ∀ dt x0 x1, Statement (.statusWriteBack dt x0 x1) := fun _ x0 x1 => ⟨fun d => .statusWriteBack d x0 x1, rfl, fun _ => ⟨rfl, rfl⟩⟩
theorem keyAWrite : ∀ dt x0 x1, Statement (.keyAWrite dt x0 x1) := fun _ x0 x1 => ⟨fun d => .keyAWrite d x0 x1, rfl, fun _ => ⟨rfl, rfl⟩⟩
theorem keyBWrite : ∀ dt x0 x1, Statement (.keyBWrite dt x0 x1) := fun _ x0 x1 => ⟨fun d => .keyBWrite d x0 x1, rfl, fun _ => ⟨rfl, rfl⟩⟩
theorem dualKeyTimeout : ∀ dt x0, Statement (.dualKeyTimeout dt x0) := fun _ x0 => ⟨fun d => .dualKeyTimeout d x0, rfl, fun _ => ⟨rfl, rfl⟩⟩
theorem loReadLatch : ∀ dt x0, Statement (.loReadLatch dt x0) := fun _ x0 => ⟨fun d => .loReadLatch d x0, rfl, fun _ => ⟨rfl, rfl⟩⟩
theorem countsSnapshot : ∀ dt x0, Statement (.countsSnapshot dt x0) := fun _ x0 => ⟨fun d => .countsSnapshot d x0, rfl, fun _ => ⟨rfl, rfl⟩⟩
theorem registerWrite : ∀ dt x0 x1, Statement (.registerWrite dt x0 x1) := fun _ x0 x1 => ⟨fun d => .registerWrite d x0 x1, rfl, fun _ => ⟨rfl, rfl⟩⟩
theorem unimplAccess : ∀ dt x0 x1 x2 x3, Statement (.unimplAccess dt x0 x1 x2 x3) := fun _ x0 x1 x2 x3 => ⟨fun d => .unimplAccess d x0 x1 x2 x3, rfl, fun _ => ⟨rfl, rfl⟩⟩
theorem stallTimeout : ∀ dt x0 x1, Statement (.stallTimeout dt x0 x1) := fun _ x0 x1 => ⟨fun d => .stallTimeout d x0 x1, rfl, fun _ => ⟨rfl, rfl⟩⟩
theorem spiRead : ∀ dt x0, Statement (.spiRead dt x0) := fun _ x0 => ⟨fun d => .spiRead d x0, rfl, fun _ => ⟨rfl, rfl⟩⟩
theorem spiWrite : ∀ dt x0 x1, Statement (.spiWrite dt x0 x1) := fun _ x0 x1 => ⟨fun d => .spiWrite d x0 x1, rfl, fun _ => ⟨rfl, rfl⟩⟩
theorem spiBadCommand : ∀ dt x0, Statement (.spiBadCommand dt x0) := fun _ x0 => ⟨fun d => .spiBadCommand d x0, rfl, fun _ => ⟨rfl, rfl⟩⟩
theorem wakeFailed : ∀ dt x0, Statement (.wakeFailed dt x0) := fun _ x0 => ⟨fun d => .wakeFailed d x0, rfl, fun _ => ⟨rfl, rfl⟩⟩
theorem layerCreate : ∀ dt x0, Statement (.layerCreate dt x0) := fun _ x0 => ⟨fun d => .layerCreate d x0, rfl, fun _ => ⟨rfl, rfl⟩⟩
theorem layerDestroy : ∀ dt x0, Statement (.layerDestroy dt x0) := fun _ x0 => ⟨fun d => .layerDestroy d x0, rfl, fun _ => ⟨rfl, rfl⟩⟩
theorem layerSet : ∀ dt x0, Statement (.layerSet dt x0) := fun _ x0 => ⟨fun d => .layerSet d x0, rfl, fun _ => ⟨rfl, rfl⟩⟩
theorem commit : ∀ dt x0, Statement (.commit dt x0) := fun _ x0 => ⟨fun d => .commit d x0, rfl, fun _ => ⟨rfl, rfl⟩⟩
theorem fenceWait : ∀ dt x0, Statement (.fenceWait dt x0) := fun _ x0 => ⟨fun d => .fenceWait d x0, rfl, fun _ => ⟨rfl, rfl⟩⟩
theorem fenceWaitPoll : ∀ dt x0, Statement (.fenceWaitPoll dt x0) := fun _ x0 => ⟨fun d => .fenceWaitPoll d x0, rfl, fun _ => ⟨rfl, rfl⟩⟩
theorem fenceWaitExpired : ∀ dt x0, Statement (.fenceWaitExpired dt x0) := fun _ x0 => ⟨fun d => .fenceWaitExpired d x0, rfl, fun _ => ⟨rfl, rfl⟩⟩
theorem fenceSignal : ∀ dt x0, Statement (.fenceSignal dt x0) := fun _ x0 => ⟨fun d => .fenceSignal d x0, rfl, fun _ => ⟨rfl, rfl⟩⟩
theorem malformedItem : ∀ dt x0, Statement (.malformedItem dt x0) := fun _ x0 => ⟨fun d => .malformedItem d x0, rfl, fun _ => ⟨rfl, rfl⟩⟩
theorem commitAcceptance : ∀ dt x0, Statement (.commitAcceptance dt x0) := fun _ x0 => ⟨fun d => .commitAcceptance d x0, rfl, fun _ => ⟨rfl, rfl⟩⟩
theorem laneCommitWrite : ∀ dt x0 x1 x2, Statement (.laneCommitWrite dt x0 x1 x2) := fun _ x0 x1 x2 => ⟨fun d => .laneCommitWrite d x0 x1 x2, rfl, fun _ => ⟨rfl, rfl⟩⟩
theorem fenceRead : ∀ dt x0, Statement (.fenceRead dt x0) := fun _ x0 => ⟨fun d => .fenceRead d x0, rfl, fun _ => ⟨rfl, rfl⟩⟩
theorem laneCatch : ∀ dt x0, Statement (.laneCatch dt x0) := fun _ x0 => ⟨fun d => .laneCatch d x0, rfl, fun _ => ⟨rfl, rfl⟩⟩
theorem retimeF0Start : ∀ dt x0, Statement (.retimeF0Start dt x0) := fun _ x0 => ⟨fun d => .retimeF0Start d x0, rfl, fun _ => ⟨rfl, rfl⟩⟩
theorem presented : ∀ dt x0, Statement (.presented dt x0) := fun _ x0 => ⟨fun d => .presented d x0, rfl, fun _ => ⟨rfl, rfl⟩⟩
theorem frameStart : ∀ dt x0, Statement (.frameStart dt x0) := fun _ x0 => ⟨fun d => .frameStart d x0, rfl, fun _ => ⟨rfl, rfl⟩⟩
theorem quarterWake : ∀ dt x0, Statement (.quarterWake dt x0) := fun _ x0 => ⟨fun d => .quarterWake d x0, rfl, fun _ => ⟨rfl, rfl⟩⟩
theorem rowRelease : ∀ dt x0 x1, Statement (.rowRelease dt x0 x1) := fun _ x0 x1 => ⟨fun d => .rowRelease d x0 x1, rfl, fun _ => ⟨rfl, rfl⟩⟩
theorem tileWrite : ∀ dt x0 x1 x2, Statement (.tileWrite dt x0 x1 x2) := fun _ x0 x1 x2 => ⟨fun d => .tileWrite d x0 x1 x2, rfl, fun _ => ⟨rfl, rfl⟩⟩
theorem rowClose : ∀ dt x0 x1, Statement (.rowClose dt x0 x1) := fun _ x0 x1 => ⟨fun d => .rowClose d x0 x1, rfl, fun _ => ⟨rfl, rfl⟩⟩
theorem portStall : ∀ dt x0 x1 x2 x3 x4, Statement (.portStall dt x0 x1 x2 x3 x4) := fun _ x0 x1 x2 x3 x4 => ⟨fun d => .portStall d x0 x1 x2 x3 x4, rfl, fun _ => ⟨rfl, rfl⟩⟩
theorem selfRefreshEntry : ∀ dt x0, Statement (.selfRefreshEntry dt x0) := fun _ x0 => ⟨fun d => .selfRefreshEntry d x0, rfl, fun _ => ⟨rfl, rfl⟩⟩
theorem vrrPorchMin : ∀ dt x0, Statement (.vrrPorchMin dt x0) := fun _ x0 => ⟨fun d => .vrrPorchMin d x0, rfl, fun _ => ⟨rfl, rfl⟩⟩
theorem heatComplete : ∀ dt x0, Statement (.heatComplete dt x0) := fun _ x0 => ⟨fun d => .heatComplete d x0, rfl, fun _ => ⟨rfl, rfl⟩⟩
theorem vrrMaxFrontPorch : ∀ dt x0, Statement (.vrrMaxFrontPorch dt x0) := fun _ x0 => ⟨fun d => .vrrMaxFrontPorch d x0, rfl, fun _ => ⟨rfl, rfl⟩⟩
theorem edpBringup : ∀ dt x0 x1, Statement (.edpBringup dt x0 x1) := fun _ x0 x1 => ⟨fun d => .edpBringup d x0 x1, rfl, fun _ => ⟨rfl, rfl⟩⟩
theorem linkTrainingAttempt : ∀ dt x0 x1, Statement (.linkTrainingAttempt dt x0 x1) := fun _ x0 x1 => ⟨fun d => .linkTrainingAttempt d x0 x1, rfl, fun _ => ⟨rfl, rfl⟩⟩
theorem hpdTimeout : ∀ dt x0, Statement (.hpdTimeout dt x0) := fun _ x0 => ⟨fun d => .hpdTimeout d x0, rfl, fun _ => ⟨rfl, rfl⟩⟩
theorem hpdRise : ∀ dt x0, Statement (.hpdRise dt x0) := fun _ x0 => ⟨fun d => .hpdRise d x0, rfl, fun _ => ⟨rfl, rfl⟩⟩
theorem hpdUnplug : ∀ dt x0, Statement (.hpdUnplug dt x0) := fun _ x0 => ⟨fun d => .hpdUnplug d x0, rfl, fun _ => ⟨rfl, rfl⟩⟩
theorem hpdIrq : ∀ dt x0 x1, Statement (.hpdIrq dt x0 x1) := fun _ x0 x1 => ⟨fun d => .hpdIrq d x0 x1, rfl, fun _ => ⟨rfl, rfl⟩⟩
theorem dsiBringup : ∀ dt x0 x1, Statement (.dsiBringup dt x0 x1) := fun _ x0 x1 => ⟨fun d => .dsiBringup d x0 x1, rfl, fun _ => ⟨rfl, rfl⟩⟩
theorem teEdge : ∀ dt x0 x1, Statement (.teEdge dt x0 x1) := fun _ x0 x1 => ⟨fun d => .teEdge d x0 x1, rfl, fun _ => ⟨rfl, rfl⟩⟩
theorem dsiCmdSend : ∀ dt x0 x1, Statement (.dsiCmdSend dt x0 x1) := fun _ x0 x1 => ⟨fun d => .dsiCmdSend d x0 x1, rfl, fun _ => ⟨rfl, rfl⟩⟩
theorem blpwmPeriodStart : ∀ dt x0, Statement (.blpwmPeriodStart dt x0) := fun _ x0 => ⟨fun d => .blpwmPeriodStart d x0, rfl, fun _ => ⟨rfl, rfl⟩⟩
theorem pclkLock : ∀ dt x0, Statement (.pclkLock dt x0) := fun _ x0 => ⟨fun d => .pclkLock d x0, rfl, fun _ => ⟨rfl, rfl⟩⟩
theorem pclkUnlock : ∀ dt x0, Statement (.pclkUnlock dt x0) := fun _ x0 => ⟨fun d => .pclkUnlock d x0, rfl, fun _ => ⟨rfl, rfl⟩⟩
theorem refMonitorWindow : ∀ dt x0 x1, Statement (.refMonitorWindow dt x0 x1) := fun _ x0 x1 => ⟨fun d => .refMonitorWindow d x0 x1, rfl, fun _ => ⟨rfl, rfl⟩⟩
theorem grossLoss : ∀ dt, Statement (.grossLoss dt) := fun _ => ⟨fun d => .grossLoss d, rfl, fun _ => ⟨rfl, rfl⟩⟩
theorem refRestore : ∀ dt, Statement (.refRestore dt) := fun _ => ⟨fun d => .refRestore d, rfl, fun _ => ⟨rfl, rfl⟩⟩
theorem csiFrameStart : ∀ dt x0 x1, Statement (.csiFrameStart dt x0 x1) := fun _ x0 x1 => ⟨fun d => .csiFrameStart d x0 x1, rfl, fun _ => ⟨rfl, rfl⟩⟩
theorem csiLongPacket : ∀ dt x0 x1 x2 x3 x4 x5, Statement (.csiLongPacket dt x0 x1 x2 x3 x4 x5) := fun _ x0 x1 x2 x3 x4 x5 => ⟨fun d => .csiLongPacket d x0 x1 x2 x3 x4 x5, rfl, fun _ => ⟨rfl, rfl⟩⟩
theorem csiFrameEnd : ∀ dt x0 x1, Statement (.csiFrameEnd dt x0 x1) := fun _ x0 x1 => ⟨fun d => .csiFrameEnd d x0 x1, rfl, fun _ => ⟨rfl, rfl⟩⟩
theorem lineLanded : ∀ dt x0 x1 x2, Statement (.lineLanded dt x0 x1 x2) := fun _ x0 x1 x2 => ⟨fun d => .lineLanded d x0 x1 x2, rfl, fun _ => ⟨rfl, rfl⟩⟩
theorem streamLost : ∀ dt x0 x1, Statement (.streamLost dt x0 x1) := fun _ x0 x1 => ⟨fun d => .streamLost d x0 x1, rfl, fun _ => ⟨rfl, rfl⟩⟩
theorem bandAbandoned : ∀ dt x0 x1 x2, Statement (.bandAbandoned dt x0 x1 x2) := fun _ x0 x1 x2 => ⟨fun d => .bandAbandoned d x0 x1 x2, rfl, fun _ => ⟨rfl, rfl⟩⟩
theorem processedLineSignal : ∀ dt x0 x1, Statement (.processedLineSignal dt x0 x1) := fun _ x0 x1 => ⟨fun d => .processedLineSignal d x0 x1, rfl, fun _ => ⟨rfl, rfl⟩⟩
theorem forwardDone : ∀ dt x0 x1, Statement (.forwardDone dt x0 x1) := fun _ x0 x1 => ⟨fun d => .forwardDone d x0 x1, rfl, fun _ => ⟨rfl, rfl⟩⟩
theorem programSet : ∀ dt x0, Statement (.programSet dt x0) := fun _ x0 => ⟨fun d => .programSet d x0, rfl, fun _ => ⟨rfl, rfl⟩⟩
theorem programReady : ∀ dt x0, Statement (.programReady dt x0) := fun _ x0 => ⟨fun d => .programReady d x0, rfl, fun _ => ⟨rfl, rfl⟩⟩
theorem programDelete : ∀ dt x0, Statement (.programDelete dt x0) := fun _ x0 => ⟨fun d => .programDelete d x0, rfl, fun _ => ⟨rfl, rfl⟩⟩
theorem writebackDone : ∀ dt x0, Statement (.writebackDone dt x0) := fun _ x0 => ⟨fun d => .writebackDone d x0, rfl, fun _ => ⟨rfl, rfl⟩⟩
theorem writebackAbandoned : ∀ dt x0, Statement (.writebackAbandoned dt x0) := fun _ x0 => ⟨fun d => .writebackAbandoned d x0, rfl, fun _ => ⟨rfl, rfl⟩⟩
theorem residenceCopyDone : ∀ dt x0, Statement (.residenceCopyDone dt x0) := fun _ x0 => ⟨fun d => .residenceCopyDone d x0, rfl, fun _ => ⟨rfl, rfl⟩⟩
theorem pin : ∀ dt x0, Statement (.pin dt x0) := fun _ x0 => ⟨fun d => .pin d x0, rfl, fun _ => ⟨rfl, rfl⟩⟩
theorem shedEvaluation : ∀ dt, Statement (.shedEvaluation dt) := fun _ => ⟨fun d => .shedEvaluation d, rfl, fun _ => ⟨rfl, rfl⟩⟩
theorem shellSelftestStart : ∀ dt, Statement (.shellSelftestStart dt) := fun _ => ⟨fun d => .shellSelftestStart d, rfl, fun _ => ⟨rfl, rfl⟩⟩
theorem shellSelftestEnd : ∀ dt x0, Statement (.shellSelftestEnd dt x0) := fun _ x0 => ⟨fun d => .shellSelftestEnd d x0, rfl, fun _ => ⟨rfl, rfl⟩⟩
theorem scrubPass : ∀ dt x0 x1 x2 x3, Statement (.scrubPass dt x0 x1 x2 x3) := fun _ x0 x1 x2 x3 => ⟨fun d => .scrubPass d x0 x1 x2 x3, rfl, fun _ => ⟨rfl, rfl⟩⟩
theorem selftestRequest : ∀ dt x0 x1, Statement (.selftestRequest dt x0 x1) := fun _ x0 x1 => ⟨fun d => .selftestRequest d x0 x1, rfl, fun _ => ⟨rfl, rfl⟩⟩
theorem fill : ∀ dt x0, Statement (.fill dt x0) := fun _ x0 => ⟨fun d => .fill d x0, rfl, fun _ => ⟨rfl, rfl⟩⟩
theorem copy : ∀ dt x0, Statement (.copy dt x0) := fun _ x0 => ⟨fun d => .copy d x0, rfl, fun _ => ⟨rfl, rfl⟩⟩
theorem blendCopy : ∀ dt x0, Statement (.blendCopy dt x0) := fun _ x0 => ⟨fun d => .blendCopy d x0, rfl, fun _ => ⟨rfl, rfl⟩⟩
theorem rect : ∀ dt x0, Statement (.rect dt x0) := fun _ x0 => ⟨fun d => .rect d x0, rfl, fun _ => ⟨rfl, rfl⟩⟩
theorem line : ∀ dt x0, Statement (.line dt x0) := fun _ x0 => ⟨fun d => .line d x0, rfl, fun _ => ⟨rfl, rfl⟩⟩
theorem glyph : ∀ dt x0, Statement (.glyph dt x0) := fun _ x0 => ⟨fun d => .glyph d x0, rfl, fun _ => ⟨rfl, rfl⟩⟩
theorem blitDone : ∀ dt x0, Statement (.blitDone dt x0) := fun _ x0 => ⟨fun d => .blitDone d x0, rfl, fun _ => ⟨rfl, rfl⟩⟩
theorem moverStart : ∀ dt x0 x1, Statement (.moverStart dt x0 x1) := fun _ x0 x1 => ⟨fun d => .moverStart d x0 x1, rfl, fun _ => ⟨rfl, rfl⟩⟩
theorem moverResume : ∀ dt x0 x1, Statement (.moverResume dt x0 x1) := fun _ x0 x1 => ⟨fun d => .moverResume d x0 x1, rfl, fun _ => ⟨rfl, rfl⟩⟩
theorem moverAbort : ∀ dt x0 x1, Statement (.moverAbort dt x0 x1) := fun _ x0 x1 => ⟨fun d => .moverAbort d x0 x1, rfl, fun _ => ⟨rfl, rfl⟩⟩
theorem moverSwReq : ∀ dt x0 x1, Statement (.moverSwReq dt x0 x1) := fun _ x0 x1 => ⟨fun d => .moverSwReq d x0 x1, rfl, fun _ => ⟨rfl, rfl⟩⟩
theorem swLineWrite : ∀ dt x0 x1, Statement (.swLineWrite dt x0 x1) := fun _ x0 x1 => ⟨fun d => .swLineWrite d x0 x1, rfl, fun _ => ⟨rfl, rfl⟩⟩
theorem requestEdge : ∀ dt x0, Statement (.requestEdge dt x0) := fun _ x0 => ⟨fun d => .requestEdge d x0, rfl, fun _ => ⟨rfl, rfl⟩⟩
theorem moverBurstStart : ∀ dt x0, Statement (.moverBurstStart dt x0) := fun _ x0 => ⟨fun d => .moverBurstStart d x0, rfl, fun _ => ⟨rfl, rfl⟩⟩
theorem moverBurstDone : ∀ dt x0, Statement (.moverBurstDone dt x0) := fun _ x0 => ⟨fun d => .moverBurstDone d x0, rfl, fun _ => ⟨rfl, rfl⟩⟩
theorem descriptorFetch : ∀ dt x0, Statement (.descriptorFetch dt x0) := fun _ x0 => ⟨fun d => .descriptorFetch d x0, rfl, fun _ => ⟨rfl, rfl⟩⟩
theorem moverBusError : ∀ dt x0 x1, Statement (.moverBusError dt x0 x1) := fun _ x0 x1 => ⟨fun d => .moverBusError d x0 x1, rfl, fun _ => ⟨rfl, rfl⟩⟩
theorem allStopComplete : ∀ dt, Statement (.allStopComplete dt) := fun _ => ⟨fun d => .allStopComplete d, rfl, fun _ => ⟨rfl, rfl⟩⟩
theorem stopClear : ∀ dt x0, Statement (.stopClear dt x0) := fun _ x0 => ⟨fun d => .stopClear d x0, rfl, fun _ => ⟨rfl, rfl⟩⟩
theorem autoResume : ∀ dt, Statement (.autoResume dt) := fun _ => ⟨fun d => .autoResume d, rfl, fun _ => ⟨rfl, rfl⟩⟩
theorem udmaStart : ∀ dt x0 x1, Statement (.udmaStart dt x0 x1) := fun _ x0 x1 => ⟨fun d => .udmaStart d x0 x1, rfl, fun _ => ⟨rfl, rfl⟩⟩
theorem udmaResume : ∀ dt x0 x1, Statement (.udmaResume dt x0 x1) := fun _ x0 x1 => ⟨fun d => .udmaResume d x0 x1, rfl, fun _ => ⟨rfl, rfl⟩⟩
theorem udmaAbort : ∀ dt x0 x1, Statement (.udmaAbort dt x0 x1) := fun _ x0 x1 => ⟨fun d => .udmaAbort d x0 x1, rfl, fun _ => ⟨rfl, rfl⟩⟩
theorem udmaBurstDone : ∀ dt, Statement (.udmaBurstDone dt) := fun _ => ⟨fun d => .udmaBurstDone d, rfl, fun _ => ⟨rfl, rfl⟩⟩
theorem udmaBusError : ∀ dt x0, Statement (.udmaBusError dt x0) := fun _ x0 => ⟨fun d => .udmaBusError d x0, rfl, fun _ => ⟨rfl, rfl⟩⟩
theorem perstAssert : ∀ dt x0, Statement (.perstAssert dt x0) := fun _ x0 => ⟨fun d => .perstAssert d x0, rfl, fun _ => ⟨rfl, rfl⟩⟩
theorem perstDeassert : ∀ dt x0, Statement (.perstDeassert dt x0) := fun _ x0 => ⟨fun d => .perstDeassert d x0, rfl, fun _ => ⟨rfl, rfl⟩⟩
theorem portReady : ∀ dt x0, Statement (.portReady dt x0) := fun _ x0 => ⟨fun d => .portReady d x0, rfl, fun _ => ⟨rfl, rfl⟩⟩
theorem hostLinkDown : ∀ dt x0, Statement (.hostLinkDown dt x0) := fun _ x0 => ⟨fun d => .hostLinkDown d x0, rfl, fun _ => ⟨rfl, rfl⟩⟩
theorem hostLinkUp : ∀ dt x0 x1 x2, Statement (.hostLinkUp dt x0 x1 x2) := fun _ x0 x1 x2 => ⟨fun d => .hostLinkUp d x0 x1 x2, rfl, fun _ => ⟨rfl, rfl⟩⟩
theorem linkRetrain : ∀ dt x0 x1 x2, Statement (.linkRetrain dt x0 x1 x2) := fun _ x0 x1 x2 => ⟨fun d => .linkRetrain d x0 x1 x2, rfl, fun _ => ⟨rfl, rfl⟩⟩
theorem vfEnableChange : ∀ dt x0 x1 x2, Statement (.vfEnableChange dt x0 x1 x2) := fun _ x0 x1 x2 => ⟨fun d => .vfEnableChange d x0 x1 x2, rfl, fun _ => ⟨rfl, rfl⟩⟩
theorem apertureRead : ∀ dt x0 x1 x2 x3, Statement (.apertureRead dt x0 x1 x2 x3) := fun _ x0 x1 x2 x3 => ⟨fun d => .apertureRead d x0 x1 x2 x3, rfl, fun _ => ⟨rfl, rfl⟩⟩
theorem apertureWrite : ∀ dt x0 x1 x2, Statement (.apertureWrite dt x0 x1 x2) := fun _ x0 x1 x2 => ⟨fun d => .apertureWrite d x0 x1 x2, rfl, fun _ => ⟨rfl, rfl⟩⟩
theorem xltInvalidate : ∀ dt x0 x1, Statement (.xltInvalidate dt x0 x1) := fun _ x0 x1 => ⟨fun d => .xltInvalidate d x0 x1, rfl, fun _ => ⟨rfl, rfl⟩⟩
theorem xltInvalDone : ∀ dt x0, Statement (.xltInvalDone dt x0) := fun _ x0 => ⟨fun d => .xltInvalDone d x0, rfl, fun _ => ⟨rfl, rfl⟩⟩
theorem cqPush : ∀ dt x0 x1, Statement (.cqPush dt x0 x1) := fun _ x0 x1 => ⟨fun d => .cqPush d x0 x1, rfl, fun _ => ⟨rfl, rfl⟩⟩
theorem cqFlush : ∀ dt x0, Statement (.cqFlush dt x0) := fun _ x0 => ⟨fun d => .cqFlush d x0, rfl, fun _ => ⟨rfl, rfl⟩⟩
theorem eqPop : ∀ dt x0, Statement (.eqPop dt x0) := fun _ x0 => ⟨fun d => .eqPop d x0, rfl, fun _ => ⟨rfl, rfl⟩⟩
theorem eqPopTimeout : ∀ dt x0, Statement (.eqPopTimeout dt x0) := fun _ x0 => ⟨fun d => .eqPopTimeout d x0, rfl, fun _ => ⟨rfl, rfl⟩⟩
theorem eqArm : ∀ dt x0 x1, Statement (.eqArm dt x0 x1) := fun _ x0 x1 => ⟨fun d => .eqArm d x0 x1, rfl, fun _ => ⟨rfl, rfl⟩⟩
theorem doorbell : ∀ dt x0, Statement (.doorbell dt x0) := fun _ x0 => ⟨fun d => .doorbell d x0, rfl, fun _ => ⟨rfl, rfl⟩⟩
theorem cplTimeout : ∀ dt x0 x1, Statement (.cplTimeout dt x0 x1) := fun _ x0 x1 => ⟨fun d => .cplTimeout d x0 x1, rfl, fun _ => ⟨rfl, rfl⟩⟩
theorem regionEvaluation : ∀ dt x0 x1, Statement (.regionEvaluation dt x0 x1) := fun _ x0 x1 => ⟨fun d => .regionEvaluation d x0 x1, rfl, fun _ => ⟨rfl, rfl⟩⟩
theorem photoRearm : ∀ dt x0 x1 x2, Statement (.photoRearm dt x0 x1 x2) := fun _ x0 x1 x2 => ⟨fun d => .photoRearm d x0 x1 x2, rfl, fun _ => ⟨rfl, rfl⟩⟩
theorem faultOccurrence : ∀ dt x0 x1, Statement (.faultOccurrence dt x0 x1) := fun _ x0 x1 => ⟨fun d => .faultOccurrence d x0 x1, rfl, fun _ => ⟨rfl, rfl⟩⟩
theorem limpFrameStart : ∀ dt x0, Statement (.limpFrameStart dt x0) := fun _ x0 => ⟨fun d => .limpFrameStart d x0, rfl, fun _ => ⟨rfl, rfl⟩⟩
theorem umpireSnapshot : ∀ dt x0, Statement (.umpireSnapshot dt x0) := fun _ x0 => ⟨fun d => .umpireSnapshot d x0, rfl, fun _ => ⟨rfl, rfl⟩⟩
theorem umpireClear : ∀ dt x0 x1, Statement (.umpireClear dt x0 x1) := fun _ x0 x1 => ⟨fun d => .umpireClear d x0 x1, rfl, fun _ => ⟨rfl, rfl⟩⟩
theorem umpireClassWrite : ∀ dt x0 x1 x2, Statement (.umpireClassWrite dt x0 x1 x2) := fun _ x0 x1 x2 => ⟨fun d => .umpireClassWrite d x0 x1 x2, rfl, fun _ => ⟨rfl, rfl⟩⟩
theorem c3Ack : ∀ dt x0 x1, Statement (.c3Ack dt x0 x1) := fun _ x0 x1 => ⟨fun d => .c3Ack d x0 x1, rfl, fun _ => ⟨rfl, rfl⟩⟩
theorem faultInject : ∀ dt x0 x1, Statement (.faultInject dt x0 x1) := fun _ x0 x1 => ⟨fun d => .faultInject d x0 x1, rfl, fun _ => ⟨rfl, rfl⟩⟩
theorem smuStart : ∀ dt x0 x1, Statement (.smuStart dt x0 x1) := fun _ x0 x1 => ⟨fun d => .smuStart d x0 x1, rfl, fun _ => ⟨rfl, rfl⟩⟩
theorem smuPulseEdge : ∀ dt x0, Statement (.smuPulseEdge dt x0) := fun _ x0 => ⟨fun d => .smuPulseEdge d x0, rfl, fun _ => ⟨rfl, rfl⟩⟩
theorem overrateClear : ∀ dt, Statement (.overrateClear dt) := fun _ => ⟨fun d => .overrateClear d, rfl, fun _ => ⟨rfl, rfl⟩⟩
theorem smuTick : ∀ dt, Statement (.smuTick dt) := fun _ => ⟨fun d => .smuTick d, rfl, fun _ => ⟨rfl, rfl⟩⟩
theorem indicationPost : ∀ dt x0 x1, Statement (.indicationPost dt x0 x1) := fun _ x0 x1 => ⟨fun d => .indicationPost d x0 x1, rfl, fun _ => ⟨rfl, rfl⟩⟩
theorem indicationGapTimeout : ∀ dt, Statement (.indicationGapTimeout dt) := fun _ => ⟨fun d => .indicationGapTimeout d, rfl, fun _ => ⟨rfl, rfl⟩⟩
theorem smuSealChange : ∀ dt x0, Statement (.smuSealChange dt x0) := fun _ x0 => ⟨fun d => .smuSealChange d x0, rfl, fun _ => ⟨rfl, rfl⟩⟩
theorem sealOpenTimeout : ∀ dt, Statement (.sealOpenTimeout dt) := fun _ => ⟨fun d => .sealOpenTimeout d, rfl, fun _ => ⟨rfl, rfl⟩⟩
theorem hire : ∀ dt x0, Statement (.hire dt x0) := fun _ x0 => ⟨fun d => .hire d x0, rfl, fun _ => ⟨rfl, rfl⟩⟩
theorem tariff : ∀ dt x0, Statement (.tariff dt x0) := fun _ x0 => ⟨fun d => .tariff d x0, rfl, fun _ => ⟨rfl, rfl⟩⟩
theorem stop : ∀ dt x0, Statement (.stop dt x0) := fun _ x0 => ⟨fun d => .stop d x0, rfl, fun _ => ⟨rfl, rfl⟩⟩
theorem endJourney : ∀ dt x0, Statement (.endJourney dt x0) := fun _ x0 => ⟨fun d => .endJourney d x0, rfl, fun _ => ⟨rfl, rfl⟩⟩
theorem supplement : ∀ dt x0, Statement (.supplement dt x0) := fun _ x0 => ⟨fun d => .supplement d x0, rfl, fun _ => ⟨rfl, rfl⟩⟩
theorem tripReset : ∀ dt x0, Statement (.tripReset dt x0) := fun _ x0 => ⟨fun d => .tripReset d x0, rfl, fun _ => ⟨rfl, rfl⟩⟩
theorem showId : ∀ dt x0, Statement (.showId dt x0) := fun _ x0 => ⟨fun d => .showId d x0, rfl, fun _ => ⟨rfl, rfl⟩⟩
theorem showIdEnd : ∀ dt, Statement (.showIdEnd dt) := fun _ => ⟨fun d => .showIdEnd d, rfl, fun _ => ⟨rfl, rfl⟩⟩
theorem timeOffset : ∀ dt x0, Statement (.timeOffset dt x0) := fun _ x0 => ⟨fun d => .timeOffset d x0, rfl, fun _ => ⟨rfl, rfl⟩⟩
theorem verifyChallenge : ∀ dt x0, Statement (.verifyChallenge dt x0) := fun _ x0 => ⟨fun d => .verifyChallenge d x0, rfl, fun _ => ⟨rfl, rfl⟩⟩
theorem verifyOpen : ∀ dt x0, Statement (.verifyOpen dt x0) := fun _ x0 => ⟨fun d => .verifyOpen d x0, rfl, fun _ => ⟨rfl, rfl⟩⟩
theorem paramWrite : ∀ dt x0, Statement (.paramWrite dt x0) := fun _ x0 => ⟨fun d => .paramWrite d x0, rfl, fun _ => ⟨rfl, rfl⟩⟩
theorem verifyClose : ∀ dt x0, Statement (.verifyClose dt x0) := fun _ x0 => ⟨fun d => .verifyClose d x0, rfl, fun _ => ⟨rfl, rfl⟩⟩
theorem verifyCloseTimeout : ∀ dt, Statement (.verifyCloseTimeout dt) := fun _ => ⟨fun d => .verifyCloseTimeout d, rfl, fun _ => ⟨rfl, rfl⟩⟩
theorem verifyInactivityTimeout : ∀ dt, Statement (.verifyInactivityTimeout dt) := fun _ => ⟨fun d => .verifyInactivityTimeout d, rfl, fun _ => ⟨rfl, rfl⟩⟩
theorem fwBlock : ∀ dt x0, Statement (.fwBlock dt x0) := fun _ x0 => ⟨fun d => .fwBlock d x0, rfl, fun _ => ⟨rfl, rfl⟩⟩
theorem logClear : ∀ dt x0, Statement (.logClear dt x0) := fun _ x0 => ⟨fun d => .logClear d x0, rfl, fun _ => ⟨rfl, rfl⟩⟩
theorem bootImageCheck : ∀ dt x0 x1, Statement (.bootImageCheck dt x0 x1) := fun _ x0 x1 => ⟨fun d => .bootImageCheck d x0 x1, rfl, fun _ => ⟨rfl, rfl⟩⟩
theorem revoke : ∀ dt x0 x1, Statement (.revoke dt x0 x1) := fun _ x0 x1 => ⟨fun d => .revoke d x0 x1, rfl, fun _ => ⟨rfl, rfl⟩⟩
theorem dbgChallengeRead : ∀ dt, Statement (.dbgChallengeRead dt) := fun _ => ⟨fun d => .dbgChallengeRead d, rfl, fun _ => ⟨rfl, rfl⟩⟩
theorem dbgUnlock : ∀ dt x0 x1, Statement (.dbgUnlock dt x0 x1) := fun _ x0 x1 => ⟨fun d => .dbgUnlock d x0 x1, rfl, fun _ => ⟨rfl, rfl⟩⟩
theorem dbgBackoffExpiry : ∀ dt, Statement (.dbgBackoffExpiry dt) := fun _ => ⟨fun d => .dbgBackoffExpiry d, rfl, fun _ => ⟨rfl, rfl⟩⟩
theorem securityAlarm : ∀ dt x0, Statement (.securityAlarm dt x0) := fun _ x0 => ⟨fun d => .securityAlarm d x0, rfl, fun _ => ⟨rfl, rfl⟩⟩
theorem alarmPolicyWrite : ∀ dt x0 x1, Statement (.alarmPolicyWrite dt x0 x1) := fun _ x0 x1 => ⟨fun d => .alarmPolicyWrite d x0 x1, rfl, fun _ => ⟨rfl, rfl⟩⟩
theorem provisionWindowExpiry : ∀ dt, Statement (.provisionWindowExpiry dt) := fun _ => ⟨fun d => .provisionWindowExpiry d, rfl, fun _ => ⟨rfl, rfl⟩⟩
theorem modeRequest : ∀ dt x0 x1, Statement (.modeRequest dt x0 x1) := fun _ x0 x1 => ⟨fun d => .modeRequest d x0 x1, rfl, fun _ => ⟨rfl, rfl⟩⟩
theorem launchComplete : ∀ dt, Statement (.launchComplete dt) := fun _ => ⟨fun d => .launchComplete d, rfl, fun _ => ⟨rfl, rfl⟩⟩
theorem fullSelftestDone : ∀ dt x0 x1 x2 x3, Statement (.fullSelftestDone dt x0 x1 x2 x3) := fun _ x0 x1 x2 x3 => ⟨fun d => .fullSelftestDone d x0 x1 x2 x3, rfl, fun _ => ⟨rfl, rfl⟩⟩
theorem sleepRequest : ∀ dt x0 x1, Statement (.sleepRequest dt x0 x1) := fun _ x0 x1 => ⟨fun d => .sleepRequest d x0 x1, rfl, fun _ => ⟨rfl, rfl⟩⟩
theorem sleepComplete : ∀ dt, Statement (.sleepComplete dt) := fun _ => ⟨fun d => .sleepComplete d, rfl, fun _ => ⟨rfl, rfl⟩⟩
theorem wake : ∀ dt x0, Statement (.wake dt x0) := fun _ x0 => ⟨fun d => .wake d x0, rfl, fun _ => ⟨rfl, rfl⟩⟩
theorem resetN : ∀ dt x0, Statement (.resetN dt x0) := fun _ x0 => ⟨fun d => .resetN d x0, rfl, fun _ => ⟨rfl, rfl⟩⟩
theorem resetRelease : ∀ dt x0, Statement (.resetRelease dt x0) := fun _ x0 => ⟨fun d => .resetRelease d x0, rfl, fun _ => ⟨rfl, rfl⟩⟩
theorem supplyFault : ∀ dt x0 x1, Statement (.supplyFault dt x0 x1) := fun _ x0 x1 => ⟨fun d => .supplyFault d x0 x1, rfl, fun _ => ⟨rfl, rfl⟩⟩
theorem vstbyApplied : ∀ dt, Statement (.vstbyApplied dt) := fun _ => ⟨fun d => .vstbyApplied d, rfl, fun _ => ⟨rfl, rfl⟩⟩
theorem powerCycle : ∀ dt, Statement (.powerCycle dt) := fun _ => ⟨fun d => .powerCycle d, rfl, fun _ => ⟨rfl, rfl⟩⟩
theorem throttleRaise : ∀ dt, Statement (.throttleRaise dt) := fun _ => ⟨fun d => .throttleRaise d, rfl, fun _ => ⟨rfl, rfl⟩⟩
theorem throttleLower : ∀ dt, Statement (.throttleLower dt) := fun _ => ⟨fun d => .throttleLower d, rfl, fun _ => ⟨rfl, rfl⟩⟩
theorem silithLinkUp : ∀ dt x0 x1 x2 x3 x4 x5 x6, Statement (.silithLinkUp dt x0 x1 x2 x3 x4 x5 x6) := fun _ x0 x1 x2 x3 x4 x5 x6 => ⟨fun d => .silithLinkUp d x0 x1 x2 x3 x4 x5 x6, rfl, fun _ => ⟨rfl, rfl⟩⟩
theorem silithLinkRetry : ∀ dt x0, Statement (.silithLinkRetry dt x0) := fun _ x0 => ⟨fun d => .silithLinkRetry d x0, rfl, fun _ => ⟨rfl, rfl⟩⟩
theorem silithLinkLost : ∀ dt x0, Statement (.silithLinkLost dt x0) := fun _ x0 => ⟨fun d => .silithLinkLost d x0, rfl, fun _ => ⟨rfl, rfl⟩⟩
theorem frameStartMarker : ∀ dt x0, Statement (.frameStartMarker dt x0) := fun _ x0 => ⟨fun d => .frameStartMarker d x0, rfl, fun _ => ⟨rfl, rfl⟩⟩
theorem markerLate : ∀ dt x0, Statement (.markerLate dt x0) := fun _ x0 => ⟨fun d => .markerLate d x0, rfl, fun _ => ⟨rfl, rfl⟩⟩
theorem leavingMarker : ∀ dt, Statement (.leavingMarker dt) := fun _ => ⟨fun d => .leavingMarker d, rfl, fun _ => ⟨rfl, rfl⟩⟩
theorem masterKeepaliveTimeout : ∀ dt, Statement (.masterKeepaliveTimeout dt) := fun _ => ⟨fun d => .masterKeepaliveTimeout d, rfl, fun _ => ⟨rfl, rfl⟩⟩
theorem forwardTimeout : ∀ dt x0, Statement (.forwardTimeout dt x0) := fun _ x0 => ⟨fun d => .forwardTimeout d x0, rfl, fun _ => ⟨rfl, rfl⟩⟩
theorem nodeSummary : ∀ dt x0 x1 x2 x3 x4, Statement (.nodeSummary dt x0 x1 x2 x3 x4) := fun _ x0 x1 x2 x3 x4 => ⟨fun d => .nodeSummary d x0 x1 x2 x3 x4, rfl, fun _ => ⟨rfl, rfl⟩⟩
theorem eventTx : ∀ dt x0 x1, Statement (.eventTx dt x0 x1) := fun _ x0 x1 => ⟨fun d => .eventTx d x0 x1, rfl, fun _ => ⟨rfl, rfl⟩⟩
theorem spanResync : ∀ dt x0, Statement (.spanResync dt x0) := fun _ x0 => ⟨fun d => .spanResync d x0, rfl, fun _ => ⟨rfl, rfl⟩⟩
theorem xtal32Fault : ∀ dt, Statement (.xtal32Fault dt) := fun _ => ⟨fun d => .xtal32Fault d, rfl, fun _ => ⟨rfl, rfl⟩⟩
theorem xtal32RcWindowEnd : ∀ dt, Statement (.xtal32RcWindowEnd dt) := fun _ => ⟨fun d => .xtal32RcWindowEnd d, rfl, fun _ => ⟨rfl, rfl⟩⟩
theorem vstbyRemoved : ∀ dt, Statement (.vstbyRemoved dt) := fun _ => ⟨fun d => .vstbyRemoved d, rfl, fun _ => ⟨rfl, rfl⟩⟩
theorem arpRequest : ∀ dt x0 x1, Statement (.arpRequest dt x0 x1) := fun _ x0 x1 => ⟨fun d => .arpRequest d x0 x1, rfl, fun _ => ⟨rfl, rfl⟩⟩
theorem icmpEchoRequest : ∀ dt x0 x1 x2, Statement (.icmpEchoRequest dt x0 x1 x2) := fun _ x0 x1 x2 => ⟨fun d => .icmpEchoRequest d x0 x1 x2, rfl, fun _ => ⟨rfl, rfl⟩⟩
theorem domainIdleOff : ∀ dt x0, Statement (.domainIdleOff dt x0) := fun _ x0 => ⟨fun d => .domainIdleOff d x0, rfl, fun _ => ⟨rfl, rfl⟩⟩
theorem limpRecordLoaded : ∀ dt x0, Statement (.limpRecordLoaded dt x0) := fun _ x0 => ⟨fun d => .limpRecordLoaded d x0, rfl, fun _ => ⟨rfl, rfl⟩⟩
theorem planBuilt : ∀ dt, Statement (.planBuilt dt) := fun _ => ⟨fun d => .planBuilt d, rfl, fun _ => ⟨rfl, rfl⟩⟩
theorem masterBack : ∀ dt, Statement (.masterBack dt) := fun _ => ⟨fun d => .masterBack d, rfl, fun _ => ⟨rfl, rfl⟩⟩

end Sys2Proof.Laws.Timed
end

