-- ==== Sys2Proof/Laws/PlanPorts.lean ====
section
/-! SUPPORT. Laws of the plan: its outputs do not depend on the host ports (06 R141). -/

namespace Sys2Proof.Machine

set_option maxRecDepth 20000

/-- A state with other host ports and event counts. -/
abbrev State.withPorts (s : State) (ports : Tab Port) (status : Tab Status) : State := { s with ports := ports, status := status }
theorem withWrite_withPorts (s : State) (p : Tab Port) (q : Tab Status) (w : Staged) : (State.withPorts s p q).withWrite w = State.withPorts (s.withWrite w) p q := by
  cases w with
  | obj key v =>
    unfold State.withWrite
    dsimp only
    split <;> rfl
  | surfacePin l m => rfl
  | regionPin n a b m => rfl
  | program h l =>
    show (State.withPorts s p q).activate h = State.withPorts (s.activate h) p q
    unfold State.activate
    have e : (State.withPorts s p q).programs = s.programs := rfl
    rw [e]
    cases tabFind s.programs h <;> rfl
theorem withWrites_withPorts (s : State) (p : Tab Port) (q : Tab Status) (ws : List Staged) : (State.withPorts s p q).withWrites ws = State.withPorts (s.withWrites ws) p q := by
  unfold State.withWrites
  induction ws generalizing s with
  | nil => rfl
  | cons w ws ih => rw [List.foldl_cons, List.foldl_cons, withWrite_withPorts, ih]
theorem withPending_withPorts (s : State) (p : Tab Port) (q : Tab Status) (leave : List Nat) : (State.withPorts s p q).withPending leave = State.withPorts (s.withPending leave) p q := by
  have go (l : List Commit) (t : State) : l.foldl (fun t k => if leave.contains k.seq then t else t.withWrites k.writes) (State.withPorts t p q) =
      State.withPorts (l.foldl (fun t k => if leave.contains k.seq then t else t.withWrites k.writes) t) p q := by
    induction l generalizing t with
    | nil => rfl
    | cons k l ih =>
      rw [List.foldl_cons, List.foldl_cons]
      split
      · exact ih t
      · rw [withWrites_withPorts, ih]
  exact go s.commits s
theorem surfaceUsers_withPorts (s : State) (p : Tab Port) (q : Tab Status) : (State.withPorts s p q).surfaceUsers = s.surfaceUsers := by with_unfolding_all rfl
theorem surfaceLayers_withPorts (s : State) (p : Tab Port) (q : Tab Status) : (State.withPorts s p q).surfaceLayers = s.surfaceLayers := by with_unfolding_all rfl
theorem placedFirst_withPorts (s : State) (p : Tab Port) (q : Tab Status) : (State.withPorts s p q).placedFirst = s.placedFirst := by with_unfolding_all rfl
theorem storagePin_withPorts (s : State) (p : Tab Port) (q : Tab Status) : (State.withPorts s p q).storagePin = s.storagePin := by with_unfolding_all rfl
theorem sharers_withPorts (s : State) (p : Tab Port) (q : Tab Status) : (State.withPorts s p q).sharers = s.sharers := by with_unfolding_all rfl
theorem storageBytes_withPorts (s : State) (p : Tab Port) (q : Tab Status) : (State.withPorts s p q).storageBytes = s.storageBytes := by with_unfolding_all rfl
theorem mandatory_withPorts (s : State) (p : Tab Port) (q : Tab Status) : (State.withPorts s p q).mandatory = s.mandatory := by with_unfolding_all rfl
theorem flatFirst_withPorts (s : State) (p : Tab Port) (q : Tab Status) : (State.withPorts s p q).flatFirst = s.flatFirst := by with_unfolding_all rfl
theorem residenceIn_withPorts (s : State) (p : Tab Port) (q : Tab Status) : (State.withPorts s p q).residenceIn = s.residenceIn := by with_unfolding_all rfl
theorem laneOn_withPorts (s : State) (p : Tab Port) (q : Tab Status) : (State.withPorts s p q).laneOn = s.laneOn := by with_unfolding_all rfl
theorem allTiles_withPorts (s : State) (p : Tab Port) (q : Tab Status) : (State.withPorts s p q).allTiles = s.allTiles := by with_unfolding_all rfl
theorem enabledSlots_withPorts (s : State) (p : Tab Port) (q : Tab Status) : (State.withPorts s p q).enabledSlots = s.enabledSlots := by with_unfolding_all rfl
theorem lineRing_withPorts (s : State) (p : Tab Port) (q : Tab Status) : (State.withPorts s p q).lineRing = s.lineRing := by with_unfolding_all rfl
theorem frameRing_withPorts (s : State) (p : Tab Port) (q : Tab Status) : (State.withPorts s p q).frameRing = s.frameRing := by with_unfolding_all rfl
theorem streamH_withPorts (s : State) (p : Tab Port) (q : Tab Status) : (State.withPorts s p q).streamH = s.streamH := by with_unfolding_all rfl
theorem ringLine_withPorts (s : State) (p : Tab Port) (q : Tab Status) : (State.withPorts s p q).ringLine = s.ringLine := by with_unfolding_all rfl
theorem tileRows_withPorts (s : State) (p : Tab Port) (q : Tab Status) : (State.withPorts s p q).tileRows = s.tileRows := by with_unfolding_all rfl
theorem rowPin_withPorts (s : State) (p : Tab Port) (q : Tab Status) : (State.withPorts s p q).rowPin = s.rowPin := by with_unfolding_all rfl
theorem tileCols_withPorts (s : State) (p : Tab Port) (q : Tab Status) : (State.withPorts s p q).tileCols = s.tileCols := by with_unfolding_all rfl
theorem healthyIn_withPorts (s : State) (p : Tab Port) (q : Tab Status) : (State.withPorts s p q).healthyIn = s.healthyIn := by with_unfolding_all rfl
theorem rowWindow_withPorts (s : State) (p : Tab Port) (q : Tab Status) : (State.withPorts s p q).rowWindow = s.rowWindow := by with_unfolding_all rfl
theorem shellsFor_withPorts (s : State) (p : Tab Port) (q : Tab Status) : (State.withPorts s p q).shellsFor = s.shellsFor := by with_unfolding_all rfl
theorem pinMask_withPorts (s : State) (p : Tab Port) (q : Tab Status) : (State.withPorts s p q).pinMask = s.pinMask := by with_unfolding_all rfl
theorem leadSet_withPorts (s : State) (p : Tab Port) (q : Tab Status) : (State.withPorts s p q).leadSet = s.leadSet := by with_unfolding_all rfl
theorem lyr_withPorts (s : State) (p : Tab Port) (q : Tab Status) : (State.withPorts s p q).lyr = s.lyr := by with_unfolding_all rfl
theorem sameSurface_withPorts (s : State) (p : Tab Port) (q : Tab Status) : (State.withPorts s p q).sameSurface = s.sameSurface := by with_unfolding_all rfl
theorem tilesIn_withPorts (s : State) (p : Tab Port) (q : Tab Status) : (State.withPorts s p q).tilesIn = s.tilesIn := by with_unfolding_all rfl
theorem shown_withPorts (s : State) (p : Tab Port) (q : Tab Status) : (State.withPorts s p q).shown = s.shown := by with_unfolding_all rfl
theorem tileRates_withPorts (s : State) (p : Tab Port) (q : Tab Status) : (State.withPorts s p q).tileRates = s.tileRates := by with_unfolding_all rfl
theorem layerBits_withPorts (s : State) (p : Tab Port) (q : Tab Status) : (State.withPorts s p q).layerBits = s.layerBits := by with_unfolding_all rfl
theorem crop_withPorts (s : State) (p : Tab Port) (q : Tab Status) : (State.withPorts s p q).crop = s.crop := by with_unfolding_all rfl
theorem dstSize_withPorts (s : State) (p : Tab Port) (q : Tab Status) : (State.withPorts s p q).dstSize = s.dstSize := by with_unfolding_all rfl
theorem layerProgram_withPorts (s : State) (p : Tab Port) (q : Tab Status) : (State.withPorts s p q).layerProgram = s.layerProgram := by with_unfolding_all rfl
theorem scaled_withPorts (s : State) (p : Tab Port) (q : Tab Status) : (State.withPorts s p q).scaled = s.scaled := by with_unfolding_all rfl
theorem slotsOf_withPorts (s : State) (p : Tab Port) (q : Tab Status) : (State.withPorts s p q).slotsOf = s.slotsOf := by with_unfolding_all rfl
theorem program_withPorts (s : State) (p : Tab Port) (q : Tab Status) : (State.withPorts s p q).program = s.program := by with_unfolding_all rfl
theorem tileInput_withPorts (s : State) (p : Tab Port) (q : Tab Status) : (State.withPorts s p q).tileInput = s.tileInput := by
  funext l
  simp only [State.tileInput, lyr_withPorts, layerBits_withPorts, crop_withPorts, dstSize_withPorts, layerProgram_withPorts, scaled_withPorts, slotsOf_withPorts, program_withPorts]
  try rfl
theorem readRate_withPorts (s : State) (p : Tab Port) (q : Tab Status) : (State.withPorts s p q).readRate = s.readRate := by
  funext l
  simp only [State.readRate, lyr_withPorts, sameSurface_withPorts, tilesIn_withPorts, shown_withPorts, tileRates_withPorts, tileInput_withPorts]
  try rfl
theorem byDensity_withPorts (s : State) (p : Tab Port) (q : Tab Status) : (State.withPorts s p q).byDensity = s.byDensity := by
  funext l
  simp only [State.byDensity, readRate_withPorts, storageBytes_withPorts]
  try rfl
theorem stack_withPorts (s : State) (p : Tab Port) (q : Tab Status) : (State.withPorts s p q).stack = s.stack := by with_unfolding_all rfl
theorem layerClocks_withPorts (s : State) (p : Tab Port) (q : Tab Status) : (State.withPorts s p q).layerClocks = s.layerClocks := by with_unfolding_all rfl
theorem rawSource_withPorts (s : State) (p : Tab Port) (q : Tab Status) : (State.withPorts s p q).rawSource = s.rawSource := by with_unfolding_all rfl
theorem stepClocks_withPorts (s : State) (p : Tab Port) (q : Tab Status) : (State.withPorts s p q).stepClocks = s.stepClocks := by
  funext k w
  simp only [State.stepClocks, rawSource_withPorts]
  try rfl
theorem safetyOf_withPorts (s : State) (p : Tab Port) (q : Tab Status) : (State.withPorts s p q).safetyOf = s.safetyOf := by with_unfolding_all rfl
theorem indCovers_withPorts (s : State) (p : Tab Port) (q : Tab Status) : (State.withPorts s p q).indCovers = s.indCovers := by with_unfolding_all rfl
theorem tileLayers_withPorts (s : State) (p : Tab Port) (q : Tab Status) : (State.withPorts s p q).tileLayers = s.tileLayers := by with_unfolding_all rfl
theorem tileCost_withPorts (s : State) (p : Tab Port) (q : Tab Status) : (State.withPorts s p q).tileCost = s.tileCost := by
  funext n k
  simp only [State.tileCost, stack_withPorts, layerClocks_withPorts, program_withPorts, stepClocks_withPorts, safetyOf_withPorts, indCovers_withPorts, tileLayers_withPorts]
  try rfl
theorem rowCost_withPorts (s : State) (p : Tab Port) (q : Tab Status) : (State.withPorts s p q).rowCost = s.rowCost := by
  funext n r
  simp only [State.rowCost, tileCols_withPorts, tileCost_withPorts]
  try rfl
theorem boathouseFill_withPorts (s : State) (p : Tab Port) (q : Tab Status) : (State.withPorts s p q).boathouseFill = s.boathouseFill := by
  simp only [State.boathouseFill, surfaceLayers_withPorts, placedFirst_withPorts, storagePin_withPorts, sharers_withPorts, storageBytes_withPorts, mandatory_withPorts, flatFirst_withPorts, lyr_withPorts, byDensity_withPorts]
  try rfl
theorem rowExcess_withPorts (s : State) (p : Tab Port) (q : Tab Status) : (State.withPorts s p q).rowExcess = s.rowExcess := by
  funext n r k
  simp only [State.rowExcess, tileCols_withPorts, rowCost_withPorts, rowWindow_withPorts]
  try rfl
theorem shellsNeeded_withPorts (s : State) (p : Tab Port) (q : Tab Status) : (State.withPorts s p q).shellsNeeded = s.shellsNeeded := by
  funext n
  simp only [State.shellsNeeded, tileRows_withPorts, rowPin_withPorts, rowExcess_withPorts, healthyIn_withPorts]
  try rfl
theorem assignShells_withPorts (s : State) (p : Tab Port) (q : Tab Status) : (State.withPorts s p q).assignShells = s.assignShells := by
  simp only [State.assignShells, shellsFor_withPorts, shellsNeeded_withPorts, pinMask_withPorts, leadSet_withPorts, laneOn_withPorts]
  try rfl
theorem allotment_withPorts (s : State) (p : Tab Port) (q : Tab Status) : (State.withPorts s p q).allotment = s.allotment := by
  funext n
  simp only [State.allotment, State.flatNeed, State.flatTotal, laneOn_withPorts, allTiles_withPorts, flatFirst_withPorts, boathouseFill_withPorts]
  rfl
theorem planOutputs_withPorts (s : State) (p : Tab Port) (q : Tab Status) : (State.withPorts s p q).planOutputs = s.planOutputs := by
  simp only [State.planOutputs, State.inBoathouse, surfaceUsers_withPorts, boathouseFill_withPorts, residenceIn_withPorts, assignShells_withPorts, laneOn_withPorts,
    allotment_withPorts, enabledSlots_withPorts, lineRing_withPorts, frameRing_withPorts, streamH_withPorts, ringLine_withPorts]
  rfl

/-- A host port's width and speed move no output of the plan. -/
theorem planOutputs_retrain (s : State) (p lanes speed : Nat) (leave : List Nat) :
    (((s.modPort p (fun y => { y with lanes := lanes, speed := speed })).raise (hostStatus p) [2]).withPending leave).planOutputs =
      (s.withPending leave).planOutputs := by
  show ((State.withPorts s _ _).withPending leave).planOutputs = _
  rw [withPending_withPorts, planOutputs_withPorts]

end Sys2Proof.Machine
end

