-- ==== Sys2Proof/Tests/Slice0.lean ====
section
/-! SUPPORT. Tests: commands that are ill formed, a witness for each clause of the statements, single steps on small states. -/

namespace Sys2Proof.Tests

open Sys2Proof Sys2Proof.Machine

set_option maxRecDepth 20000
set_option Elab.async false

/-! ### Small states -/

/-- RUN with every domain on, the classes loaded and host port 0 up; crew 1 can be reached. -/
def up : State :=
  { State.reset with
    modes := { blankModes with mode := .run, step := .ready }
    power := { blankPower with on := 2 ^ 96 - 1 }
    umpire := { blankUmpire with loaded := true, nfaultLow := false }
    ports := [(0, { blankPort with linkUp := true, vfEnable := true, numVfs := 4 })] }

/-- An access of host port 0 through crew 0's window. -/
def at0 (a : Nat) : Acc := { master := .host 0, crew := 0, addr := a }

/-! ### Ill-formed commands: a term for each check -/

/-- An access in range, a request in range. -/
def b : Acc := { master := .spi, crew := 0, addr := 0 }
def q : Req := { node := 3, tag := 15, index := 0xFFFF, sub := 255, dir := false, offset := 0, length := 0, data := [] }

theorem test_illFormed_dictionary_02_a : ∀ c ∈ ([
    .read 0 (.can 2 0) q, .read 0 (.can 0 256) q, .read 0 (.eth 2 0 0) q, .read 0 (.mailbox 512) q, .read 0 (.can 0 0) { q with node := 4 },
    .read 0 (.can 0 0) { q with tag := 16 }, .read 0 (.can 0 0) { q with index := 0x1_0000 }, .read 0 (.can 0 0) { q with sub := 256 },
    .write 0 (.can 2 0) q, .write 0 (.can 0 256) q, .write 0 (.eth 2 0 0) q, .write 0 (.mailbox 512) q, .write 0 (.can 0 0) { q with node := 4 },
    .write 0 (.can 0 0) { q with tag := 16 }, .write 0 (.can 0 0) { q with index := 0x1_0000 }, .write 0 (.can 0 0) { q with sub := 256 }] : List Instr), c.wf = false := by decide
theorem test_illFormed_dictionary_02_b : ∀ c ∈ ([
    .describe 0 (.can 2 0) q, .describe 0 (.can 0 256) q, .describe 0 (.eth 2 0 0) q, .describe 0 (.mailbox 512) q,
    .describe 0 (.can 0 0) { q with node := 4 }, .describe 0 (.can 0 0) { q with tag := 16 }, .describe 0 (.can 0 0) { q with index := 0x1_0000 },
    .describe 0 (.can 0 0) { q with sub := 256 }, .segReadInit 0 2 0 q, .segReadInit 0 0 256 q, .segReadInit 0 0 0 { q with node := 4 },
    .segReadInit 0 0 0 { q with tag := 16 }, .segReadInit 0 0 0 { q with index := 0x1_0000 }, .segReadInit 0 0 0 { q with sub := 256 },
    .segWriteInit 0 2 0 q, .segWriteInit 0 0 256 q] : List Instr), c.wf = false := by decide
theorem test_illFormed_dictionary_02_c : ∀ c ∈ ([
    .segWriteInit 0 0 0 { q with node := 4 }, .segWriteInit 0 0 0 { q with tag := 16 }, .segWriteInit 0 0 0 { q with index := 0x1_0000 },
    .segWriteInit 0 0 0 { q with sub := 256 }, .segData 0 2 0 ⟨0, false⟩ 0 0 [], .segData 0 0 256 ⟨0, false⟩ 0 0 [], .segData 0 0 0 ⟨4, false⟩ 0 0 [],
    .segData 0 0 0 ⟨0, false⟩ 16 0 [], .segAck 0 2 0 ⟨0, false⟩ 0 0, .segAck 0 0 256 ⟨0, false⟩ 0 0, .segAck 0 0 0 ⟨4, false⟩ 0 0, .segAck 0 0 0 ⟨0, false⟩ 16 0,
    .cancel 0 2 0 ⟨0, false⟩ 0, .cancel 0 0 256 ⟨0, false⟩ 0, .cancel 0 0 0 ⟨4, false⟩ 0, .cancel 0 0 0 ⟨0, false⟩ 16] : List Instr), c.wf = false := by decide
theorem test_illFormed_dictionary_02_d : ∀ c ∈ ([
    .segTimeout 0 2 0 0, .segTimeout 0 0 256 0, .segTimeout 0 0 0 4, .udpDatagram 0 2 0 0 [], .mbxGo 0 512 0, .mbxRequestBufferWrite 0 512 0 0,
    .mbxDone 0 512, .functionLevelReset 0 4 0, .functionLevelReset 0 0 128, .resyncRequest 0 512 0, .resyncRequest 0 0 (2 ^ 32)] : List Instr), c.wf = false := by decide
theorem test_wellFormed_dictionary_02_a : ∀ c ∈ ([
    .read 0 (.can 0 0) q, .write 0 (.can 0 0) q, .describe 0 (.can 0 0) q, .segReadInit 0 0 0 q, .segWriteInit 0 0 0 q,
    .segData 0 0 0 ⟨0, false⟩ 0 0 [], .segAck 0 0 0 ⟨0, false⟩ 0 0, .cancel 0 0 0 ⟨0, false⟩ 0, .segTimeout 0 0 0 0, .udpDatagram 0 0 0 0 [], .mbxGo 0 0 0,
    .mbxRequestBufferWrite 0 0 0 0, .mbxDone 0 0, .functionLevelReset 0 0 0, .resyncRequest 0 0 0] : List Instr), c.wf = true := by decide
theorem test_illFormed_registers_03_a : ∀ c ∈ ([
    .setAliasWrite 0 { b with crew := 512 } 0, .setAliasWrite 0 { b with addr := 2 ^ 32 } 0, .clearAliasWrite 0 { b with crew := 512 } 0,
    .clearAliasWrite 0 { b with addr := 2 ^ 32 } 0, .toggleAliasWrite 0 { b with crew := 512 } 0, .toggleAliasWrite 0 { b with addr := 2 ^ 32 } 0,
    .statusWriteBack 0 { b with crew := 512 } 0, .statusWriteBack 0 { b with addr := 2 ^ 32 } 0, .keyAWrite 0 { b with crew := 512 } 0,
    .keyAWrite 0 { b with addr := 2 ^ 32 } 0, .keyBWrite 0 { b with crew := 512 } 0, .keyBWrite 0 { b with addr := 2 ^ 32 } 0,
    .loReadLatch 0 ⟨{ b with crew := 512 }, 0⟩, .loReadLatch 0 ⟨{ b with addr := 2 ^ 32 }, 0⟩, .loReadLatch 0 ⟨b, 8 + 1⟩,
    .countsSnapshot 0 { b with crew := 512 }] : List Instr), c.wf = false := by decide
theorem test_illFormed_registers_03_b : ∀ c ∈ ([
    .countsSnapshot 0 { b with addr := 2 ^ 32 }, .registerWrite 0 { b with crew := 512 } ⟨0, none⟩, .registerWrite 0 { b with addr := 2 ^ 32 } ⟨0, none⟩,
    .unimplAccess 0 { b with crew := 512 } false 0 0, .unimplAccess 0 { b with addr := 2 ^ 32 } false 0 0,
    .stallTimeout 0 { b with crew := 512 } false, .stallTimeout 0 { b with addr := 2 ^ 32 } false, .spiRead 0 (2 ^ 32), .spiWrite 0 (2 ^ 32) 0,
    .spiBadCommand 0 256, .wakeFailed 0 96] : List Instr), c.wf = false := by decide
theorem test_wellFormed_registers_03_a : ∀ c ∈ ([
    .setAliasWrite 0 b 0, .clearAliasWrite 0 b 0, .toggleAliasWrite 0 b 0, .statusWriteBack 0 b 0, .keyAWrite 0 b 0, .keyBWrite 0 b 0,
    .loReadLatch 0 ⟨b, 0⟩, .countsSnapshot 0 b, .registerWrite 0 b ⟨0, none⟩, .unimplAccess 0 b false 0 0, .stallTimeout 0 b false, .spiRead 0 0,
    .spiWrite 0 0 0, .spiBadCommand 0 0, .wakeFailed 0 0] : List Instr), c.wf = true := by decide
theorem test_illFormed_layers_and_commits_04_a : ∀ c ∈ ([
    .layerCreate 0 512, .layerDestroy 0 512, .layerSet 0 512, .commit 0 512, .fenceWait 0 512, .fenceWaitPoll 0 512, .fenceWaitExpired 0 512,
    .fenceSignal 0 512, .malformedItem 0 512, .commitAcceptance 0 512, .laneCommitWrite 0 { b with crew := 512 } 0 0,
    .laneCommitWrite 0 { b with addr := 2 ^ 32 } 0 0, .laneCommitWrite 0 b 8 0, .fenceRead 0 8, .laneCatch 0 8, .retimeF0Start 0 8] : List Instr), c.wf = false := by decide
theorem test_illFormed_layers_and_commits_04_b : ∀ c ∈ ([
    .presented 0 8] : List Instr), c.wf = false := by decide
theorem test_wellFormed_layers_and_commits_04_a : ∀ c ∈ ([
    .layerCreate 0 0, .layerDestroy 0 0, .layerSet 0 0, .commit 0 0, .fenceWait 0 0, .fenceWaitPoll 0 0, .fenceWaitExpired 0 0, .fenceSignal 0 0,
    .malformedItem 0 0, .commitAcceptance 0 0, .laneCommitWrite 0 b 0 0, .fenceRead 0 0, .laneCatch 0 0, .retimeF0Start 0 0, .presented 0 0] : List Instr), c.wf = true := by decide
theorem test_illFormed_lanes_and_composition_05_07_a : ∀ c ∈ ([
    .frameStart 0 8, .quarterWake 0 (2 ^ 64), .rowRelease 0 8 0, .tileWrite 0 8 0 0, .rowClose 0 8 0, .portStall 0 8 0 0 0 false,
    .selfRefreshEntry 0 8, .vrrPorchMin 0 8, .heatComplete 0 8, .vrrMaxFrontPorch 0 8] : List Instr), c.wf = false := by decide
theorem test_wellFormed_lanes_and_composition_05_07_a : ∀ c ∈ ([
    .frameStart 0 0, .quarterWake 0 0, .rowRelease 0 0 0, .tileWrite 0 0 0 0, .rowClose 0 0 0, .portStall 0 0 0 0 0 false, .selfRefreshEntry 0 0,
    .vrrPorchMin 0 0, .heatComplete 0 0, .vrrMaxFrontPorch 0 0] : List Instr), c.wf = true := by decide
theorem test_illFormed_ports_and_clocks_08_a : ∀ c ∈ ([
    .edpBringup 0 8 none, .linkTrainingAttempt 0 8 false, .hpdTimeout 0 8, .hpdRise 0 8, .hpdUnplug 0 8, .hpdIrq 0 8 false, .dsiBringup 0 8 false,
    .teEdge 0 8 false, .dsiCmdSend 0 8 none, .blpwmPeriodStart 0 8, .pclkLock 0 8, .pclkUnlock 0 8] : List Instr), c.wf = false := by decide
theorem test_wellFormed_ports_and_clocks_08_a : ∀ c ∈ ([
    .edpBringup 0 0 none, .linkTrainingAttempt 0 0 false, .hpdTimeout 0 0, .hpdRise 0 0, .hpdUnplug 0 0, .hpdIrq 0 0 false, .dsiBringup 0 0 false,
    .teEdge 0 0 false, .dsiCmdSend 0 0 none, .blpwmPeriodStart 0 0, .pclkLock 0 0, .pclkUnlock 0 0] : List Instr), c.wf = true := by decide
theorem test_illFormed_cameras_09_a : ∀ c ∈ ([
    .csiFrameStart 0 8 ⟨0, 0⟩, .csiFrameStart 0 0 ⟨16, 0⟩, .csiLongPacket 0 8 0 0 0 false [], .csiLongPacket 0 0 16 0 0 false [], .csiFrameEnd 0 8 ⟨0, 0⟩,
    .csiFrameEnd 0 0 ⟨16, 0⟩, .lineLanded 0 8 0 0, .lineLanded 0 0 4 0, .streamLost 0 8 0, .streamLost 0 0 4, .bandAbandoned 0 8 0 0,
    .bandAbandoned 0 0 4 0, .processedLineSignal 0 8 0, .processedLineSignal 0 0 4, .forwardDone 0 8 0, .forwardDone 0 0 4] : List Instr), c.wf = false := by decide
theorem test_wellFormed_cameras_09_a : ∀ c ∈ ([
    .csiFrameStart 0 0 ⟨0, 0⟩, .csiLongPacket 0 0 0 0 0 false [], .csiFrameEnd 0 0 ⟨0, 0⟩, .lineLanded 0 0 0 0, .streamLost 0 0 0, .bandAbandoned 0 0 0 0,
    .processedLineSignal 0 0 0, .forwardDone 0 0 0] : List Instr), c.wf = true := by decide
theorem test_illFormed_programs_writeback_placement_05_06_a : ∀ c ∈ ([
    .programSet 0 512, .programReady 0 512, .programDelete 0 512, .writebackDone 0 8, .writebackAbandoned 0 8, .residenceCopyDone 0 2048, .pin 0 512,
    .scrubPass 0 false 8 [] []] : List Instr), c.wf = false := by decide
theorem test_wellFormed_programs_writeback_placement_05_06_a : ∀ c ∈ ([
    .programSet 0 0, .programReady 0 0, .programDelete 0 0, .writebackDone 0 0, .writebackAbandoned 0 0, .residenceCopyDone 0 0, .pin 0 0,
    .scrubPass 0 false 0 [] []] : List Instr), c.wf = true := by decide
theorem test_illFormed_blits_10_a : ∀ c ∈ ([
    .fill 0 512, .copy 0 512, .blendCopy 0 512, .rect 0 512, .line 0 512, .glyph 0 512, .blitDone 0 512] : List Instr), c.wf = false := by decide
theorem test_wellFormed_blits_10_a : ∀ c ∈ ([
    .fill 0 0, .copy 0 0, .blendCopy 0 0, .rect 0 0, .line 0 0, .glyph 0 0, .blitDone 0 0] : List Instr), c.wf = true := by decide
theorem test_illFormed_mover_and_utility_DMA_10_a : ∀ c ∈ ([
    .moverStart 0 { b with crew := 512 } 0, .moverStart 0 { b with addr := 2 ^ 32 } 0, .moverStart 0 b 64, .moverResume 0 { b with crew := 512 } 0,
    .moverResume 0 { b with addr := 2 ^ 32 } 0, .moverResume 0 b 64, .moverAbort 0 { b with crew := 512 } 0,
    .moverAbort 0 { b with addr := 2 ^ 32 } 0, .moverAbort 0 b 64, .moverSwReq 0 { b with crew := 512 } 0, .moverSwReq 0 { b with addr := 2 ^ 32 } 0,
    .moverSwReq 0 b 64, .swLineWrite 0 { b with crew := 512 } 0, .swLineWrite 0 { b with addr := 2 ^ 32 } 0, .requestEdge 0 64,
    .moverBurstStart 0 64] : List Instr), c.wf = false := by decide
theorem test_illFormed_mover_and_utility_DMA_10_b : ∀ c ∈ ([
    .moverBurstDone 0 64, .descriptorFetch 0 64, .stopClear 0 { b with crew := 512 }, .stopClear 0 { b with addr := 2 ^ 32 },
    .udmaStart 0 { b with crew := 512 } 0, .udmaStart 0 { b with addr := 2 ^ 32 } 0, .udmaStart 0 b 8, .udmaResume 0 { b with crew := 512 } 0,
    .udmaResume 0 { b with addr := 2 ^ 32 } 0, .udmaResume 0 b 8, .udmaAbort 0 { b with crew := 512 } 0, .udmaAbort 0 { b with addr := 2 ^ 32 } 0,
    .udmaAbort 0 b 8] : List Instr), c.wf = false := by decide
theorem test_wellFormed_mover_and_utility_DMA_10_a : ∀ c ∈ ([
    .moverStart 0 b 0, .moverResume 0 b 0, .moverAbort 0 b 0, .moverSwReq 0 b 0, .swLineWrite 0 b 0, .requestEdge 0 0, .moverBurstStart 0 0,
    .moverBurstDone 0 0, .descriptorFetch 0 0, .stopClear 0 b, .udmaStart 0 b 0, .udmaResume 0 b 0, .udmaAbort 0 b 0] : List Instr), c.wf = true := by decide
theorem test_illFormed_host_ports_and_queues_11_a : ∀ c ∈ ([
    .perstAssert 0 4, .perstDeassert 0 4, .portReady 0 4, .hostLinkDown 0 4, .hostLinkUp 0 4 0 0, .linkRetrain 0 4 0 0, .vfEnableChange 0 4 false 0,
    .apertureRead 0 512 0 0 none, .apertureWrite 0 512 0 [], .xltInvalidate 0 { b with crew := 512 } 0, .xltInvalidate 0 { b with addr := 2 ^ 32 } 0,
    .xltInvalDone 0 512, .cqPush 0 512 0, .cqFlush 0 512, .eqPop 0 512, .eqPopTimeout 0 512] : List Instr), c.wf = false := by decide
theorem test_illFormed_host_ports_and_queues_11_b : ∀ c ∈ ([
    .eqArm 0 512 0, .doorbell 0 512, .cplTimeout 0 4 none] : List Instr), c.wf = false := by decide
theorem test_wellFormed_host_ports_and_queues_11_a : ∀ c ∈ ([
    .perstAssert 0 0, .perstDeassert 0 0, .portReady 0 0, .hostLinkDown 0 0, .hostLinkUp 0 0 0 0, .linkRetrain 0 0 0 0, .vfEnableChange 0 0 false 0,
    .apertureRead 0 0 0 0 none, .apertureWrite 0 0 0 [], .xltInvalidate 0 b 0, .xltInvalDone 0 0, .cqPush 0 0 0, .cqFlush 0 0, .eqPop 0 0,
    .eqPopTimeout 0 0, .eqArm 0 0 0] : List Instr), c.wf = true := by decide
theorem test_wellFormed_host_ports_and_queues_11_b : ∀ c ∈ ([
    .doorbell 0 0, .cplTimeout 0 0 none] : List Instr), c.wf = true := by decide
theorem test_illFormed_photo_finish_and_umpire_12_a : ∀ c ∈ ([
    .regionEvaluation 0 8 0, .regionEvaluation 0 0 32, .photoRearm 0 512 0 0, .photoRearm 0 0 8 0, .photoRearm 0 0 0 32, .faultOccurrence 0 128 0,
    .umpireSnapshot 0 { b with crew := 512 }, .umpireSnapshot 0 { b with addr := 2 ^ 32 }, .umpireClear 0 { b with crew := 512 } 0,
    .umpireClear 0 { b with addr := 2 ^ 32 } 0, .umpireClassWrite 0 { b with crew := 512 } 0 0, .umpireClassWrite 0 { b with addr := 2 ^ 32 } 0 0,
    .umpireClassWrite 0 b 8 0, .c3Ack 0 { b with crew := 512 } 0, .c3Ack 0 { b with addr := 2 ^ 32 } 0, .faultInject 0 { b with crew := 512 } 0] : List Instr), c.wf = false := by decide
theorem test_illFormed_photo_finish_and_umpire_12_b : ∀ c ∈ ([
    .faultInject 0 { b with addr := 2 ^ 32 } 0] : List Instr), c.wf = false := by decide
theorem test_wellFormed_photo_finish_and_umpire_12_a : ∀ c ∈ ([
    .regionEvaluation 0 0 0, .photoRearm 0 0 0 0, .faultOccurrence 0 0 0, .umpireSnapshot 0 b, .umpireClear 0 b 0, .umpireClassWrite 0 b 0 0,
    .c3Ack 0 b 0, .faultInject 0 b 0] : List Instr), c.wf = true := by decide
theorem test_illFormed_sealed_measuring_unit_13_a : ∀ c ∈ ([
    .smuPulseEdge 0 4, .indicationPost 0 2 [], .hire 0 512, .tariff 0 512, .stop 0 512, .endJourney 0 512, .supplement 0 512, .tripReset 0 512,
    .showId 0 512, .timeOffset 0 512, .verifyChallenge 0 512, .verifyOpen 0 512, .paramWrite 0 512, .verifyClose 0 512, .fwBlock 0 512,
    .logClear 0 512] : List Instr), c.wf = false := by decide
theorem test_wellFormed_sealed_measuring_unit_13_a : ∀ c ∈ ([
    .smuPulseEdge 0 0, .indicationPost 0 0 [], .hire 0 0, .tariff 0 0, .stop 0 0, .endJourney 0 0, .supplement 0 0, .tripReset 0 0, .showId 0 0,
    .timeOffset 0 0, .verifyChallenge 0 0, .verifyOpen 0 0, .paramWrite 0 0, .verifyClose 0 0, .fwBlock 0 0, .logClear 0 0] : List Instr), c.wf = true := by decide
theorem test_illFormed_security_14_a : ∀ c ∈ ([
    .revoke 0 { b with crew := 512 } 0, .revoke 0 { b with addr := 2 ^ 32 } 0, .securityAlarm 0 7, .alarmPolicyWrite 0 { b with crew := 512 } 0,
    .alarmPolicyWrite 0 { b with addr := 2 ^ 32 } 0] : List Instr), c.wf = false := by decide
theorem test_wellFormed_security_14_a : ∀ c ∈ ([
    .revoke 0 b 0, .securityAlarm 0 0, .alarmPolicyWrite 0 b 0] : List Instr), c.wf = true := by decide
theorem test_illFormed_modes_and_power_15_17_a : ∀ c ∈ ([
    .modeRequest 0 { b with crew := 512 } 0, .modeRequest 0 { b with addr := 2 ^ 32 } 0, .sleepRequest 0 { b with crew := 512 } 0,
    .sleepRequest 0 { b with addr := 2 ^ 32 } 0] : List Instr), c.wf = false := by decide
theorem test_wellFormed_modes_and_power_15_17_a : ∀ c ∈ ([
    .modeRequest 0 b 0, .sleepRequest 0 b 0] : List Instr), c.wf = true := by decide
theorem test_illFormed_cascade_16_a : ∀ c ∈ ([
    .silithLinkUp 0 2 0 false false false false 0, .silithLinkRetry 0 2, .silithLinkLost 0 2, .markerLate 0 8, .forwardTimeout 0 4,
    .nodeSummary 0 4 0 false 0 0, .eventTx 0 { b with crew := 512 } 0, .eventTx 0 { b with addr := 2 ^ 32 } 0, .spanResync 0 4] : List Instr), c.wf = false := by decide
theorem test_wellFormed_cascade_16_a : ∀ c ∈ ([
    .silithLinkUp 0 0 0 false false false false 0, .silithLinkRetry 0 0, .silithLinkLost 0 0, .markerLate 0 0, .forwardTimeout 0 0,
    .nodeSummary 0 0 0 false 0 0, .eventTx 0 b 0, .spanResync 0 0] : List Instr), c.wf = true := by decide
theorem test_illFormed_clocks_network_and_start_up_events_a : ∀ c ∈ ([
    .arpRequest 0 2 0, .icmpEchoRequest 0 2 0 [], .domainIdleOff 0 96] : List Instr), c.wf = false := by decide
theorem test_wellFormed_clocks_network_and_start_up_events_a : ∀ c ∈ ([
    .arpRequest 0 0 0, .icmpEchoRequest 0 0 0 [], .domainIdleOff 0 0] : List Instr), c.wf = true := by decide

/-! ### Registers (03) -/

theorem wit_queue : ({ up with pending := [.smuTick 0] } : State).pending = [.smuTick 0] := by decide
theorem wit_idle : up.pending = [] := by decide
theorem wit_sound : Sound State.reset := by
  constructor <;> first | decide | (intro k; simp [State.crew, State.region, State.reset, tabGet, tabFind, blankCrew, blankRegion, regionWf])
theorem wit_stepIdle : step State.reset = .next State.reset := rfl
theorem wit_statusBits : (∀ p ∈ ((up.raise 0x18 [23]).statusAt 0x18).last, p.1 < 24) ∧ (∀ b ∈ [0, 23], b < 24) := by decide

/-- A status register with one event raised three times, S = 3, 2, 4. -/
def raised : State := ((up.raise 0x18 [0]).raise 0x18 [0]).raise 0x18 [1]
theorem wit_statusValid : ((raised.tick 0).regOf (at0 0x18)).any (fun r => reaches (raised.tick 0) (at0 0x18) r && decide (r.row.kind = .status ∧ r.range = 0 ∧
    (raised.tick 0).managedReg (at0 0x18) r = false ∧ (((raised.tick 0).statusAt r.addr).count + 256 - 0x0300_0000 / 2 ^ 24) % 256 < 128)) = true := by decide
theorem wit_statusInvalid : ((raised.tick 0).regOf (at0 0x18)).any (fun r => reaches (raised.tick 0) (at0 0x18) r && decide (r.row.kind = .status ∧ r.range = 0 ∧
    128 ≤ (((raised.tick 0).statusAt r.addr).count + 256 - 0x0400_0000 / 2 ^ 24) % 256)) = true := by decide
/-- Channel 63 is a managed one. -/
def managedOne : State := up.modChannel 63 (fun c => { c with managed := some 0 })
theorem wit_statusManaged : let u := managedOne.tick 0
    (u.regOf (at0 0x40_3F48)).any (fun r => reaches u (at0 0x40_3F48) r && decide (r.row.kind = .status ∧ r.range = 0) && u.managedReg (at0 0x40_3F48) r) = true := by decide

/-- The register that an access of `up` reaches, and what a statement asks of it. -/
def at1 (a : Nat) (p : Reg → Bool) : Bool := ((up.tick 0).regOf (at0 a)).any (fun r => reaches (up.tick 0) (at0 a) r && p r)
theorem wit_plain0 : at1 0x58 (fun r => decide (r.row.kind = .plain ∧ r.block = .sys ∧ r.range = 0 ∧ ((up.tick 0).reg r.addr r.row.reset ^^^ 0xFFFF_FFFF) &&& r.row.pv = 0)) = true := by decide
theorem wit_plain1 : at1 0x4058 (fun r => decide (r.row.kind = .plain ∧ r.block = .sys ∧ r.range = 1)) = true := by decide
theorem wit_plain2 : at1 0x8058 (fun r => decide (r.row.kind = .plain ∧ r.block = .sys ∧ r.range = 2)) = true := by decide
theorem wit_plain3 : at1 0xC058 (fun r => decide (r.row.kind = .plain ∧ r.block = .sys ∧ r.range = 3)) = true := by decide
theorem wit_plainAliasBits : ∀ a ∈ [0x4058, 0x8058, 0xC058], at1 a (fun r => decide (r.row.kind = .plain ∧ r.range ≠ 0 ∧ 0xFFFF_FFFF &&& r.row.al ≠ 0 ∧ 0 &&& r.row.al = 0)) = true := by decide
theorem wit_plainClk : at1 0x2_0000 (fun r => decide (r.row.kind = .plain ∧ r.block = .clk ∧ r.range = 0)) = true := by decide
theorem wit_plainCounts : at1 0xC0_0010 (fun r => decide (r.row.kind = .plain ∧ r.block = .counts ∧ r.range = 0)) = true := by decide
theorem wit_plainHost : at1 0xB0_0008 (fun r => decide (r.row.kind = .plain ∧ r.block = .host 0 ∧ r.range = 0)) = true := by decide
theorem wit_pair : (up.tick 0).accOpen (at0 0x40_0000) = true ∧ (up.tick 0).isPair (at0 0x40_0000) 8 = true ∧
    ((up.tick 0).writeAccess (at0 0x40_0000) 1).accOpen { at0 0x40_0000 with addr := 0x40_0004 } = true := by decide +kernel

theorem wit_modeRequest : lands (up.tick 0) (at0 0x10) .sys 0x10 = true ∧ (5 : Nat) ≠ 2 ∧ (5 : Nat) ≠ 3 ∧ (5 : Nat) ≠ 4 ∧ (up.tick 0).modes.sleeping = none ∧
    (up.tick 0).sec.keysErased = false ∧ (up.tick 0).modes.mode = .run ∧ ((up.modSec (fun c => { c with erased := true })).tick 0).sec.keysErased = true := by decide
/-- An access over SPI. -/
def spiAt (a : Nat) : Acc := { master := .spi, crew := 0, addr := a }
/-- `up` in another mode. -/
def modal (f : Modes → Modes) : State := up.modModes f
theorem wit_modeRequests : ∀ m ∈ [Mode.launch, .run, .limp, .factory], let u := (modal (fun x => { x with mode := m })).tick 1_000_000
    lands u (spiAt 0x10) .sys 0x10 = true ∧ u.modes.mode = m ∧ ((modal (fun x => { x with mode := m, step := .planned })).tick 0).modes.step ≠ .hold ∧ u.latchedAt 2 = false ∧ u.modes.sleeping = none := by decide
theorem wit_modeHeld : lands ((modal (fun x => { x with mode := .launch, step := .hold })).tick 0) (at0 0x10) .sys 0x10 = true ∧
    ((modal (fun x => { x with mode := .launch, step := .hold })).tick 0).modes.step = .hold ∧
    lands ((modal (fun x => { x with sleeping := some true })).tick 0) (at0 0x10) .sys 0x10 = true ∧ ((modal (fun x => { x with sleeping := some true })).tick 0).modes.sleeping.isSome = true := by decide
/-- LIMP with source 0 latched as C3. -/
def limpLatched : State := (modal (fun x => { x with mode := .limp })).modUmpire (fun x => { x with latched := 1, classes := [(0, 3)] })
theorem wit_modeLatched : lands (limpLatched.tick 1_000_000) (spiAt 0x10) .sys 0x10 = true ∧ (limpLatched.tick 0).modes.mode = .limp ∧ (limpLatched.tick 0).latchedAt 2 = true := by decide
theorem wit_sleepRequest : lands (up.tick 0) (at0 0x1_0038) .power 0x38 = true ∧ (let u := up.tick 0; let w := u.setReg 0x1_0038 1
    (1 : Nat) < 2 ∧ w.awake = true ∧ u.modes.mode = .run ∧ u.modes.sleeping = none ∧ u.smu.journey.kind = 0 ∧ u.smu.verifying = false ∧ w.wakeActive = false) ∧ ¬ (2 : Nat) < 2 := by decide
theorem wit_classes : lands (up.tick 0) (at0 0x60_0080) .umpire (0x80 + 8 * 0) = true ∧ lands (up.tick 0) (at0 0x60_00B8) .umpire (0x80 + 8 * 7) = true ∧
    (∀ j ∈ (List.range 16).filter (fun j => decide (0x5555_5555 / 4 ^ j % 4 ≠ (up.tick 0).classOf (16 * 0 + j))), (classFixed (16 * 0 + j) || (up.tick 0).umpire.latched.testBit (16 * 0 + j)) = false) ∧
    (∃ j ∈ (List.range 16).filter (fun j => decide (0 / 4 ^ j % 4 ≠ (up.tick 0).classOf (16 * 3 + j))), (classFixed (16 * 3 + j) || (up.tick 0).umpire.latched.testBit (16 * 3 + j)) = true) := by decide
theorem wit_c3Ack : lands (up.tick 0) (at0 0x60_0220) .umpire 0x220 = true ∧ ((up.tick 0).setReg 0x60_0220 1).heldC3 = 0 ∧
    lands (limpLatched.tick 1_000_000) (spiAt 0x60_0220) .umpire 0x220 = true ∧ ((limpLatched.tick 0).setReg 0x60_0220 1).heldC3 ≠ 0 := by decide +kernel

/-- An attempt opened by host port 0 on SYS.MODE_REQ. -/
def opened : State := { up with keys := [(0, { master := .host 0, crew := 0, addr := 0x10, value := 3, openedAt := 0 })] }
theorem wit_keyA : at1 0x10 (fun r => decide (r.row.kind = .keyA ∧ r.range = 0)) = true := by decide
theorem wit_keyB (dt : Nat) (h : dt ∈ [0, 320]) : let u := opened.tick dt
    u.accOpen (at0 0x14) = true ∧ (u.regOf (at0 0x14)).any (fun r => decide (r.row.kind = .keyB ∧ r.range = 0) && r.writable && r.domain.all u.domainOn) = true ∧
      (tabFind u.keys (pageOf (at0 0x14))).any (fun k => decide (k.master = (at0 0x14).master ∧ k.crew = (at0 0x14).crew ∧ k.addr + 4 = (at0 0x14).addr ∧ u.now ≤ k.openedAt + 320) &&
        (u.regOf { at0 0x14 with addr := k.addr }).isSome && decide ((0xFFFF_FFFC : Nat) = k.value.toNat ^^^ 0xFFFF_FFFF)) = true := by
  simp only [List.mem_cons, List.not_mem_nil, or_false] at h
  rcases h with rfl | rfl <;> decide
theorem wit_keyBWrong : (0 : Nat) ≠ (3 : Word).toNat ^^^ 0xFFFF_FFFF := by decide
theorem wit_keyTimeout : (opened.tick 320).awake = true ∧ (tabFind (opened.tick 320).keys 0).any (fun k => decide (k.openedAt + 320 ≤ (opened.tick 320).now)) = true := by decide

theorem wit_latch : ∀ p ∈ [(0x50, 4), (0x51, 1), (0x52, 2)], let acc := at0 p.1
    0 < p.2 ∧ acc.addr % 4 + p.2 ≤ 4 ∧ (up.tick 0).accOpen acc = true ∧ at1 (acc.addr / 4 * 4) (fun r => isLiveLow r && decide (r.block ≠ .power) && ((up.tick 0).regAt (r.addr + 4)).isSome) = true := by decide
theorem wit_snapshot : lands (up.tick 0) (at0 0xC0_0000) .counts 0 = true := by decide
theorem wit_unimpl : ∀ p ∈ [(0x5C, false, 4, 4), (0x58, true, 2, 2), (0x58, true, 4, 3), (0x59, true, 4, 4)],
    (up.tick 0).irregular (at0 p.1) p.2.1 p.2.2.1 p.2.2.2 = true ∧ tabFind (up.tick 0).keys (pageOf (at0 p.1)) = none := by decide
theorem wit_unimplSpi : (up.tick 1_000_000).irregular { master := .spi, crew := 0, addr := 0x5C } true 4 4 = true := by decide
/-- Every domain is off and none wakes by itself. -/
def dark : State := (up.modPower (fun p => { p with on := 2 ^ 86 })).setReg 0x1_0018 0
theorem wit_stall : at1 0x58 (fun _ => true) = true ∧ at1 0x60_0000 (fun _ => true) = true := by decide
theorem wit_stallAsleep : (dark.tick 0).accOpen (at0 0x40_0000) = true ∧ tabFind (dark.tick 0).keys (pageOf (at0 0x40_0000)) = none ∧
    ((dark.tick 0).regOf (at0 0x40_0000)).any (fun r => !(dark.tick 0).reachable r.domain) = true := by decide
theorem wit_wakeFailed : (up.tick 0).awake = true ∧ (up.tick 0).domainOn 0 = true ∧ (up.tick 0).domainOn 95 = true := by decide
theorem wit_spi : (((up.tick 1_000_000).regOf (spiAt 0x58)).any (fun r => reaches (up.tick 1_000_000) (spiAt 0x58) r &&
    decide (r.row.kind = .plain ∧ r.range = 0 ∧ r.block = .sys ∧ isLiveLow r = false ∧ ((up.tick 1_000_000).reg r.addr r.row.reset ^^^ 7) &&& r.row.pv = 0 ∧
      tabFind (up.tick 1_000_000).latches (latchKey .spi 0 r.addr) = none))) = true ∧ (up.tick 0).awake = true ∧ (0 : Nat) ≠ 2 ∧ (0xFF : Nat) ≠ 3 := by decide
theorem wit_spiBoots (h : 0 < Config.fabricTime) : (up.tick 0).awake = true ∧ (up.tick 0).fabricBoots = true := by
  refine ⟨by decide, ?_⟩
  have e : (up.tick 0).now = 0 ∧ (up.tick 0).modes.resetAt = 0 := by decide
  simp only [State.fabricBoots, e.1, e.2, Bool.and_eq_true, decide_eq_true_eq]
  omega

/-! ### The dictionary (02) -/

/-- A request of node 0 without data. -/
def req (index sub : Nat) : Req := { node := 0, tag := 1, index := index, sub := sub, dir := false, offset := 0, length := 0, data := [] }

/-- What `answers` asks, and that the value fits, as a check. -/
def answersB (s : State) (c : Nat) (q : Req) : Bool :=
  (match s.lookup q.index q.sub with
   | .ok r => decide (r.access ≠ .wo) && decide ((encodeVal r.ty ((s.endAttempt c).value c q.index q.sub)).length ≤ 60 ∧ q.offset ≤ (encodeVal r.ty ((s.endAttempt c).value c q.index q.sub)).length)
   | .error _ => false) &&
  s.planned && !q.dir && !q.unknown && decide (q.node = s.ownNode) && s.crewEnabled c && s.sees c q.index && decide (¬ (q.index = 0x7F00 ∧ q.sub = 2) ∧ ¬ (q.index = 0x7000 ∧ q.sub = 1))

/-- `up` with the proxy crews of CAN FD 0 and Ethernet 0 set to crew 0 and crews 0 and 1 enabled. -/
def proxied : State := (((up.setNum 0x1100 3 0).setNum 0x1200 5 0).setNum (crewIx 0 0) 1 1).setNum (crewIx 1 0) 1 1
theorem wit_readCan : answersB (proxied.tick 0) ((proxied.tick 0).canCrew 0) (req 0x2000 1) = true := by decide
theorem wit_readEth : answersB (proxied.tick 0) ((proxied.tick 0).ethCrew 0) (req 0x2000 1) = true ∧ noRoom [(1, req 0x2000 1)] = false := by decide
theorem wit_readMailbox : (proxied.tick 0).viaOpen (.mailbox 1) = true ∧ answersB (proxied.tick 0) 1 (req 0x2000 1) = true ∧
    answersB ((proxied.tick 0).modCrew 1 (fun k => { k with mbxBusy := true, mbxReply := [] })) 1 (req 0x2000 1) = true ∧ ((proxied.tick 0).crew 1).mbxNotify = false := by decide

/-- A write of lane 0's lane.vrr_enable. -/
def wreq : Req := { req 0x3002 1 with data := [1] }
def runsB (w : State) (c : Nat) (p : Rsp → Bool) : Bool :=
  let o := (w.modCrew c (fun k => { k with confirm := none })).carryOut c 2 (w.crew c).confirm wreq
  w.planned && decide (wreq.node = w.ownNode) && w.crewEnabled c && p o.2 && o.1.configured && (o.1.crew 1).mbxBusy == (w.crew 1).mbxBusy
theorem wit_writeCan : canValue 0x3002 1 [1] = .ok [1] ∧ runsB (proxied.tick 0) ((proxied.tick 0).canCrew 0) (fun o => match o with | .read _ => false | _ => true) = true := by decide
theorem wit_writeStaged : let u := proxied.tick 0; u.holding = false ∧ within 0x3000 0x37FF 0x3002 = true ∧ isConfirmation 0x3002 1 = false ∧ isConfirmed 0x3002 1 = false ∧
    ∃ r v, u.lookup 0x3002 1 = .ok r ∧ objRow 0x3002 1 = some r ∧ r.sub = 1 ∧ r.access = .rwc ∧ u.holds 0 0x3002 r = true ∧ decodeVal r 0x3002 [1] = .ok v :=
  ⟨by decide, by decide, by decide, by decide, _, _, rfl, rfl, by decide, by decide, by decide, rfl⟩
/-- Ethernet 0 takes writes from address 5 alone. -/
def allowing : State := proxied.setKey (objKey 0x1200 4) (.bytes [0, 0, 0, 5])
theorem wit_writeEth : (allowing.tick 0).mayWriteFrom 0 5 = true ∧ (allowing.tick 0).mayWriteFrom 0 6 = false ∧ runsB (allowing.tick 0) ((allowing.tick 0).ethCrew 0) (fun _ => true) = true := by decide
theorem wit_writeMailbox : (proxied.tick 0).viaOpen (.mailbox 1) = true ∧
    runsB ((proxied.tick 0).modCrew 1 (fun k => { k with mbxBusy := true, mbxReply := [] })) 1 (fun _ => true) = true := by decide

/-- Node 0 is a cascade's master and reaches node 1; CAN FD 0 and Ethernet 0 act for crew 0. -/
def relaying : State := (((proxied.setNum 0x7C00 2 3).setNum 0x7C20 2 1).modModes (fun m => { m with straps := 9 })).modNode 1 (fun n => { n with reachable := true })
/-- What the crew of CAN FD 0 is refused with. -/
def lookupError (s : State) (index sub : Nat) : Bool := match s.lookup index sub with | .error _ => true | .ok _ => false
theorem wit_refused : (proxied.tick 0).planned = true ∧ ({ req 0x2000 1 with dir := true } : Req).dir = true ∧ lookupError (proxied.tick 0) 0x2000 200 = true ∧
    ((proxied.setNum (crewIx 0 0) 1 0).tick 0).crewEnabled 0 = false ∧ isEnable 0x2000 1 = false ∧ ({ req 0x2000 1 with node := 2 } : Req).node ≠ (proxied.tick 0).ownNode ∧
    (proxied.tick 0).cascMaster = false ∧ (relaying.tick 0).cascMaster = true ∧ ((relaying.tick 0).node 2).reachable = false ∧
    ((proxied.setNum 0x1100 3 1).tick 0).sees ((proxied.setNum 0x1100 3 1).tick 0 |>.canCrew 0) (crewIx 5 0) = false ∧ noRoom [(1, req 0x2000 1)] = false := by decide
theorem wit_refusedWriteOnly : ∃ r, (proxied.tick 0).lookup 0x1010 1 = .ok r ∧ r.access = .wo := ⟨_, rfl, rfl⟩
theorem wit_relayed : (relaying.tick 0).planned = true ∧ (relaying.tick 0).crewEnabled 0 = true ∧ (1 : Nat) ≠ (relaying.tick 0).ownNode ∧ (relaying.tick 0).cascMaster = true ∧
    ((relaying.tick 0).node 1).reachable = true := by decide
theorem wit_booting : let u := ({ State.reset with modes := { blankModes with step := .configured } } : State).tick 0
    u.configured = true ∧ u.planned = false ∧ (tabGet (0, 0) u.bootQueues (viaKey (.can 0 7))).2 < 32 := by decide

theorem wit_segRead : (proxied.tick 0).planned = true ∧ tabFind (proxied.tick 0).segments (segKey 0 0 7) = none ∧
    (match ((proxied.tick 0).serve (.can 0 7) ((proxied.tick 0).canCrew 0) 1 false (req 0x2000 1)).2 with | some (.read _) => true | _ => false) = true := by decide
theorem wit_segWrite : (proxied.tick 0).ownNode = 0 ∧ leNat (([4, 0, 0, 0] : List Byte).take 4) ≠ 0 ∧ 4 ≤ ([4, 0, 0, 0] : List Byte).length := by decide

/-- A transfer of client 7 on CAN FD 0. -/
def transfer (x : Segment) : State := { proxied with segments := [(segKey 0 0 7, x)] }
def writing : Segment := { write := true, tag := 1, index := 0x2000, sub := 1, total := 2000, data := [], nextSeq := 0, unacked := 0, at_ := 0 }
def sent : Segment := { writing with write := false, nextSeq := 16, unacked := 16 }
theorem wit_segData : ((transfer writing).tick 0).planned = true ∧ tabFind ((transfer writing).tick 0).segments (segKey 0 0 7) = some writing ∧ writing.write = true ∧
    writing.tag = 1 % 16 ∧ writing.nextSeq % 256 = 0 ∧ writing.data.length + 62 < writing.total ∧ (List.replicate 62 (0 : Byte)).length = 62 ∧ (writing.nextSeq + 1) % 16 ≠ 0 ∧
    ({ writing with nextSeq := 15 }.nextSeq + 1) % 16 = 0 ∧ writing.nextSeq % 256 ≠ 1 := by decide
theorem wit_segAck : tabFind ((transfer sent).tick 0).segments (segKey 0 0 7) = some sent ∧ sent.write = false ∧ sent.tag = 1 % 16 ∧ sent.data = [] ∧ 0 < sent.unacked ∧ sent.unacked < 17 ∧
    (15 : Nat) < 256 ∧ sent.nextSeq % 256 = (15 + 1) % 256 := by decide
theorem wit_segTimeout : ((transfer sent).tick 100_000_000).configured = true ∧ sent.at_ + 100_000_000 ≤ ((transfer sent).tick 100_000_000).now := by decide

theorem wit_datagram : (proxied.tick 0).configured = true ∧ parseDatagram [] = none ∧
    (parseDatagram [0x4F, 0x44, 0x01, 0, 1, 0, 1, 0, 1, 1, 0, 0x20, 0, 0, 0, 0]).isSome = true := by decide
theorem wit_mbxWrite : lands (proxied.tick 0) (pageAcc 1 (0x2000 + 0x7FC)) (.crew 1) (0x2000 + 0x7FC) = true ∧ (0x7FC : Nat) < 0x800 ∧ (0x7FC : Nat) % 4 = 0 := by decide
/-- Crew 1's request buffer holds a datagram with one READ. -/
def posted : State := proxied.modCrew 1 (fun k => { k with mbxReq := (List.range 16).foldl (fun t i => tabSet t i ([0x4F, 0x44, 0x01, 0, 1, 0, 1, 0, 1, 1, 0, 0x20, 0, 0, 0, 0].getD i 0)) [] })
theorem wit_mbxGo : lands (proxied.tick 0) (pageAcc 1 0x3000) (.crew 1) 0x3000 = true ∧ (7 : Word).toNat < 8 ∧ (proxied.tick 0).reg (mbxStatus 1 - 4) 0 = 0 ∧ (7 : Word).toNat % 2 = 1 ∧
    ((proxied.tick 0).crew 1).mbxBusy = false ∧ parseDatagram ((proxied.tick 0).crew 1).request = none := by decide
theorem wit_mbxGoParsed : (parseDatagram ((posted.tick 0).crew 1).request).isSome = true ∧ lands (posted.tick 0) (pageAcc 1 0x3000) (.crew 1) 0x3000 = true := by decide +kernel
theorem wit_mbxDone : let u := (proxied.modCrew 1 (fun k => { k with mbxBusy := true, mbxReply := [1] })).tick 0
    u.configured = true ∧ (u.crew 1).mbxBusy = true ∧ (u.crew 1).mbxReply ≠ [] ∧ (u.crew 1).mbxRestore = false := by decide
theorem wit_resync : (proxied.tick 0).planned = true ∧ (proxied.tick 0).crewEnabled 1 = true ∧ (1 : Nat) < 512 := by decide
theorem wit_flr : (proxied.tick 0).busOpen (0 * 128 + 0) = true ∧ (proxied.tick 0).busOpen (0 * 128 + 1) = true ∧ (proxied.tick 0).crewEnabled (0 * 128 + 1) = true ∧
    (proxied.tick 0).busOpen (0 * 128 + 2) = true ∧ (proxied.tick 0).crewEnabled (0 * 128 + 2) = false := by decide

/-! ### Layers, commits and fences (04) -/

/-- `up` with a complete item at the head of crew 1's queue; crew 1 is enabled, holds every right, may own 4 layers and owns layer 3. -/
def queued (words : List Nat) : State :=
  let s := (((up.setNum (crewIx 1 0) 1 1).setNum (crewIx 1 1) 2 4).setNum (crewIx 1 1) 5 0xFFFF).setNum (crewIx 1 1) 4 0xFF
  { s with
    crews := [(1, { blankCrew with cq := [{ words := words, closed := true, malformed := false }] })]
    layers := [(3, { blankLayer with owner := some 1 })] }

theorem wit_layerCreate : ((queued [0x05 * 2 ^ 56]).tick 0).headIs 1 0x05 = true ∧ ((queued [0x05 * 2 ^ 56]).tick 0).crewRight 1 0 = true ∧
    ((queued [0x05 * 2 ^ 56]).tick 0).layersUsed 1 < ((queued [0x05 * 2 ^ 56]).tick 0).num (crewIx 1 1) 2 ∧ (((queued [0x05 * 2 ^ 56]).tick 0).freeLayerOf 1).isSome = true := by decide +kernel
theorem wit_layerQuota : (((queued [0x05 * 2 ^ 56]).setNum (crewIx 1 1) 2 1).tick 0).headIs 1 0x05 = true ∧
    (((queued [0x05 * 2 ^ 56]).setNum (crewIx 1 1) 2 1).tick 0).num (crewIx 1 1) 2 ≤ (((queued [0x05 * 2 ^ 56]).setNum (crewIx 1 1) 2 1).tick 0).layersUsed 1 := by decide +kernel
theorem wit_layerDestroy : ((queued [0x06 * 2 ^ 56 + 3 * 2 ^ 32]).tick 0).headIs 1 0x06 = true ∧
    (((queued [0x06 * 2 ^ 56 + 3 * 2 ^ 32]).tick 0).layer (layerField (0x06 * 2 ^ 56 + 3 * 2 ^ 32))).owner = some 1 := by decide +kernel
theorem wit_layerSet : ((queued [0x02 * 2 ^ 56 + 3 * 2 ^ 32, 6 * 2 ^ 32 + 1]).tick 0).headIs 1 0x02 = true ∧
    (layerWrites ((((queued [0x02 * 2 ^ 56 + 3 * 2 ^ 32, 6 * 2 ^ 32 + 1]).tick 0).head 1).words.drop 1)).isSome = true := by decide +kernel
theorem wit_commit : ((queued [0x01 * 2 ^ 56 + 1 * 2 ^ 48]).tick 0).headIs 1 0x01 = true ∧ bitOf ((((queued [0x01 * 2 ^ 56 + 1 * 2 ^ 48]).tick 0).head 1).word 0) 47 = false := by decide +kernel
theorem wit_malformed : ((queued [0x3F * 2 ^ 56]).tick 0).badHead 1 = true ∧ ((queued [0x02 * 2 ^ 56 + 3 * 2 ^ 32]).tick 0).badHead 1 = true := by decide +kernel

theorem wit_fenceWait : ((queued [0x03 * 2 ^ 56 + 10000, 8, 1, 0]).tick 0).headIs 1 0x03 = true ∧
    bits ((((queued [0x03 * 2 ^ 56 + 10000, 8, 1, 0]).tick 0).head 1).word 0) 13 0 = 10000 ∧ fenceWordOk ((((queued [0x03 * 2 ^ 56 + 10000, 8, 1, 0]).tick 0).head 1).word 1) = true := by decide +kernel
/-- Crew 1 waits for a fence in its aperture. -/
def waiting : State := (queued []).modCrew 1 (fun k => { k with holding := .fenceWait false 8 1 1000 5, cq := [] })
theorem wit_fencePoll : (waiting.tick 1000).running = true ∧ ((waiting.tick 1000).crew 1).holding = .fenceWait false 8 1 1000 5 ∧ 1000 ≤ (waiting.tick 1000).now := by decide +kernel
theorem wit_fenceSignalNow : ((queued [0x04 * 2 ^ 56, 8, 1, 0]).tick 0).headIs 1 0x04 = true ∧ fenceWordOk ((((queued [0x04 * 2 ^ 56, 8, 1, 0]).tick 0).head 1).word 1) = true ∧
    bits ((((queued [0x04 * 2 ^ 56, 8, 1, 0]).tick 0).head 1).word 0) 49 48 = 0 := by decide +kernel
/-- A pending commit of crew 1 on lane 0, whose fence is unmet. -/
def pendingOne (linked : Bool) : Commit :=
  { seq := 1, crew := 1, lanes := 1, linked := linked, writes := [], fences := [{ host := false, addr := 8, target := 1, namedAt := 0, met := false }],
    acceptedAt := 0, eligible := false, deferred := false, late := false, cookie := 0 }
def signalling : State :=
  { (queued [0x04 * 2 ^ 56 + 2 * 2 ^ 48, 8, 1, 0]).modCrew 1 (fun k => { k with latest := some 1 }) with commits := [pendingOne false] }
theorem wit_fenceSignalLater : (signalling.tick 0).headIs 1 0x04 = true ∧ bits (((signalling.tick 0).head 1).word 0) 49 48 = 2 ∧ ((signalling.tick 0).crew 1).latest = some 1 ∧
    (signalling.tick 0).isPending 1 = true := by decide +kernel

theorem wit_layerNoRight : (((queued [0x05 * 2 ^ 56]).setNum (crewIx 1 1) 5 0xFFFE).tick 0).headIs 1 0x05 = true ∧ (((queued [0x05 * 2 ^ 56]).setNum (crewIx 1 1) 5 0xFFFE).tick 0).crewRight 1 0 = false := by decide +kernel
/-- Every layer of host port 0 is owned. -/
def crowded : State := { queued [0x05 * 2 ^ 56] with layers := (List.range 512).map (fun l => (l, { blankLayer with owner := some 2 })) }
theorem wit_noFreeLayer : (crowded.tick 0).headIs 1 0x05 = true ∧ (crowded.tick 0).crewRight 1 0 = true ∧ (crowded.tick 0).freeLayerOf 1 = none := by decide +kernel
/-- LAYER_DESTROY of layer 4 by crew c, whatever owns the layer. -/
def destroying (c : Nat) (owner : Option Nat) : State :=
  { up with
    crews := [(c, { blankCrew with cq := [{ words := [0x06 * 2 ^ 56 + 4 * 2 ^ 32], closed := true, malformed := false }] })]
    layers := [(4, { blankLayer with owner := owner })] }
theorem wit_destroyNoRight : ∀ o ∈ [none, some 2], let u := ((destroying 1 o).setNum (crewIx 1 0) 1 1).tick 0
    u.headIs 1 0x06 = true ∧ layerField ((u.head 1).word 0) = 4 ∧ (u.layer 4).owner ≠ some 1 ∧ portManager 1 (4 / 512) = false := by decide +kernel
theorem wit_destroyByManager : ∀ o ∈ [none, some 2], (((destroying 0 o).setNum (crewIx 0 0) 1 1).tick 0).headIs 0 0x06 = true ∧ layerField ((((destroying 0 o).tick 0).head 0).word 0) = 4 ∧
    ((((destroying 0 o).setNum (crewIx 0 0) 1 1).tick 0).layer 4).owner = o ∧ portManager 0 (4 / 512) = true := by decide +kernel
theorem wit_fencedCommit : ∀ a ∈ [8, 10], let u := (queued [0x01 * 2 ^ 56 + 1 * 2 ^ 48 + 2 ^ 47, a, 1, 0]).tick 0
    u.headIs 1 0x01 = true ∧ bitOf ((u.head 1).word 0) 47 = true ∧ fenceWordOk ((u.head 1).word 1) = decide (a = 8) := by decide +kernel
theorem wit_fenceWaitRefused : ∀ p ∈ [(0, 8), (10_001, 8), (1, 10)], let u := (queued [0x03 * 2 ^ 56 + p.1, p.2, 1, 0]).tick 0
    u.headIs 1 0x03 = true ∧ (bits ((u.head 1).word 0) 13 0 < 1 ∨ 10_000 < bits ((u.head 1).word 0) 13 0 ∨ fenceWordOk ((u.head 1).word 1) = false) := by decide +kernel
theorem wit_fenceSignalRefused : ∀ p ∈ [(3, 8), (0, 10)], let u := (queued [0x04 * 2 ^ 56 + p.1 * 2 ^ 48, p.2, 1, 0]).tick 0
    u.headIs 1 0x04 = true ∧ (bits ((u.head 1).word 0) 49 48 = 3 ∨ fenceWordOk ((u.head 1).word 1) = false) := by decide +kernel
theorem wit_fenceSignalLate : ∀ k ∈ [1, 2], let u := (queued [0x04 * 2 ^ 56 + k * 2 ^ 48, 8, 1, 0]).tick 0
    u.headIs 1 0x04 = true ∧ bits ((u.head 1).word 0) 49 48 = k ∧ fenceWordOk ((u.head 1).word 1) = true ∧ (u.crew 1).latest = none ∧
    (u.modCrew 1 (fun c => { c with latest := some 9 })).isPending 9 = false ∧ (u.modCrew 1 (fun c => { c with latest := some 9 })).isAwaited 9 = false := by decide +kernel
theorem wit_fenceSignalAwaited : let u := (((queued [0x04 * 2 ^ 56 + 2 * 2 ^ 48, 8, 1, 0]).modLane 0 (fun l => { l with awaiting := [(9, 65536, 1)] })).modCrew 1 (fun c => { c with latest := some 9 })).tick 0
    u.headIs 1 0x04 = true ∧ bits ((u.head 1).word 0) 49 48 = 2 ∧ (u.crew 1).latest = some 9 ∧ u.isAwaited 9 = true := by decide +kernel
theorem wit_oddSmu : ((queued [0x0A * 2 ^ 56]).tick 0).badHead 1 = false ∧ ((queued [0x0A * 2 ^ 56]).tick 0).oddSmu 1 = true := by decide +kernel

/-- Lane 0 of `up`, 64 × 32 at 25 MHz, running and locked. -/
def lit : State :=
  let s := ((((up.setNum (laneIx 0 0) 5 1).setNum (laneIx 0 1) 1 64).setNum (laneIx 0 1) 2 8).setNum (laneIx 0 1) 3 8).setNum (laneIx 0 1) 4 100
  let t := ((((s.setNum (laneIx 0 1) 5 32).setNum (laneIx 0 1) 6 2).setNum (laneIx 0 1) 7 4).setNum (laneIx 0 1) 8 25_000_000).setNum (laneIx 0 2) 4 45
  ((t.setNum (laneIx 0 2) 5 100).setNum (crewIx 0 0) 1 1).modLane 0 (fun l => { l with mode := .running, locked := true, frameAt := 1 })

def commitReq (register : Option Nat) (mask : Nat) : CommitReq := { mask := mask, linked := false, fences := [], cookie := 7, register := register }
/-- The request waits to be judged; crew 0 has staged lane 0's disabling. -/
def judged (register : Option Nat) (mask : Nat) : State :=
  lit.modCrew 0 (fun k => { k with accepting := [commitReq register mask], staged := [.obj (objKey (laneIx 0 0) 5) (.num 0)] })
/-- Whether the request at the front is accepted. -/
def accepts (s : State) (r : CommitReq) : Bool := match s.judge 0 r with | .ok _ => true | .error _ => false
theorem wit_accept : ((judged none 1).tick 0).planned = true ∧ (((judged none 1).tick 0).crew 0).accepting = [commitReq none 1] ∧
    accepts ((((judged none 1).tick 0).modCrew 0 (fun k => { k with accepting := [] })).modCrew 0 (fun k => { k with holding := .idle })) (commitReq none 1) = true := by decide +kernel
theorem wit_refuse : (((judged none 0).tick 0).crew 0).accepting = [commitReq none 0] ∧
    accepts ((((judged none 0).tick 0).modCrew 0 (fun k => { k with accepting := [] })).modCrew 0 (fun k => { k with holding := .idle })) (commitReq none 0) = false := by decide +kernel
theorem wit_acceptRegister : accepts (((judged (some 0) 1).tick 0).modCrew 0 (fun k => { k with accepting := [] })) (commitReq (some 0) 1) = true ∧
    accepts (((judged (some 0) 2).tick 0).modCrew 0 (fun k => { k with accepting := [] })) (commitReq (some 0) 2) = false ∧ (commitReq (some 0) 1).linked = false := by decide +kernel
theorem wit_laneCommit : lands (lit.tick 0) (at0 0x10_0010) (.lane 0) 0x10 = true ∧ lands (lit.tick 0) (at0 0x17_0010) (.lane 7) 0x10 = true ∧ ((lit.tick 0).lane 0).commitBusy = false ∧
    (((lit.modLane 0 (fun l => { l with commitBusy := true })).tick 0).lane 0).commitBusy = true := by decide +kernel
def fenced (linked : Bool) (value : Byte) : State := { lit with commits := [pendingOne linked], aperture := memWrite [] (apertureKey 1 8) value }
theorem wit_fenceUnmet : ((fenced false 0).tick 0).coxUp = true ∧ (pendingOne false).lanes.testBit 0 = true ∧ (((fenced false 0).tick 0).fenceValue 1 false 8).2 = some 0 := by decide +kernel
theorem wit_fenceMet : (((fenced true 1).tick 0).fenceValue 1 false 8).2 = some 1 ∧ (((fenced true 1).tick 0).fenceValue 1 false 8).1.commits = [pendingOne true] ∧
    (let m : State := { ((fenced true 1).tick 0) with commits := [{ pendingOne true with fences := [{ (pendingOne true).fences.head! with met := true }], eligible := true }] }; m.enabling (m.withPending []) 1) = false := by decide +kernel

/-- Crew 1's commit enables lane 1, which is off, once its fence is met. -/
def enablingOne : State :=
  { lit with
    commits := [{ pendingOne false with lanes := 2, writes := [.obj (objKey (laneIx 1 0) 5) (.num 1)] }]
    aperture := memWrite [] (apertureKey 1 8) 1 }
theorem wit_fenceMetEnables : let u := enablingOne.tick 0; u.coxUp = true ∧ u.commits.any (fun k => k.lanes.testBit 1) = true ∧ (u.fenceValue 1 false 8).2 = some 1 ∧
    (let m : State := { (u.fenceValue 1 false 8).1 with commits := u.commits.map (fun k => { k with fences := k.fences.map (fun f => { f with met := true }), eligible := true }) }
     m.enabling (m.withPending []) 2 = true ∧ m.applies = true) := by decide +kernel

theorem wit_catch : (lit.tick 1).catchReady 0 = true ∧ (lit.tick 1).handOverReady 0 = false ∧ (lit.tick 1).applies = true := by decide +kernel
theorem wit_catchQuiet : ((lit.modModes (fun m => { m with sleeping := some false })).tick 1).catchReady 0 = true ∧ ((lit.modModes (fun m => { m with sleeping := some false })).tick 1).applies = false := by decide +kernel
theorem wit_catchDefers : ((fenced false 0).tick 1).applies = true ∧ ((fenced false 0).tick 1).atCatch 0 (pendingOne false) = true ∧ ((fenced false 0).tick 1).fenceExpired 0 (pendingOne false) = false := by decide +kernel
theorem wit_catchApplies : ({ lit with commits := [{ pendingOne false with eligible := true }] } : State).atCatch 0 { pendingOne false with eligible := true } = true := by decide +kernel
theorem wit_handOver : (((lit.modLimp (fun l => { l with driving := true })).modLane 0 (fun l => { l with mode := .limp })).tick 0).handOverReady 0 = true := by decide +kernel
theorem wit_f0 : ((lit.modLane 0 (fun l => { l with retime := some { enabling := false, disabling := false, idle := true, portUp := true, f0 := false, commits := [] } })).tick 0).f0Ready 0 = true := by decide +kernel
def awaits (f : Nat) : State := (lit.modLane 0 (fun l => { l with awaiting := [(1, 65536, f)] })).count (laneCount 0 0) 5
theorem wit_presented : (((awaits 5).tick 0).lane 0).mode = .running ∧ (((awaits 5).tick 0).lane 0).gated = false ∧ (((awaits 5).tick 0).lane 0).retime = none ∧
    5 ≤ ((awaits 5).tick 0).frame 0 ∧ ((awaits 6).tick 0).frame 0 < 6 := by decide +kernel

/-! ### Lanes, tiles and ports (05, 07, 08) -/

/-- Lane 0 of `lit` with the settings of `f`. -/
def lane0 (f : Lane → Lane) : State := lit.modLane 0 f
/-- Lane 0 with object 0x3000 + group at sub set to v. -/
def set0 (group sub v : Nat) (f : Lane → Lane := id) : State := (lit.setNum (laneIx 0 group) sub v).modLane 0 f

theorem wit_frameStart : (lit.tick 0).frameReady 0 = true := by decide +kernel
theorem wit_porchMin : ((set0 2 1 1).tick 0).porchMinReady 0 = true ∧ ((set0 2 1 1).tick 0).contentReady 0 = false ∧
    ((set0 2 1 1 (fun l => { l with awaiting := [(1, 65536, 1)] })).tick 0).porchMinReady 0 = true ∧
    ((set0 2 1 1 (fun l => { l with awaiting := [(1, 65536, 1)] })).tick 0).contentReady 0 = true := by decide +kernel
theorem wit_porchMax : ((set0 2 2 1).tick 0).porchOpen 0 = true ∧ ((set0 2 2 1).tick 0).lead 0 = true ∧
    ((set0 2 1 1 (fun l => { l with porchExtended := true })).tick 0).porchOpen 0 = true ∧ ((set0 2 1 1 (fun l => { l with porchExtended := true })).tick 0).lead 0 = false ∧
    ((set0 2 1 1 (fun l => { l with porchExtended := true })).tick 0).commandMode 0 = false ∧ (((set0 2 1 1 (fun l => { l with porchExtended := true })).tick 0).lane 0).porchCaught = false ∧
    ((set0 2 1 1 (fun l => { l with porchExtended := true, porchCaught := true })).tick 0).porchOpen 0 = true := by decide +kernel
/-- Lane 0 drives a DSI panel in command mode. -/
def panel (f : Lane → Lane := id) : State := ((lit.setNum (laneIx 0 7) 1 1).setNum (laneIx 0 7) 5 1).modLane 0 f
theorem wit_porchMaxTe : ((panel).tick 0).porchOpen 0 = true ∧ ((panel).tick 0).lead 0 = false ∧ ((panel).tick 0).commandMode 0 = true := by decide +kernel
theorem wit_heatComplete : (((lane0 (fun l => { l with porchCaught := true })).tick 0).lane 0).scans = true ∧
    ∀ t ∈ (((lane0 (fun l => { l with porchCaught := true, heat := { l.heat with tiles := [0, 1], written := [0], abandoned := [1] } })).tick 0).lane 0).heat.tiles, t ∈ [0] ∨ t ∈ [1] := by decide +kernel
theorem wit_refresh : ((set0 6 3 1 (fun l => { l with psr := true, quietFrames := 0xFFFF })).tick 0).refreshReady 0 = true := by decide +kernel

def heat1 (f : Heat → Heat) : State := lane0 (fun l => { l with heat := f { l.heat with frame := 1, tiles := [0] } })
theorem wit_rowRelease : ((heat1 id).tick 0).rowReady 0 0 = true ∧ ((heat1 id).tick 0).lead 0 = false ∧ (((heat1 id).tick 0)).tileRows 0 = 1 := by decide +kernel
theorem wit_tileOk : (((heat1 (fun h => { h with released := [0] })).tick 0).openHeat 0 0).any (fun p => p.1 && decide (0 ∈ p.2.tiles ∧ 0 ∉ p.2.written ∧ 0 ∉ p.2.abandoned)) = true ∧
    (((heat1 (fun h => { h with released := [0] })).tick 0).readInputs ((heat1 (fun h => { h with released := [0] })).tick 0) 0 0 []).2.2 = none ∧
    (((heat1 (fun h => { h with released := [0] })).tick 0).forHeat 0 (((heat1 (fun h => { h with released := [0] })).tick 0).lane 0).heat).covering 0 0 = [] := by decide +kernel
/-- Layer 3 of crew 1 shows 64 × 32 pixels of host memory on lane 0, with their pages translated and port 0 down; row 0 is released. -/
def unreadable : State :=
  let s := (((((heat1 (fun h => { h with released := [0] })).setNum (layerIx 3) 6 1).setNum (layerIx 3) 2 0).setNum (layerIx 3) 3 1).setNum (layerIx 3) 8 1).setNum (layerIx 3) 7 3
  let t := ((s.setNum (layerIx 3) 0xC 256).setNum (layerIx 3) 0xE (32 * 65536 + 64)).modCrew 1 (fun k => { k with xltCache := [(0, 1), (1, 1)] })
  let w := { t with layers := [(3, { blankLayer with owner := some 1 })], ports := [] }
  w.modLane 0 (fun l => { l with heat := { l.heat with objs := w.objs, layers := w.layers } })
theorem wit_tileError : (unreadable.openHeat 0 0).any (fun p => decide (0 ∈ p.2.tiles)) = true ∧ (unreadable.forHeat 0 (unreadable.lane 0).heat).covering 0 0 = [3] ∧
    (unreadable.readInputs (unreadable.forHeat 0 (unreadable.lane 0).heat) 0 0 [3]).2.2 = some .linkDown := by decide +kernel
def closing (f : Heat → Heat) : State := (lane0 (fun l => { l with shown := f { l.shown with frame := 1, tiles := [0] } })).count (laneCount 0 0) 1
theorem wit_rowClose : (((closing id).tick 0).closingHeat 0 0).any (fun p => !p.1 && decide (0 ∉ p.2.released ∧ 0 ∉ p.2.written)) = true ∧
    (((closing (fun h => { h with released := [0] })).tick 0).closingHeat 0 0).any (fun p => decide (0 ∈ p.2.released ∧ 0 ∉ p.2.written)) = true ∧
    (((closing (fun h => { h with released := [0], written := [0] })).tick 0).closingHeat 0 0).any (fun p => decide (p.2.written = [0])) = true := by decide +kernel
theorem wit_stalled : ((lit.tick 0).lane 0).mode ≠ .off ∧ ((lit.tick 0).lane 0).gated = false ∧ (0 : Nat) < (lit.tick 0).laneH 0 ∧ (63 : Nat) < (lit.tick 0).laneW 0 := by decide +kernel
/-- Row 0 of lane 0 is ready and its region is pinned to shells 0 and 1, of which `ok` can work. -/
def pinnedRow (ok : Nat) (suspended : List Nat) : State :=
  let s := heat1 id
  ({ s with placement := { s.placement with shellOk := ok } } : State).modLane 0 (fun l => { l with regionPins := [(0, 0, 3)], suspended := suspended })
theorem wit_rowPins : (((pinnedRow 0xFFFC []).tick 0).rowReady 0 0 = true ∧ ((pinnedRow 0xFFFC []).tick 0).pinOut 0 0 = true ∧ (((pinnedRow 0xFFFC []).tick 0).lane 0).suspended = []) ∧
    (((pinnedRow 0xFFFC [0]).tick 0).pinOut 0 0 = true ∧ (((pinnedRow 0xFFFC [0]).tick 0).lane 0).suspended = [0]) ∧ ((pinnedRow 0xFFFE [0]).tick 0).pinOut 0 0 = false := by decide +kernel
theorem wit_handedOut : let u := (heat1 (fun h => { h with released := [0] })).tick 0
    u.handedOut 0 (u.lane 0).heat 0 = true ∧ unreadable.handedOut 0 (unreadable.lane 0).heat 0 = true := by decide +kernel
/-- Every domain is off and shell 3 is under test. -/
def testing : State := { up with power := { blankPower with on := 0 }, placement := { up.placement with shellTest := some 3 } }
theorem wit_quarter : (testing.tick 0).coxUp = true ∧ 0x1000 &&& (testing.tick 0).workQuarters = 0x1000 ∧
    0x1000 &&& (testing.tick 0).workQuarters &&& (testing.tick 0).power.on ≠ 0x1000 &&& (testing.tick 0).workQuarters := by decide +kernel

/-- A sink of rate 3 on 4 lanes. -/
def sink : SinkCaps := { maxRate := 3, maxLanes := 4, dsc := false, adaptiveSync := true, psr := true, selective := false }
/-- Lane 0 with an eDP port of 2 lanes and rate 2, its HPD high. -/
def edp (f : Lane → Lane := id) : State := (((lit.setNum (laneIx 0 7) 2 2).setNum (laneIx 0 7) 3 2).modLane 0 (fun l => { l with hpd := true })).modLane 0 f
theorem wit_edp : ((edp).tick 0).edpReady 0 = true ∧ ((edp (fun l => { l with hpd := false })).tick 0).edpReady 0 = true ∧ ((edp).tick 0).candidatesFor 0 sink ≠ [] ∧
    ((edp).tick 0).candidatesFor 0 { sink with maxLanes := 0 } = [] ∧ ((edp).tick 0).capMismatch 0 sink = false ∧ ((edp).tick 0).laneNum 0 7 7 = 0 ∧
    (((edp).setNum (laneIx 0 7) 7 1).tick 0).edpReady 0 = true := by decide +kernel
theorem wit_edpDsc : let s := (edp).setNum (laneIx 0 7) 7 1; (s.tick 0).laneNum 0 7 7 = 1 ∧ (s.tick 0).candidatesFor 0 sink ≠ [] ∧ sink.dsc = false := by decide +kernel
theorem wit_training : ((edp (fun l => { l with link := .training, candidates := [(2, 2)] })).tick 0).awake = true ∧
    ((edp (fun l => { l with link := .training, candidates := [(2, 2)] })).tick 0 |>.lane 0).link = .training := by decide +kernel
theorem wit_hpd : ((edp (fun l => { l with link := .waitingHpd, hpd := false })).tick 0).awake = true ∧ ((edp).tick 0).laneNum 0 7 1 = 0 ∧ ((edp).tick 0).isEdp 0 = true ∧
    (up.tick 0).isEdp 0 = false ∧ ((edp).tick 0 |>.lane 0).link = .off ∧ ((edp).tick 0 |>.lane 0).hpd = true ∧
    ((edp (fun l => { l with link := .up })).tick 0 |>.lane 0).sink = none := by decide +kernel

theorem wit_dsi : ((panel).tick 0).dsiReady 0 = true ∧ ((panel).tick 2_000_000).teReady 0 true = true := by decide +kernel
theorem wit_dsiCmd : let u := (panel (fun l => { l with link := .up, dsiCmd := some [0x05, 0x01] })).tick 0
    u.awake = true ∧ u.laneNum 0 7 1 ≠ 0 ∧ (u.lane 0).link = .up ∧ (u.lane 0).dsiCmd = some [0x05, 0x01] ∧ bitOf (([0x05, 0x01] : List Byte).getD 1 0).toNat 0 = true ∧
    bitOf (([0x05, 0x00] : List Byte).getD 1 0).toNat 0 = false := by decide +kernel
theorem wit_pwm : (up.tick 0).awake = true ∧ (up.tick 0).domainOn (64 + 0) = true ∧ (up.tick 0).domainOn (64 + 7) = true := by decide

theorem wit_hpdIrq : ∀ l ∈ [LinkMode.up, .lowPower, .training], let u := (edp (fun x => { x with link := l, sink := some sink })).tick 0
    u.awake = true ∧ u.isEdp 0 = true ∧ (u.lane 0).link = l ∧ (u.lane 0).sink = some sink := by decide +kernel
theorem wit_pwmLow : ((lane0 (fun l => { l with blLow := true })).tick 0 |>.lane 0).blLow = true ∧ ((lane0 (fun l => { l with blLow := false })).tick 0 |>.lane 0).blLow = false := by decide

theorem wit_pclkLock : ((lane0 (fun l => { l with locked := false, gated := true })).tick 0).lockReady 0 = true ∧ (lit.tick 0).clockRuns 0 = true ∧
    ((lane0 (fun l => { l with locked := false, gated := true })).tick 0 |>.lane 0).mode = .running := by decide +kernel
theorem wit_refWindow : (up.tick 0).awake = true ∧ (up.tick 0).clocks.xtal32Failed = false ∧ (up.tick 0).clocks.active ≠ 2 ∧
    (let u := up.tick 0; let w := (((u.modClocks (fun c => { c with drift := 10_000, primaryGood := false && !c.grossBad, grossBad := false })).raise refStatus [0]).lineOn 36 0)
     w.clocks.active ≠ 2 ∧ w.clocks.watchBad = false) := by decide +kernel
/-- The windows and watch readings at which the clauses on the monitor meet. -/
theorem wit_refNumbers : (25_000_000 ≤ 24_995_000 + 5_000 ∧ ¬ 25_000_000 ≤ 24_994_999 + 5_000) ∧ (25_000_000 ≤ 24_987_500 + 12_500 ∧ ¬ 25_000_000 ≤ 24_987_499 + 12_500) ∧
    (25_012_500 ≤ 25_000_000 + 12_500 ∧ ¬ 25_012_501 ≤ 25_000_000 + 12_500) ∧ (((up.modClocks (fun c => { c with active := 2 })).tick 0).clocks.active = 2 ∧ ((up.modClocks (fun c => { c with active := 2 })).tick 0).clocks.xtal32Failed = false ∧ ((up.modClocks (fun c => { c with active := 2 })).tick 0).awake = true) ∧
    (up.tick 0).clocks.active = 0 := by decide
def onRef (a : Nat) (good : Bool) : State := up.modClocks (fun c => { c with active := a, primaryGood := good })
theorem wit_ref : ((onRef 1 false).tick 0).awake = true ∧ ((onRef 1 false).tick 0).clocks.active = 1 ∧ ((onRef 2 false).tick 0).clocks.primaryGood = false ∧
    ((onRef 2 true).tick 0).clocks.primaryGood = true ∧ ((onRef 2 true).tick 0).clockRuns 0 = false := by decide +kernel
theorem wit_refAll (k : Nat) : ((onRef 2 true).tick 0).clockRuns k = false := by
  simp [State.clockRuns, State.lane, onRef, up, State.tick, State.modClocks, State.reset, tabGet, tabFind, blankLane]

/-! ### Cameras (09) -/

/-- Camera 0 enabled with slot 0 on, RAW12, 8 × 4, in the crew-1 forwarding of `f`. -/
def cam (f : Slot → Slot := id) : State :=
  let s := (((((up.setNum (camIx 0 0) 1 1).setNum (camIx 0 0x10) 6 1).setNum (camIx 0 0x10) 4 (4 * 65536 + 8)).setNum (camIx 0 0x30) 3 1)).setNum (crewIx 1 0) 1 1
  s.modSlot 0 f
theorem wit_camera : ((cam).tick 0).camReady 0 = true ∧ ((cam).tick 0).slotsAt 0 0 = [0] ∧ formatOfType 0x10 = none ∧ formatOfType 0x2C = some 0x31 := by decide
theorem wit_landed : ((cam (fun q => { q with linesReceived := 1 })).tick 0).landReady 0 0 = true ∧ ((cam (fun q => { q with linesReceived := 1 })).tick 0).processed 0 = false := by decide
theorem wit_lost : ((cam (fun q => { q with mode := .streaming, startedAt := some 0 })).tick 1_000_000_000).lostReady 0 = true := by decide
/-- The header results of a packet at a slot at rest, at an open slot cut short, and at slots too soon or without a free frame. -/
theorem wit_frameStarts : let u := (cam).tick 0; u.slotsAt 0 0 = [0] ∧ (u.slot 0).isOpen = false ∧
    ((u.setRing 0).modSlot 0 (fun q => { q with processing := u.processingOf 0 })).tooSoon 0 = false ∧ ((u.setRing 0).slot 0).ring % 4 = 0 := by decide +kernel
theorem wit_frameTooSoon : let u := (cam (fun q => { q with startedAt := some 0, mode := .streaming })).tick 1
    u.slotsAt 0 0 = [0] ∧ (u.slot 0).isOpen = false ∧ ((u.setRing 0).modSlot 0 (fun q => { q with processing := u.processingOf 0 })).tooSoon 0 = true := by decide +kernel
theorem wit_frameShort : let u := (cam (fun q => { q with isOpen := true, linesReceived := 1 })).tick 0
    u.slotsAt 0 0 = [0] ∧ (u.slot 0).isOpen = true ∧ (u.slot 0).linesReceived < 2 ∧ (u.slot 0).linesReceived < u.streamH 0 := by decide +kernel
/-- A frame of the slot in forwarding, with bands released at instant 0. -/
def fwdFrame (bands : List (Nat × Nat × Nat)) (ended spoiled : Bool) : FwdFrame :=
  { frame := 1, slot := 0, base := 0, line := false, issued := 0, ended := ended, spoiled := spoiled, skipped := [], bands := bands }
/-- Slot 0 forwards a frame to crew 1 through channel 8. -/
def forwarding (e : FwdFrame) (f : Slot → Slot := id) : State := cam (fun q => f { q with fwd := [e], channel := some 8 })
theorem wit_landedForwarded : let u := (((cam (fun q => { q with linesReceived := 1 })).setNum (camIx 0 0x30) 1 1).setNum (camIx 0 0x30) 2 1).tick 0
    u.landReady 0 0 = true ∧ u.fwdOn 0 = true ∧ u.processed 0 = true := by decide +kernel
theorem wit_bandLate : let u := (forwarding (fwdFrame [(0, 0, 0)] false false) (fun q => { q with linePeriod := 16 })).tick 31
    u.awake = true ∧ u.lateBand 0 0 = some (fwdFrame [(0, 0, 0)] false false) ∧ u.crewEnabled (u.fwdNum 0 3) = true ∧
    (((forwarding (fwdFrame [(0, 0, 0)] false false) (fun q => { q with linePeriod := 16 })).tick 30).lateBand 0 0) = none := by decide +kernel
theorem wit_bandSpoiled : ((forwarding (fwdFrame [(0, 0, 0)] false true)).tick 0).lateBand 0 0 = some (fwdFrame [(0, 0, 0)] false true) ∧
    (((forwarding (fwdFrame [(0, 0, 0)] false false)).setNum (crewIx 1 0) 1 0).tick 0).crewEnabled (((forwarding (fwdFrame [(0, 0, 0)] false false)).tick 0).fwdNum 0 3) = false := by decide +kernel
theorem wit_processedLine : let u := (forwarding (fwdFrame [(0, 0, 0)] false false)).tick 0
    u.awake = true ∧ u.nextProcessed 0 = some (fwdFrame [(0, 0, 0)] false false, 0, 0, 0) := by decide +kernel
theorem wit_forwarded : ∀ spoiled ∈ [false, true], let u := (forwarding (fwdFrame [] true spoiled) (fun q => { q with fwdLines := 4 })).tick 0
    u.awake = true ∧ u.fwdComplete 0 = true ∧ (u.slot 0).fwd = [fwdFrame [] true spoiled] ∧ u.crewEnabled (u.fwdNum 0 3) = true := by decide +kernel

/-! ### Blits, programs and pins (05, 06, 10) -/

/-- A rectangle's word, a surface of 4 × 1 pixels in the aperture of format f. -/
def area (x0 y0 x1 y1 : Nat) : Nat := x0 + y0 * 2 ^ 14 + x1 * 2 ^ 28 + y1 * 2 ^ 42
def surf (fmt : Nat) : List Nat := [fmt * 2 ^ 48, 4 * 2 ^ 32 + 65536 + 4]
def fillItem (x1 : Nat) : List Nat := [0x10 * 2 ^ 56] ++ surf 1 ++ [area 0 0 x1 1, 0x8000_0000, 0x8000_0000]
/-- How many blocks the drawing of an item has. -/
def drawn (words : List Nat) (d : State → CqItem → Except Abort Drawing) : Option Nat :=
  let u := (queued words).tick 0
  match d u (u.head 1) with
  | .ok g => some g.blocks.length
  | .error _ => none
theorem wit_fill : ((queued (fillItem 4)).tick 0).headIs 1 0x10 = true ∧ ((queued (fillItem 4)).tick 0).crewRight 1 4 = true ∧
    drawn (fillItem 4) (fun u i => u.fillDrawing 1 i) = some 1 ∧ drawn (fillItem 0) (fun u i => u.fillDrawing 1 i) = some 0 := by decide +kernel
theorem wit_fillRefused : let u := ((queued (fillItem 4)).setNum (crewIx 1 1) 5 0).tick 0
    u.headIs 1 0x10 = true ∧ u.crewRight 1 4 = false ∧ drawn ([0x10 * 2 ^ 56] ++ surf 0x10 ++ [0, 0, 0]) (fun u i => u.fillDrawing 1 i) = none := by decide +kernel
def copyItem : List Nat := [0x11 * 2 ^ 56] ++ surf 1 ++ surf 1 ++ [0, area 0 0 4 1]
theorem wit_copy : ((queued copyItem).tick 0).headIs 1 0x11 = true ∧ drawn copyItem (fun u i => u.copyDrawing 1 i) = some 1 := by decide +kernel
def blendItem (fmt : Nat) : List Nat := [0x12 * 2 ^ 56] ++ surf 1 ++ surf fmt ++ [area 0 0 4 1, area 0 0 4 1, 2 ^ 19]
theorem wit_blendCopy : ((queued (blendItem 1)).tick 0).headIs 1 0x12 = true ∧ (surfOf (((queued (blendItem 1)).tick 0).head 1 |>.word 3) (((queued (blendItem 1)).tick 0).head 1 |>.word 4)).fmt ≠ 0x22 ∧
    ((queued (blendItem 0x22)).tick 0).headIs 1 0x12 = true ∧ (surfOf (((queued (blendItem 0x22)).tick 0).head 1 |>.word 3) (((queued (blendItem 0x22)).tick 0).head 1 |>.word 4)).fmt = 0x22 := by decide +kernel
theorem wit_blendDrawn : ((((queued (blendItem 1)).tick 0).blendCopyDrawing 1 (((queued (blendItem 1)).tick 0).head 1) ((queued (blendItem 1)).tick 0).free).isOk) = true ∧
    (({ ((queued (blendItem 0x22)).tick 0) with freeCount := 1 } : State).blendCopyDrawing 1 (((queued (blendItem 0x22)).tick 0).head 1) ((queued (blendItem 0x22)).tick 0).free).isOk = true := by decide +kernel
def rectItem : List Nat := [0x13 * 2 ^ 56] ++ surf 1 ++ [area 0 0 4 1, 0x8000_0000, 0x8000_0000, 1]
def lineItem : List Nat := [0x14 * 2 ^ 56] ++ surf 1 ++ [area 0 0 3 0, 0x8000_0000, 0x8000_0000, 1]
def glyphItem : List Nat := [0x15 * 2 ^ 56] ++ surf 1 ++ surf 0x22 ++ [0, area 0 0 4 1, 0x8000_0000, 0x8000_0000]
theorem wit_rect : ((queued rectItem).tick 0).headIs 1 0x13 = true ∧ (((queued rectItem).tick 0).rectDrawing 1 (((queued rectItem).tick 0).head 1)).isOk = true := by decide +kernel
theorem wit_lineItem : ((queued lineItem).tick 0).headIs 1 0x14 = true ∧ (((queued lineItem).tick 0).lineDrawing 1 (((queued lineItem).tick 0).head 1)).isOk = true := by decide +kernel
theorem wit_glyph : ((queued glyphItem).tick 0).headIs 1 0x15 = true ∧ (((queued glyphItem).tick 0).glyphDrawing 1 (((queued glyphItem).tick 0).head 1)).isOk = true := by decide +kernel
/-- A fill of crew 1 with one block left, `granted` of them paid for. -/
def blitRun (notify : Bool) (granted : Nat) : BlitRun :=
  { notify := notify, cookie := 7, item := { words := fillItem 4, closed := true, malformed := false }
    fill := 0, left := [(0, 0)], clocks := 512, granted := granted, blocks := 0, faulted := false, aperture := [], hostMem := [] }
/-- Crew 1's fill is under way; lane 0 composes heats where `heats` says so. -/
def blitting (notify heats : Bool) (granted : Nat) : State :=
  ((queued []).modCrew 1 (fun k => { k with cq := [], holding := .blit (blitRun notify granted) })).modLane 0 (fun l => { l with mode := if heats then .running else .off })
/-- What a crew's blit is after its last blocks are written. -/
def blitEnd (s : State) : Option (Nat × Bool) := (((s.blitWrite 1 1).blitOf 1).map (fun r => (r.blocks, r.faulted)))
theorem wit_blitDone : ∀ notify ∈ [false, true], let u := (blitting notify false 0).tick 0
    u.running = true ∧ (u.blitOf 1).any (fun r => decide (r.left.length = 1 ∧ r.notify = notify)) = true ∧ u.heatsRun = false ∧ blitEnd u = some (1, false) := by decide +kernel
theorem wit_blitGranted : let u := (blitting true true 1).tick 0
    u.running = true ∧ (u.blitOf 1).any (fun r => decide (r.left.length ≤ r.granted)) = true ∧ u.heatsRun = true := by decide +kernel

theorem wit_programSet : let s := queued [0x07 * 2 ^ 56, 0, 64]
    (s.tick 0).headIs 1 0x07 = true ∧ (s.tick 0).crewRight 1 5 = true ∧ ((s.setNum (crewIx 1 1) 5 0).tick 0).crewRight 1 5 = false := by decide +kernel
/-- A program block at offset 64 of crew 1's aperture with one step, which is STORE. -/
def block : List Host.Cell := (List.range 136).foldl (fun m i => memWrite m (apertureKey 1 (64 + i)) (if i = 135 then 0x24 else (leBytes 4 0x4752_5042 ++ [1]).getD i 0)) []
def installing (m : List Host.Cell) : State :=
  { (lit.modCrew 1 (fun k => { k with installing := [{ lane := 0, replace := 0, region := area 0 0 64 32, block := 64, cookie := 7 }] })) with aperture := m }
theorem wit_programWrong : let u := (installing []).tick 0
    u.running = true ∧ u.readProgram 1 { lane := 0, replace := 0, region := area 0 0 64 32, block := 64, cookie := 7 } = none ∧ (u.handlesOf 1).length < 8 ∧
      u.badBlock 1 { lane := 0, replace := 0, region := area 0 0 64 32, block := 64, cookie := 7 } = none := by decide +kernel
theorem wit_programReady : (((installing block).tick 0).readProgram 1 { lane := 0, replace := 0, region := area 0 0 64 32, block := 64, cookie := 7 }).isSome = true ∧
    (((installing block).tick 0).crew 1).staged = [] := by decide +kernel
/-- A program of crew 1 under handle 1. -/
def program : Program := { owner := 1, lane := 0, region := area 0 0 64 32, everyFrame := false, steps := [], scaler := [], matrix := [], mesh := [], reaches := [], inEffect := true }
theorem wit_programQuota : let u := (({ installing [] with programs := (List.range 8).map (fun i => (i + 1, program)) } : State).tick 0)
    u.running = true ∧ 8 ≤ (u.handlesOf 1).length ∧ (3 : Nat) ∈ u.handlesOf 1 ∧ (9 : Nat) ∉ u.handlesOf 1 := by decide +kernel
/-- A read that begins in the one unit known to be uncorrectable meets it. -/
theorem badRead_first (s : State) (c n a : Nat) (g : Nat) (hb : s.placement.badUnits = [badUnit true (deviceAddr c a)]) (hl : s.granuleLp5 c g = true)
    (hg : g ∈ granulesOf a n) (ha : max a (g * (2 * mib)) = a) (hn : a < min (a + n) ((g + 1) * (2 * mib))) : (s.badRead c a n).isSome = true := by
  simp only [State.badRead, hb, List.cons_ne_nil, if_false]
  refine List.findSome?_isSome_iff.mpr ⟨g, hg, ?_⟩
  simp only [hl, ha, Option.isSome_map, State.badIn, State.badAt, hb, List.cons_ne_nil, if_false, if_true]
  refine List.findSome?_isSome_iff.mpr ⟨badUnit true (deviceAddr c a), by simp [badUnit, b2n], ?_⟩
  rw [if_pos]
  · rfl
  · exact List.any_eq_true.mpr ⟨0, by simp; omega, by simp [badUnit, b2n]; omega⟩
/-- The memory unit of the program block's first byte is known to be uncorrectable. -/
def badProgram : State := ({ installing block with placement := { (installing block).placement with badUnits := [badUnit true (deviceAddr 1 64)] } } : State).tick 0
theorem wit_programBadUnit : badProgram.running = true ∧ (badProgram.badBlock 1 { lane := 0, replace := 0, region := area 0 0 64 32, block := 64, cookie := 7 }).isSome = true :=
  ⟨by decide +kernel, List.findSome?_isSome_iff.mpr ⟨_, List.mem_cons_self ..,
    badRead_first _ _ _ _ 0 rfl (by decide +kernel) (by decide +kernel) (by decide +kernel) (by decide +kernel)⟩⟩
theorem wit_programDelete : let s : State := { queued [0x08 * 2 ^ 56 + 2 ^ 32] with programs := [(1, program)] }
    (s.tick 0).headIs 1 0x08 = true ∧ 1 ∈ (s.tick 0).handlesOf 1 ∧ 2 ∉ (s.tick 0).handlesOf 1 ∧ (∀ p ∈ (s.tick 0).layers, p.2.owner.isSome = true → (s.tick 0).lyr p.1 0x1C ≠ 1) := by decide +kernel
/-- PIN's word 0 at the head of crew c's queue, whose rights are r. -/
def pinning (c r w0 : Nat) : State :=
  let s := (((up.setNum (crewIx c 0) 1 1).setNum (crewIx c 1) 5 r).setNum (crewIx c 1) 4 0xFF).setNum (crewIx c 1) 2 4
  { s with crews := [(c, { blankCrew with cq := [{ words := if bits w0 55 52 ≠ 2 then [0x09 * 2 ^ 56 + w0] else [0x09 * 2 ^ 56 + w0, 0], closed := true, malformed := false }] })], layers := [(3, { blankLayer with owner := some c })] }
theorem wit_pin : ∀ m ∈ [0, 2, 0xF, 3, 0xE], let u := (pinning 1 0xFFFF (2 ^ 52 + m * 2 ^ 48 + 3 * 2 ^ 32)).tick 0; let w := (u.head 1).word 0
    u.headIs 1 0x09 = true ∧ bits w 55 52 = 1 ∧ u.crewRight 1 6 = true ∧ (u.layer (layerField w)).owner = some 1 ∧
    (m ≤ 2 ∨ m = 0xF ↔ bits w 51 48 ≤ 2 ∨ bits w 51 48 = 0xF) := by decide +kernel
theorem wit_pinNotMine : let u := (pinning 1 0 (2 ^ 52 + 3 * 2 ^ 32)).tick 0
    u.headIs 1 0x09 = true ∧ u.crewRight 1 6 = false ∧ ((pinning 1 0xFFFF (2 ^ 52 + 4 * 2 ^ 32)).tick 0).crewRight 1 6 = true ∧ (((pinning 1 0xFFFF (2 ^ 52 + 4 * 2 ^ 32)).tick 0).layer 4).owner ≠ some 1 := by decide +kernel
theorem wit_pinRegion : ((pinning 0 0xFFFF (2 * 2 ^ 52)).tick 0).headIs 0 0x09 = true ∧ ((pinning 0 0xFFFF (2 * 2 ^ 52)).tick 0).crewRight 0 6 = true ∧
    bits ((((pinning 0 0xFFFF (2 * 2 ^ 52)).tick 0).head 0).word 0) 55 52 = 2 ∧ ((pinning 1 0xFFFF (2 * 2 ^ 52)).tick 0).headIs 1 0x09 = true ∧
    ((pinning 1 0xFFFF (3 * 2 ^ 52)).tick 0).headIs 1 0x09 = true ∧ bits ((((pinning 1 0xFFFF (3 * 2 ^ 52)).tick 0).head 1).word 0) 55 52 = 3 := by decide +kernel

/-! ### The plan's upkeep (05, 06) -/

theorem wit_writeback : let u := (lane0 (fun l => { l with wbActive := true, wbOwner := some 1 })).tick 0
    u.running = true ∧ (u.lane 0).wbActive = true ∧ (u.lane 0).wbOwner = some 1 ∧ (u.writeRuns 1 false 5 0 []).2 = true := by decide +kernel
/-- Lane 0 writes a region of 2 × 2 pixels back, to crew 1's aperture. -/
def writesBack : State := ((((set0 5 1 1).setNum (laneIx 0 5) 2 3).setNum (laneIx 0 5) 3 (2 * 2 ^ 32 + 2 * 2 ^ 48)).modLane 0 (fun l => { l with wbActive := true, wbOwner := some 1 })).modCrew 1
  (fun k => { k with granules := [0] })
theorem wit_writebackRuns : ((writesBack.tick 0).wbRuns 0).length = 2 ∧ ((writesBack.tick 0).writeRuns 1 (decide ((writesBack.tick 0).laneNum 0 5 4 = 1)) 5 0 ((writesBack.tick 0).wbRuns 0)).2 = true := by decide +kernel
theorem wit_copying : (({ lit with layers := [(3, { blankLayer with owner := some 1, copying := some 1 })] } : State).tick 0).coxUp = true ∧
    ((({ lit with layers := [(3, { blankLayer with owner := some 1, copying := some 1 })] } : State).tick 0).layer 3).copying = some 1 := by decide
theorem wit_shell : (lit.tick 0).running = true ∧ (lit.tick 0).shellReady = true ∧
    ((lit.modPlacement (fun p => { p with shellTest := some 15 })).tick 0).placement.shellTest = some 15 := by decide +kernel
theorem wit_selftest : (up.tick 0).coxUp = true ∧ (up.tick 0).modes.mode = .run ∧ (2 : Word).toNat ≠ 1 := by decide
theorem wit_abandoned : let u := writesBack.tick 0
    let runs := (u.wbRuns 0).take (Config.freeValue u.freeCount % ((u.wbRuns 0).length + 1))
    ((({ u with freeCount := u.freeCount + 1 } : State).writeRuns 1 (decide (u.laneNum 0 5 4 = 1)) 5 0 runs).1.lane 0).wbOwner = some 1 := by
  have e : ((writesBack.tick 0).wbRuns 0).length = 2 := wit_writebackRuns.1
  simp only [e]
  have h : Config.freeValue (writesBack.tick 0).freeCount % 3 < 3 := Nat.mod_lt _ (by decide)
  generalize Config.freeValue (writesBack.tick 0).freeCount % 3 = m at h
  have h' : m = 0 ∨ m = 1 ∨ m = 2 := by omega
  rcases h' with rfl | rfl | rfl <;> decide +kernel
theorem wit_copies : ∀ d ∈ [1, 3], let u := ({ lit with layers := [(3, { blankLayer with owner := some 1, copying := some d })] } : State).tick 0
    u.coxUp = true ∧ (u.layer 3).copying = some d ∧ u.copyHeld 3 = false := by decide +kernel
theorem wit_scrub : (({ lit with placement := { lit.placement with corrections := List.replicate 15 (scrubKey false 0, 0) } } : State).tick 0).coxUp = true ∧
    16 ≤ ((({ lit with placement := { lit.placement with corrections := List.replicate 16 (scrubKey false 0, 0) } } : State).tick 0).placement.corrections.countP
      (fun c => decide (c.1 = scrubKey false 0) && decide ((0 : Nat) < c.2 + 1_000_000_000))) := by decide +kernel
theorem wit_selftestLaunch : ∀ b ∈ [true, false], let u := (up.modModes (fun m => { m with mode := .launch, step := if b then .planned else .configured })).tick 0
    u.coxUp = true ∧ u.modes.mode = .launch ∧ u.planBuilt = b := by decide +kernel

/-! ### The mover and the utility DMA (10) -/

/-- Channel 0 in a state of `f`, owned by crew 1. -/
def mover (f : Channel → Channel := id) : State := ((up.setNum 0x2200 1 1).setNum (crewIx 1 0) 1 1).modChannel 0 f
theorem wit_mover : lands ((mover).tick 0) (at0 0x40_0040) .move (0 * 0x100 + 0x40) = true ∧ lands ((mover).tick 0) (at0 0x40_3F40) .move (63 * 0x100 + 0x40) = true ∧
    ((mover).tick 0 |>.channel 0).managed = none ∧ ((mover).tick 0 |>.channel 0).mode = .idle ∧ ((mover).tick 0).mover.stoppedAll = false := by decide
theorem wit_moverModes : ∀ m ∈ [ChMode.idle, .running, .waiting, .stopped, .error], ((mover (fun c => { c with mode := m })).tick 0 |>.channel 0).mode = m := by decide
theorem wit_moverPending : ((mover (fun c => { c with mode := .waiting, pending := 15 })).tick 0 |>.channel 0).pending = 15 ∧
    ((mover (fun c => { c with mode := .waiting, pending := 14 })).tick 0 |>.channel 0).pending < 15 := by decide
theorem wit_startOk : (((mover).setReg 0x40_0010 4).tick 0).startError 0 = 0 ∧ (((mover).setReg 0x40_0010 0).tick 0).startError 0 ≠ 0 := by decide +kernel
theorem wit_line : (up.tick 0).awake = true ∧ (up.tick 0).lineMapped 0 = true ∧ (up.tick 0).lineMapped 63 = true ∧ (up.tick 0).lineMapped 24 = false ∧
    lands (up.tick 0) (at0 0x40_00D4) .move 0xD4 = true ∧ lands (up.tick 0) (at0 0x40_00C4) .move 0xC4 = true := by decide
/-- Channel 0 moves four bytes from offset 0 to offset 0x100 of crew 1's aperture. -/
def moving (f : Channel → Channel := id) : State :=
  (((((mover (fun c => f { c with mode := .running })).setReg 0x40_0010 4).setReg 0x40_0008 0x100).setReg 0x40_0018 1).setReg 0x40_0024 1)
theorem wit_burst : let u := (moving).tick 0; let p := placeAfter (u.xfer 0) (u.channel 0) 0; let e := u.elements 0 (u.xfer 0) p.1 p.2
    u.awake = true ∧ (u.channel 0).managed = none ∧ u.moverNext = some 0 ∧ u.chPaced 0 = false ∧ u.chOwner 0 = some 1 ∧
      (u.reachAll 1 (u.ws 0) false 0 e.1).2 = true ∧ ((u.reachAll 1 (u.ws 0) false 0 e.1).1.reachAll 1 (u.wd 0) true 0 e.2).2 = true := by decide +kernel
theorem wit_burstUnowned : (((moving).setNum 0x2200 1 0xFFFF).tick 0).chOwner 0 = none ∧ (((moving).setNum 0x2200 1 0xFFFF).tick 0).moverNext = some 0 := by decide +kernel
/-- One burst of channel 0 in flight. -/
def flying : State := moving (fun c => { c with inFlight := [{ outer := 0, middle := 0, host := false, bytes := [(apertureKey 1 0x100, 7)] }] })
theorem wit_burstDone : (flying.tick 0).awake = true ∧ (flying.tick 0 |>.channel 0).inFlight ≠ [] ∧ (flying.tick 0).mover.stopping = none ∧
    (∃ p ∈ (flying.tick 0).channels, p.1 < 64 ∧ p.2.inFlight ≠ []) := by decide +kernel
theorem wit_fetch : let u := (moving (fun c => { c with outer := 1, hops := 1024 })).tick 0; u.fetchReady 0 = true ∧ u.chReg 0 0x3C ≤ (u.channel 0).hops := by decide +kernel
/-- Channel 0's move with its source or destination in host memory. -/
def hostMove (dst : Bool) : State := (moving).setReg (if dst then 0x40_000C else 0x40_0004) 0x4000_0000
/-- Crew 1's first page is in its translation cache, readable and writable. -/
def paged (s : State) : State := s.modCrew 1 (fun k => { k with xltCache := [(0, 3)] })
def unlinked (s : State) : State := s.modPort 0 (fun p => { p with linkUp := false })
/-- Channel 0's next burst: whether its source and its destination are reached, and whether a target of the source fails. -/
def moveParts (u : State) : Bool × Bool × Bool :=
  let e := u.elements 0 (u.xfer 0) 0 0
  let r := u.reachAll 1 (u.ws 0) false 0 e.1
  let w := r.1.reachAll 1 (u.wd 0) true 0 e.2
  (r.2, w.2, (w.1.targetError 1 (u.ws 0) 0 false e.1).isSome)
theorem wit_burstReached : moveParts ((hostMove false).tick 0) = (false, true, false) ∧ moveParts ((hostMove true).tick 0) = (true, false, false) ∧
    moveParts ((unlinked (paged (hostMove false))).tick 0) = (true, true, true) ∧ moveParts ((paged (hostMove true)).tick 0) = (true, true, false) := by decide +kernel
theorem wit_burstNext : ((hostMove false).tick 0).moverNext = some 0 ∧ ((hostMove true).tick 0).moverNext = some 0 ∧ ((unlinked (paged (hostMove false))).tick 0).moverNext = some 0 ∧
    ((paged (hostMove true)).tick 0).moverNext = some 0 := by decide +kernel
/-- Channel 8 forwards slot 0's frame, with one request pending. -/
def forwardMoves : State := (forwarding { fwdFrame [] false false with line := true, issued := 1 } (fun q => { q with landed := 1 })).modChannel 8 (fun c => { c with managed := some 0, mode := .running, pending := 1 })
theorem wit_burstManaged : (forwardMoves.tick 0).moverNext = some 8 ∧ (forwardMoves.tick 0 |>.channel 8).managed = some 0 ∧
    ((forwardMoves.modChannel 8 (fun c => { c with inFlight := [{ outer := 0, middle := 0, host := false, bytes := [] }] })).tick 0 |>.channel 8).inFlight ≠ [] := by decide +kernel
theorem wit_writeFails : let b : Burst := { outer := 0, middle := 0, host := true, bytes := [(0, 7)] }
    ((unlinked (moving (fun c => { c with inFlight := [b] }))).tick 0).writeFails 0 b = true ∧ ((moving (fun c => { c with inFlight := [b] })).tick 0).writeFails 0 b = false := by decide +kernel
/-- Channel 0's transfer is over and its chain goes on at `a`, with `hops` of 1,024 taken. -/
def chained (lo hi hops : Nat) : State :=
  (((moving (fun c => { c with outer := 1, hops := hops })).setReg 0x40_003C 1024).setReg 0x40_0034 lo).setReg 0x40_0038 hi
theorem wit_descriptors : ((chained 32 0 1023).tick 0).fetchReady 0 = true ∧ ((chained 32 0 1023).tick 0).chReg 0 0x3C = 1024 ∧ (((chained 32 0 1023).tick 0).channel 0).hops < 1024 ∧
    spaceOk (((chained 32 0 1023).tick 0).nextDesc 0) = true ∧ ((chained 32 0 1023).tick 0).nextDesc 0 % 32 = 0 ∧ ((chained 16 0 0).tick 0).nextDesc 0 % 32 ≠ 0 ∧
    spaceOk (((chained 32 0x8000_0000 0).tick 0).nextDesc 0) = false ∧ ((chained 32 0 0).tick 0).chOwner 0 = some 1 ∧
    (((chained 32 0 0).setNum 0x2200 1 0xFFFF).tick 0).chOwner 0 = none := by decide +kernel
/-- The read of channel 0's descriptor: whether it is reached, and whether its target fails. -/
def descParts (u : State) : Bool × Bool :=
  let a := u.nextDesc 0
  let r := u.reachAll 1 32 false 0 [(bitOf a 62, a % 2 ^ 62)]
  (r.2, (r.1.targetError 1 32 0 false [(bitOf a 62, a % 2 ^ 62)]).isSome)
theorem wit_descriptorReads : descParts ((chained 32 0 0).tick 0) = (true, false) ∧ descParts ((chained 32 0x4000_0000 0).tick 0) = (false, false) ∧
    descParts ((unlinked (paged (chained 32 0x4000_0000 0))).tick 0) = (true, true) := by decide +kernel
theorem wit_stopClears : lands (({ mover with mover := { (mover).mover with stoppedAll := true } } : State).tick 0) (at0 0x40_00C4) .move 0xC4 = true ∧
    (({ mover with mover := { (mover).mover with stoppedAll := true } } : State).tick 0).mover.stoppedAll = true ∧ ((mover).tick 0).mover.stoppedAll = false := by decide
theorem wit_stop : let e : BusError := (default : BusError); let u := (({ mover with mover := { (mover).mover with stopping := some e } } : State)).tick 0
    u.awake = true ∧ u.mover.stopping = some e ∧ (∀ i, i < 64 → (u.channel i).inFlight = []) := by decide +kernel
theorem wit_autoResume : let u := (({ (mover).setNum 0x2240 2 5 with mover := { (mover).mover with stoppedAll := true, stoppedAt := 0 } } : State)).tick 5_000_000
    u.coxUp = true ∧ u.mover.stoppedAll = true ∧ 0 < u.num 0x2240 2 ∧ u.mover.stoppedAt + u.num 0x2240 2 * 1_000_000 ≤ u.now := by decide +kernel
/-- Utility channel 0 with four bytes to move, in mode m. -/
def utility (m : ChMode) : State := (up.modChannel 64 (fun c => { c with mode := m })).setReg 0x41_0010 4
theorem wit_udma : lands ((utility .idle).tick 0) (at0 0x41_0040) .udma (0 * 0x100 + 0x40) = true ∧ lands ((utility .idle).tick 0) (at0 0x41_0740) .udma (7 * 0x100 + 0x40) = true ∧
    ((utility .idle).tick 0 |>.channel 64).managed = none ∧ ((utility .stopped).tick 0 |>.channel 64).mode = .stopped ∧ ((utility .running).tick 0).udmaNext = some 64 ∧
    ((utility .running).tick 0).udmaRuns 64 = true := by decide +kernel
/-- Utility channel 0 reads or writes host memory. -/
def utilityHost (dst : Bool) (f : State → State := id) : State := f (((utility .running).setReg (if dst then 0x41_000C else 0x41_0004) 0x4000_0000).modCrew 0 (fun k => { k with xltCache := [(0, 3)] }))
/-- The utility channel's next burst: whether its source and its destination are reached, and whether a target of either fails. -/
def utilityParts (u : State) : Bool × Bool × Bool × Bool :=
  let e := u.elements 64 (u.xfer 64) 0 0
  let r := u.reachAll 0 (u.ws 64) false 64 e.1
  let w := r.1.reachAll 0 (u.wd 64) true 64 e.2
  (r.2, w.2, (w.1.targetError 0 (u.ws 64) 64 false e.1).isSome, (w.1.targetError 0 (u.wd 64) 64 true e.2).isSome)
theorem wit_utilityReached : utilityParts ((utilityHost false).tick 0) = (true, true, false, false) ∧
    utilityParts ((utilityHost false (fun s => s.modCrew 0 (fun k => { k with xltCache := [] }))).tick 0) = (false, true, false, false) ∧
    utilityParts ((utilityHost true (fun s => s.modCrew 0 (fun k => { k with xltCache := [] }))).tick 0) = (true, false, false, false) ∧
    utilityParts ((utilityHost false unlinked).tick 0) = (true, true, true, false) ∧ utilityParts ((utilityHost true unlinked).tick 0) = (true, true, false, true) := by decide +kernel
theorem wit_utilityNext : ((utilityHost false unlinked).tick 0).udmaNext = some 64 ∧ ((utilityHost true unlinked).tick 0).udmaNext = some 64 := by decide +kernel
/-- The unit of the utility channel's first source byte is known to be uncorrectable. -/
def utilityBad : State := ({ utility .running with placement := { up.placement with badUnits := [badUnit true (deviceAddr 0 0)] } } : State).tick 0
theorem wit_utilityBad : utilityBad.udmaNext = some 64 ∧ (utilityBad.badRead 0 0 1).isSome = true :=
  ⟨by decide +kernel, badRead_first _ _ _ _ 0 rfl (by decide +kernel) (by decide +kernel) (by decide +kernel) (by decide +kernel)⟩

/-! ### Queues and host ports (11) -/

/-- Crew 1 with the queue and completion queue of `f`. -/
def queue (f : Crew → Crew := id) : State := (up.setNum (crewIx 1 0) 1 1).modCrew 1 f
/-- The premises of a push of `hi`: the register, full, in item, tag, words of the open item. -/
def pushed (hi : Word) (f : Crew → Crew := id) : Bool × Bool × Bool × Nat × Nat :=
  let u := (queue f).tick 0
  let k := u.crew 1
  (lands u (pageAcc 1 4) (.crew 1) 4 && u.crewEnabled 1, decide (128 ≤ (k.cq.map (fun i => i.words.length)).sum), k.inItem, tagOf (hi.toNat * 2 ^ 32 + k.pushLo),
   (k.cq.getLast?.map (fun i => i.words.length)).getD 0)
def opened16 (n : Nat) (k : Crew) : Crew := { k with inItem := true, cq := [{ words := List.replicate n 0, closed := false, malformed := false }] }
def filled (inItem : Bool) (k : Crew) : Crew := { k with inItem := inItem, cq := List.replicate 8 { words := List.replicate 16 0, closed := true, malformed := false } }
theorem wit_pushOutside : pushed 0x8000_0000 = (true, false, false, 2, 0) ∧ pushed 0xC000_0000 = (true, false, false, 3, 0) ∧ pushed 0 = (true, false, false, 0, 0) ∧
    pushed 0x4000_0000 = (true, false, false, 1, 0) ∧ pushed 0x8000_0000 (filled false) = (true, true, false, 2, 16) := by decide +kernel
theorem wit_pushInside : pushed 0 (opened16 15) = (true, false, true, 0, 15) ∧ pushed 0x4000_0000 (opened16 15) = (true, false, true, 1, 15) ∧
    pushed 0x4000_0000 (opened16 16) = (true, false, true, 1, 16) ∧ pushed 0 (filled true) = (true, true, true, 0, 16) ∧ pushed 0xC000_0000 (opened16 1) = (true, false, true, 3, 1) := by decide +kernel

theorem wit_pop : ((queue (fun k => { k with eq := [7] })).tick 0).accOpen (pageAcc 1 0x20) = true ∧ (((queue).tick 0).crew 1).popSince = none ∧ (((queue).tick 0).crew 1).eq = [] ∧
    (((queue (fun k => { k with popSince := some 0 })).tick 40_000).crew 1).popSince = some 0 ∧ ((queue (fun k => { k with popSince := some 0 })).tick 40_000).now = 40_000 := by decide
theorem wit_armFlushBell : lands ((queue).tick 0) (pageAcc 1 0x30) (.crew 1) 0x30 = true ∧ lands ((queue).tick 0) (pageAcc 1 0xC) (.crew 1) 0xC = true ∧
    (((queue).tick 0).crew 1).holding = .idle ∧ lands ((queue).tick 0) (pageAcc 1 0x4C) (.crew 1) 0x4C = true ∧
    ((queue).tick 0).reg ((Block.host (1 / 128)).base + 8) 0 % 128 ≠ 1 ∧ (((queue).setReg 0xB0_0008 1).tick 0).reg ((Block.host (1 / 128)).base + 8) 0 % 128 = 1 := by decide
theorem wit_post : (queue).quiet = false ∧ ((queue).crew 1).popSince = none ∧ (queue).crewEnabled 1 = true ∧ (queue).crewEnabled 2 = false ∧ (((queue).crew 1).eq).length < 256 ∧
    256 ≤ ((queue (fun k => { k with eq := List.replicate 256 0 })).crew 1).eq.length := by decide

def port (f : Port → Port := id) : State := up.modPort 0 f
theorem wit_perst : ((port (fun x => { x with linkUp := false })).tick 0).awake = true ∧ (((port (fun x => { x with linkUp := false })).tick 0).port 0).linkUp = false ∧
    (((port (fun x => { x with perst := true })).tick 0).port 0).perst = true ∧ ((port (fun x => { x with crs := true })).tick 0).configured = true ∧
    (((port (fun x => { x with crs := true })).tick 0).port 0).crs = true ∧ ((port).tick 0 |>.port 0).perst = false := by decide
theorem wit_links : ((port).tick 0).awake = true ∧ ((port).tick 0 |>.port 0).linkUp = true ∧ ((port (fun x => { x with linkUp := false })).tick 0).portUp 0 = true ∧
    ((port).tick 0).portUp 0 = true ∧ ((port).tick 0 |>.port 0).lanes ≠ 4 % 16 := by decide
theorem wit_retrain : ((port (fun x => { x with lanes := 4, speed := 4 })).tick 0 |>.port 0).lanes = 4 % 16 ∧ ((port (fun x => { x with lanes := 4, speed := 4 })).tick 0 |>.port 0).speed = 4 % 8 := by decide +kernel

theorem wit_aperture : ((queue).tick 0).apertureOpen 1 0x0FFF_FFF8 8 = true ∧ ((queue).tick 0).apertureOpen 1 0x0FFF_FFF9 8 = false := by decide
theorem wit_apertureStore : memWf (queue).aperture = true ∧ (∀ g ∈ granulesOf 0 8, g ∈ (((queue (fun k => { k with granules := [0] })).tick 0).crew 1).granules) := by decide
theorem wit_xlt : lands ((queue).tick 0) (pageAcc 1 0x68) (.crew 1) 0x68 = true ∧ (((queue).tick 0).reg ((Block.crew 1).base + 0x68) 0 ^^^ (1 : Word).toNat) &&& 0xFFFF_FFFC = 0 ∧
    (((queue (fun k => { k with xltBusy := true })).tick 0).crew 1).xltBusy = true ∧ ((queue).tick 0).mover.stopping = none ∧ ((queue).tick 0).mover.stoppedAll = false := by decide
/-- Crew 1's first granule is not backed; every granule there is belongs to crew 2 where `full` says so. -/
def unbacked (full : Bool) : State := (queue).modCrew 2 (fun k => { k with granules := List.range (if full then (queue).backingCapacity / (2 * mib) else 0) })
theorem wit_apertureRoom : ∀ full ∈ [false, true], let u := (unbacked full).tick 0
    let need := (granulesOf 0 8).filter (fun g => !(u.crew 1).granules.contains g)
    u.apertureOpen 1 0 8 = true ∧ need ≠ [] ∧ memWf u.aperture = true ∧
    decide (((u.crews.map (fun p => p.2.granules.length)).sum + need.length) * (2 * mib) ≤ u.backingCapacity) = !full := by decide +kernel
theorem wit_cplTimeout : (up.tick 0).portUp 0 = true ∧ ((up.tick 0).badRead 1 0 8) = none ∧
    ((up.modMover (fun m => { m with stoppedAll := true })).tick 0).mover.stoppedAll = true := by decide +kernel
/-- The unit of crew 1's first byte is known to be uncorrectable. -/
def badByte : State := ({ queue with placement := { (queue).placement with badUnits := [badUnit true (deviceAddr 1 0)] } } : State).tick 0
theorem wit_badByte : badByte.apertureOpen 1 0 8 = true ∧ (badByte.badRead 1 0 8).isSome = true :=
  ⟨by decide +kernel, badRead_first _ _ _ _ 0 rfl (by decide +kernel) (by decide +kernel) (by decide +kernel) (by decide +kernel)⟩

/-! ### The umpire, photo-finish and LIMP (12) -/

/-- Sources 0 and 8 are latched and in the snapshot 5; 8 is still active. -/
def snapped : State := up.modUmpire (fun x => { x with latched := 0x101, snap := 0x101, snapSeq := 5, active := 0x100 })
theorem wit_clear : lands (snapped.tick 0) (at0 0x60_000C) .umpire 0xC = true ∧ (5 : Word).toNat % 2 ^ 16 = (snapped.tick 0).umpire.snapSeq ∧ (6 : Word).toNat % 2 ^ 16 ≠ (snapped.tick 0).umpire.snapSeq ∧
    lands (snapped.tick 0) (at0 0x60_0004) .umpire 4 = true ∧ lands (snapped.tick 0) (at0 0x60_0300) .umpire 0x300 = true ∧ (snapped.tick 0).modes.mode ≠ .factory := by decide
def classed (n c : Nat) (limp : Bool) : State :=
  let s := up.modUmpire (fun x => { x with classes := [(n, c)] })
  s.modLimp (fun l => { l with record := if limp then some { background := 0, bitmaps := [] } else none })
theorem wit_occurrence : ∀ c ∈ [0, 1, 2, 3], ((classed 96 c true).tick 0).classOf 96 = c ∧ ((classed 96 c true).tick 0).awake = true ∧
    ((classed 96 c true).tick 0).umpire.latched.testBit 96 = false ∧ ((classed 96 c true).tick 0).limpIntact = true ∧ ((classed 96 c false).tick 0).limpIntact = false ∧
    ((classed 96 c false).tick 0).modes.mode = .run ∧ ((classed 96 c false).tick 0).modes.portsDisabled = false := by decide

/-- Lane 0 has judged a frame; region 0 watches its first pixel with mode 1 and an expected CRC of v. -/
def watched (v failAfter : Nat) : State :=
  let s := (((lit.setNum (regionIx 0 0) 1 1).setNum (regionIx 0 0) 2 (2 ^ 32 + 2 ^ 48)).setNum (regionIx 0 0) 6 failAfter)
  ((s.modRegion 0 (fun r => { r with expected := v })).modLane 0 (fun l => { l with evaluated := true })).count (laneCount 0 0) 5
def crcOf (s : State) : Nat := ((s.checkOf 0 0).map (fun k => regionCrc (s.regionWords 0 k.rect))).getD 0
theorem wit_region : ((watched 0 2).tick 30_000).regionReady 0 0 = true ∧ (((watched 0 2).tick 30_000).checkOf 0 0).any (fun k => decide (k.mode = 1 ∧ k.source ≠ 49)) = true ∧
    (((watched 0 2).tick 30_000).region 0).run + 1 < 2 ∧ 1 ≤ (((watched 0 1).tick 30_000).region 0).run + 1 ∧ crcOf ((watched 0 2).tick 30_000) ≠ 0 ∧
    crcOf ((watched (crcOf ((watched 0 2).tick 30_000)) 2).tick 30_000) = crcOf ((watched 0 2).tick 30_000) := by decide +kernel
theorem wit_rearm : (up.tick 0).awake = true ∧ (up.tick 0).mayRearm 0 7 31 = true := by decide
theorem wit_limp : ((up.modLimp (fun l => { l with driving := true })).tick 0).limpReady = true ∧
    (({ State.reset with modes := { blankModes with step := .configured } } : State).tick 0).limpLoadReady = true := by decide

theorem wit_latchedAgain : let u := (up.modUmpire (fun x => { x with latched := 2 ^ 127, class48 := 1 })).tick 0
    u.awake = true ∧ u.umpire.latched.testBit 127 = true ∧ u.umpire.latched.testBit 0 = false := by decide +kernel
theorem wit_umpireModes : ∀ m ∈ [Mode.factory, .limp], ∀ intact ∈ [false, true], let u := ((classed 96 3 intact).modModes (fun x => { x with mode := m })).tick 0
    u.awake = true ∧ u.modes.mode = m ∧ u.modes.portsDisabled = false ∧ u.limpIntact = intact ∧ u.classOf 96 = 3 := by decide +kernel
theorem wit_portsDisabled : ((up.modModes (fun m => { m with portsDisabled := true })).tick 0).awake = true ∧ ((up.modModes (fun m => { m with portsDisabled := true })).tick 0).modes.portsDisabled = true := by decide
theorem wit_inject : let u := (up.modModes (fun m => { m with mode := .factory })).tick 1_000_000
    lands u (at0 0x60_0300) .umpire 0x300 = true ∧ u.modes.mode = .factory ∧ within 59 63 58 = false ∧ within 59 63 59 = true ∧ within 59 63 63 = true ∧ within 59 63 64 = false ∧
    [0x200, 0x300, 0x100, 0].all (fun v => decide ((u.reg (Block.umpire.base + 0x300) 0 ^^^ v) &&& 0xFFFF_FC80 = 0)) = true := by decide +kernel
/-- The outcome of `watched`'s region under another mode. -/
def outcomeOf (s : State) : Option (Option Bool) := (s.checkOf 0 0).map (fun k => (s.outcome 0 0 k ((s.region 0).rearmed (s.frame 0)) (regionCrc (s.regionWords 0 k.rect)) (classCounts (s.regionWords 0 k.rect))).1)
theorem wit_outcomes : outcomeOf ((watched 0 2).tick 30_000) = some (some false) ∧ outcomeOf ((watched (crcOf ((watched 0 2).tick 30_000)) 2).tick 30_000) = some (some true) ∧
    outcomeOf (((watched 0 2).setNum (regionIx 0 0) 1 2).tick 30_000) = some none := by decide +kernel
theorem wit_limpFrames : ∀ r ∈ [none, some ({ background := 0, bitmaps := [] } : LimpRecord)], let u := (up.modLimp (fun l => { l with driving := true, record := r })).tick 0
    u.limpReady = true ∧ u.limp.record = r := by decide +kernel

/-! ### The sealed measuring unit (13) -/

/-- The unit runs, and answers crew 1. -/
def sealedUp (f : Smu → Smu := id) : State := (({ up with smu := f { blankSmu with running := true } } : State).setNum 0x7801 5 1)
def slot : SmuSlot := { authentic := true, counter := 1, pulses := [0, 0, 0, 0], journey := blankJourney, eventCounter := 0, tripA := 0, tripB := 0, time := 0 }
theorem wit_smuStart : let s := up.modModes (fun m => { m with monotonic := 1 })
    (s.tick 0).smu.running = false ∧ (s.tick 0).powered = true ∧ (s.tick 0).modes.monotonic ≠ 0 ∧ [slot].find? (fun y => y.authentic && decide (y.counter = (s.tick 0).modes.monotonic)) = some slot := by decide
theorem wit_pulse : ((sealedUp).tick 0).modes.mode ≠ .unpowered ∧ (3 : Nat) < 4 ∧ (3 : Nat) ≠ ((sealedUp).tick 0).num 0x7801 2 ∧ (2 : Nat) ≠ ((sealedUp).tick 0).num 0x7801 2 ∧
    ((up.modModes (fun m => { m with counting := true })).tick 0).smu.running = false ∧ ((up.modModes (fun m => { m with counting := true })).tick 0).modes.counting = true := by decide
theorem wit_smuTimes : ((sealedUp (fun q => { q with overrate := true })).tick 1_000_000_000).smu.overrateAt + 1_000_000_000 ≤ ((sealedUp).tick 1_000_000_000).now ∧
    ((sealedUp).tick 0).smu.running = true ∧ ((sealedUp).tick 0).smu.effects = [] ∧
    ((sealedUp (fun q => { q with indValid := true })).tick 3_600_000_000_000).smu.judgedAt + ((sealedUp).tick 0).num 0x7801 9 * 1_000_000 ≤ 3_600_000_000_000 := by decide
theorem wit_indication : ((sealedUp).tick 0).bufferFree 0 = true ∧ ((sealedUp).tick 0).rasterOk [] = true ∧ (((sealedUp).setNum 0x7801 7 (2 ^ 32 + 2 ^ 48)).tick 0).rasterOk [3] = true := by decide
theorem wit_seal : ((sealedUp).tick 0).smu.sealOpen = false ∧ ((sealedUp (fun q => { q with sealOpen := true })).tick 60_000_000_000).smu.sealAnswered = false ∧
    ((sealedUp (fun q => { q with sealOpen := true })).tick 60_000_000_000).smu.verifying = false ∧ ((sealedUp).tick 60_000_000_000).smu.sealSince + 60_000_000_000 ≤ ((sealedUp).tick 60_000_000_000).now ∧
    ((sealedUp (fun q => { q with showId := true })).tick 10_000_000_000).smu.showIdAt + 10_000_000_000 ≤ ((sealedUp).tick 10_000_000_000).now := by decide
theorem wit_verify : ((sealedUp (fun q => { q with closing := some { since := 0, crew := 1, cookie := 7, passes := 0 } })).tick 1_000_000_000).smu.closing = some { since := 0, crew := 1, cookie := 7, passes := 0 } ∧
    ((sealedUp (fun q => { q with verifying := true })).tick 1_800_000_000_000).smu.verifying = true ∧
    ((sealedUp (fun q => { q with verifying := true })).tick 1_800_000_000_000).smu.lastAuth + 1_800_000_000_000 ≤ ((sealedUp).tick 1_800_000_000_000).now := by decide
/-- An SMU item of code c at the head of crew 1's queue, the requester being crew r. -/
def asked (c n r : Nat) : State := { (queued ([0x0A * 2 ^ 56 + c * 2 ^ 48] ++ List.replicate n 0)).setNum 0x7801 5 r with smu := { blankSmu with running := true } }
theorem wit_requests : ∀ c ∈ [1, 2, 3, 4, 5, 6, 7, 8, 0x10, 0x11, 0x12, 0x13, 0x14, 0x15], ((asked c (smuLength c - 1) 1).tick 0).headSmu 1 c = true ∧
    (((asked c (smuLength c - 1) 1).tick 0).head 1).words.length = smuLength c ∧ 1 = ((asked c (smuLength c - 1) 1).tick 0).num 0x7801 5 ∧
    (((asked c (smuLength c - 1) 1).tick 0).head 1).word 1 &&& smuWord1 c = (((asked c (smuLength c - 1) 1).tick 0).head 1).word 1 ∧ 1 ≠ ((asked c (smuLength c - 1) 2).tick 0).num 0x7801 5 := by decide +kernel
theorem wit_requestLength : let u := (asked 1 2 1).tick 0
    u.headSmu 1 1 = true ∧ (u.head 1).words.length ≠ smuLength 1 := by decide +kernel
theorem wit_journey : ((sealedUp (fun q => { q with journey := { blankJourney with kind := 1 } })).smuImage).smu.journey.kind = 1 ∧ ((sealedUp).smuImage).smu.running = true ∧
    ((sealedUp).smuImage).smu.verifying = false := by decide

theorem wit_smuLost : (up.tick 0).smu.running = false ∧ (up.tick 0).powered = true ∧ (up.tick 0).modes.monotonic = 0 ∧
    (∀ y ∈ [slot], y.authentic = true → y.counter ≠ 0) ∧ newestSlot [slot] = some slot ∧ newestSlot [] = none ∧
    [slot].find? (fun y => y.authentic && decide (y.counter = 2)) = none := by decide
theorem wit_smuTickDue : ((sealedUp (fun q => { q with timeValid := false })).tick 0).smu.timeValid = false ∧ ((sealedUp).tick 1_000_000_000_000).smu.nextTick ≤ ((sealedUp).tick 1_000_000_000_000).now ∧
    ((sealedUp (fun q => { q with effects := [{ crew := 1, cookie := 7, result := 0, effect := .stop }] })).tick 0).smu.effects.any (fun a => decide (a.effect ≠ .refused)) = true := by decide
theorem wit_sealClosing : ∀ k ∈ [none, some ({ since := 0, crew := 1, cookie := 7, passes := 0 } : SmuClosing)],
    let u := (sealedUp (fun q => { q with sealOpen := true, verifying := true, closing := k })).tick 0
    u.smu.running = true ∧ u.smu.sealOpen = true ∧ u.smu.verifying = true ∧ u.smu.closing = k := by decide
theorem wit_requestBits : let u := ((queued [0x0A * 2 ^ 56 + 2 ^ 48, 16]).setNum 0x7801 5 1).tick 0
    u.headSmu 1 1 = true ∧ 1 = u.num 0x7801 5 ∧ (u.head 1).words.length = 2 ∧ (u.head 1).word 1 &&& smuWord1 1 ≠ (u.head 1).word 1 := by decide +kernel

/-! ### Security (14) -/

def cfg : LaunchCfg :=
  { objects := [], refCfg := 0, classes := [], limpLane := 0, limpPair := 0, alarmPolicy := defaultAlarmPolicy, targetLimp := false, selftest := false,
    provisionWindow := 60, portsEnabled := 0, lp5Bytes := 0, lp5Rate := 0, lp5Ecc := false, panelInit := [], early := none }
def image (good : Bool) : BootImage :=
  { headerGood := good, slot := 0, publicKey := [], body := [], signature := [], version := 1, raiseMin := false, blob := 0, cfg := cfg }
theorem wit_boot : State.reset.bootReady = true ∧ State.reset.imageResult (image false) ≠ 0 ∧
    ((State.reset.modSec (fun c => { c with bootStatus := 0x22 })).refuseImages).modes.step = .begun := by decide
/-- An image is taken where its signature is right, whatever the digest of its key. -/
theorem wit_bootTaken (h : Config.ecdsaVerifies (Config.sha384 []) [] [] = true) :
    (State.reset.modSec (fun c => { c with fuses := { c.fuses with bootHashes := [(0, Config.sha384 [])] } })).imageResult (image true) = 0 := by
  simp [State.imageResult, State.modSec, image, State.reset, blankSec, blankFuses, tabFind, h]
theorem wit_bootConfigured : (State.reset.acceptImage (image true) 0x10).modes.step = .configured := by decide +kernel

def secured (f : Sec → Sec := id) : State := up.modSec f
theorem wit_challenge : ((secured (fun c => { c with withheld := true })).tick 0).sec.withheld = true ∧ ((secured).tick 0).sec.withheld = false ∧ ((secured).tick 0).awake = true ∧
    ¬ (((secured).tick 0).modes.mode = .factory ∧ ((secured).tick 0).sec.lock = false) ∧ ((secured).tick 0).sec.challenge = none ∧
    (let u := (secured).tick 0; ((u.modSec (fun c => { c with debugFails := 1, challenge := none, withheld := true, withheldUntil := u.now + 1_000_000_000 })).raise secStatus [2]).failsExceeded = false) := by decide
theorem wit_unlock (h : Config.ecdsaVerifies 9 (leBytes 32 5 ++ leBytes 4 sysId ++ leBytes 4 7) [] = true) :
    let u := (secured (fun c => { c with challenge := some 5, fuses := { c.fuses with debugHash := some 9 } })).tick 0
    u.sec.challenge = some 5 ∧ u.sec.fuses.debugHash = some 9 ∧ u.sec.lock = false ∧ Config.ecdsaVerifies 9 (leBytes 32 5 ++ leBytes 4 sysId ++ leBytes 4 7) [] = true :=
  ⟨rfl, rfl, rfl, h⟩
theorem wit_alarm : ((secured).tick 0).romBusy = false ∧ (∃ a, a < 7 ∧ ((secured).tick 0).policyNow a < 2) ∧
    ∀ p ∈ [0, 1, 2], ((secured (fun c => { c with policy := p })).tick 0).policyNow 0 = p := by decide
theorem wit_backoff : ((secured (fun c => { c with withheld := true, withheldUntil := 5 })).tick 5).sec.withheldUntil ≤ ((secured (fun c => { c with withheld := true, withheldUntil := 5 })).tick 5).now ∧
    (({ State.reset with modes := { blankModes with step := .hold } } : State).tick 60_000_000_000).holdOver = true := by decide
theorem wit_revoke : lands ((secured).tick 0) (at0 0x80_0018) .sec 0x18 = true ∧ ((secured).tick 0).sec.runningSlot = 0 ∧ ((secured).tick 0).sec.lock = false ∧
    (let u := (secured (fun c => { c with fuses := { c.fuses with bootHashes := [(0, 5)] } })).tick 0
     u.sec.runningSlot ≠ 1 ∧ u.sec.fuses.revoked.testBit 0 = false ∧ tabFind u.sec.fuses.bootHashes 0 ≠ none) ∧
    (∀ k, k < 4 → k ≠ 3 → ((secured).tick 0).sec.fuses.revoked.testBit k = true ∨ tabFind ((secured).tick 0).sec.fuses.bootHashes k = none) := by decide
theorem wit_policy : lands ((secured).tick 0) (at0 0x80_0010) .sec 0x10 = true ∧ (∀ a, a < 7 → policyOf ((secured).tick 0).sec.policy a ≤ policyOf 0x1F_FFFF a ∧
    alarmClass ((secured).tick 0).sec.policy a ≤ alarmClass 0x1F_FFFF a) ∧ (∃ a, a < 7 ∧ policyOf 0 a < policyOf ((secured).tick 0).sec.policy a) := by decide

theorem wit_alarmChallenge : ∀ fails ∈ [0, 254], let u := ((secured (fun c => { c with challenge := some 5, debugFails := fails })).setNum 0x7400 5 100).tick 0
    u.awake = true ∧ u.sec.challenge ≠ none ∧ (u.modSec (fun c => { c with debugFails := min 255 (u.sec.debugFails + 1) })).failsExceeded = decide (fails = 254) := by decide +kernel
theorem wit_factoryUnlock : (((secured).modModes (fun m => { m with mode := .factory })).tick 0).modes.mode = .factory ∧ (((secured).modModes (fun m => { m with mode := .factory })).tick 0).sec.lock = false := by decide

/-! ### Modes, resets and supplies (15, 17) -/

def launching (st : LaunchStep) (f : Modes → Modes := id) : State := { State.reset with modes := f { blankModes with step := st } }
theorem wit_launch : ((launching .limpLoaded).tick 0).planReady = true ∧ ((launching .planned (fun m => { m with selftest := 1, selftestAsked := true })).tick 0).testRuns = true ∧
    ((launching .planned).tick 0).launchReady = true ∧ ((launching .selftest).tick 0).launchReady = true ∧ ((launching .planned (fun m => { m with mode := .factory })).tick 0).launchReady = true := by decide
theorem wit_target : ((launching .planned).tick 0).sec.keysErased = false ∧ ((launching .planned).tick 0).num 0x2000 2 ≠ 4 ∧ (((launching .planned).setNum 0x2000 2 4).tick 0).num 0x2000 2 = 4 ∧
    (((launching .planned).modSec (fun c => { c with erased := true })).tick 0).sec.keysErased = true ∧ ((launching .planned).tick 0).sec.provisionWindow ≠ 0 ∧
    (((launching .planned).modSec (fun c => { c with erased := true, provisionWindow := 0 })).tick 0).sec.provisionWindow = 0 := by decide
theorem wit_sleep : ((up.modModes (fun m => { m with sleeping := some true })).tick 0).modes.sleeping = some true ∧ (up.tick 0).modes.mode ≠ .unpowered ∧ bitOf ((up.tick 0).reg 0x1_0040 3) 0 = true ∧
    bitOf (((up.setReg 0x1_0040 0).tick 0).reg 0x1_0040 3) 0 = false ∧ ((up.modModes (fun m => { m with mode := .watch })).tick 0).modes.inReset = false ∧
    ((up.modModes (fun m => { m with mode := .standby })).tick 0).modes.counting = false := by decide
theorem wit_reset : (up.tick 0).powered = true ∧ (({ up with modes := { up.modes with inReset := true } } : State).tick 0).releaseReady = true ∧
    (({ up with modes := { up.modes with inReset := true } } : State).tick 0).powered = true ∧ (({ up with modes := { blankModes with mode := .standby } } : State).tick 0).releaseReady = true ∧
    (∃ k, resetSupply k = true) ∧ (∃ k, resetSupply k = false) := ⟨by decide, by decide, by decide, by decide, ⟨0, by decide⟩, ⟨255, by decide⟩⟩
theorem wit_supply : (({ up with modes := { blankModes with mode := .unpowered, vstby := false } } : State).tick 0).modes.mode = .unpowered ∧ (up.tick 0).modes.vstby = true ∧
    ((up.modModes (fun m => { m with rcWindow := true })).tick 0).modes.rcWindow = true ∧ (up.tick 0).clocks.xtal32Failed = false := by decide
theorem wit_throttle : ∀ n ∈ [0, 1, 2, 3, 4, 5, 6, 7], ((up.modPower (fun p => { p with throttle := n })).tick 0).power.throttle = n ∧ (up.tick 0).awake = true := by decide
theorem wit_idleOff : (up.tick 0).idleOffReady 0 = true ∧ (up.tick 0).idleOffReady 64 = true ∧ (up.tick 0).idleOffReady 71 = true ∧ (up.tick 0).idleOffReady 72 = true ∧
    (up.tick 0).idleOffReady 84 = true ∧ (up.tick 0).idleOffReady 85 = true ∧ ((up.tick 0).lane (64 - 64)).retime = none := by decide +kernel

theorem wit_launchHeld : let u := (((launching .planned).modSec (fun c => { c with erased := true, provisionWindow := 60, fuses := { c.fuses with keyKill := true } })).tick 0)
    u.launchReady = true ∧ u.modes.mode ≠ .factory ∧ u.sec.keysErased = true ∧ u.sec.fuses.keyKill = true := by decide
theorem wit_sleepDone : (∀ n, n < 8 → (((lit.modModes (fun m => { m with sleeping := some false })).tick 1_000_000).lane n).gated = true ∨
      (((lit.modModes (fun m => { m with sleeping := some false })).tick 1_000_000).activeEnd n ≤ ((lit.modModes (fun m => { m with sleeping := some false })).tick 1_000_000).lineNow n ∨
        ((((lit.modModes (fun m => { m with sleeping := some false })).tick 1_000_000).lane n).scans = false ∧ (((lit.modModes (fun m => { m with sleeping := some false })).tick 1_000_000).lane n).mode ≠ .limp))) ∧
    ∀ b ∈ [false, true], ((up.modModes (fun m => { m with wakeDuringSleep := b })).tick 0).modes.wakeDuringSleep = b := by decide +kernel
theorem wit_wakes : ∀ m ∈ [Mode.watch, .standby], let u := (up.modModes (fun x => { x with mode := m })).tick 0
    u.modes.mode = m ∧ u.modes.inReset = false ∧ u.modes.sleeping = none ∧ bitOf (u.reg 0x1_0040 3) 0 = true ∧ bitOf (u.reg 0x1_0040 3) 1 = true := by decide
theorem wit_releases : ∀ lock ∈ [false, true], let u := (({ up with modes := { blankModes with mode := .standby }, sec := { blankSec with fuses := { blankFuses with fieldLock := lock } } } : State).tick 0)
    u.releaseReady = true ∧ u.powered = false ∧ u.sec.fuses.fieldLock = lock ∧ bitOf 64 6 = true ∧ bitOf 63 6 = false := by decide
theorem wit_releaseFactory : let u := (({ up with modes := { up.modes with inReset := true, mode := .factory } } : State).tick 0)
    u.releaseReady = true ∧ u.powered = true ∧ u.modes.mode = .factory := by decide
theorem wit_vstby : (({ up with modes := { up.modes with vstby := false } } : State).tick 0).modes.vstby = false ∧ (({ up with modes := { up.modes with vstby := false } } : State).tick 0).modes.mode ≠ .unpowered ∧
    ((up.modModes (fun m => { m with rcWindow := true, vstbyAt := 0 })).tick 1_000_000_000).modes.vstbyAt + 1_000_000_000 ≤ ((up.modModes (fun m => { m with rcWindow := true, vstbyAt := 0 })).tick 1_000_000_000).now := by decide
theorem wit_throttled : ∀ p ∈ [(0, 10_000_000), (2, 10_000_000), (3, 10_000_000), (6, 10_000_000), (1, 100_000_000), (4, 100_000_000), (5, 100_000_000), (7, 100_000_000)],
    let u := (up.modPower (fun q => { q with throttle := p.1, throttledAt := some 0 })).tick p.2
    u.awake = true ∧ u.power.throttle = p.1 ∧ u.power.throttledAt = some 0 ∧ 0 + p.2 ≤ u.now := by decide

/-! ### The cascade (16) -/

/-- Node 0 of a cascade; it is the master or not; link 0 in a state of `f`. -/
def casc (isMaster : Bool) (f : Link → Link := id) : State :=
  let s := (up.setNum 0x7C00 2 3).modModes (fun m => { m with straps := 8 + b2n isMaster })
  ((s.setNum 0x7C20 2 1).modLink 0 f).modNode 1 (fun n => { n with reachable := true })
theorem wit_link : ((casc true).tick 0).linkUpReady 0 = true ∧ ((casc true).tick 0).linkUpReady 1 = true ∧ ((casc true).tick 0).cascMaster = true ∧ ((casc true).tick 0).ownNode = 0 ∧
    ((casc false).tick 0).subordinate = true ∧ ((casc false).tick 0).sec.keys = none ∧
    (({ casc false with sec := { blankSec with keys := some 5 } } : State).tick 0).sec.keys ≠ none ∧ ((casc false).tick 0).sec.lock = false := by decide
theorem wit_linkDown : ((casc true (fun l => { l with mode := .refused })).tick 0).slkOn = true ∧ (((casc true (fun l => { l with mode := .refused })).tick 0).link 0).mode = .refused ∧
    ((casc false (fun l => { l with mode := .up, towards := true })).tick 0).linkLossReady 0 = true ∧ (((casc false (fun l => { l with mode := .up, towards := true })).tick 0).link 0).towards = true := by decide
def asked1 : Req := { node := 1, tag := 1, index := 0x2000, sub := 1, dir := false, offset := 0, length := 0, data := [] }
theorem wit_forward : let u := ((casc true).modCascade (fun x => { x with forwarded := [{ at_ := 0, node := 1, via := .can 0 7, req := asked1 }] })).tick 50_000_000
    u.configured = true ∧ u.cascade.forwarded = [{ at_ := 0, node := 1, via := .can 0 7, req := asked1 }] ∧ 0 + 50_000_000 ≤ u.now := by decide
def subUp : State := casc false (fun l => { l with mode := .up, towards := true, peer := 1 })
theorem wit_marker : (subUp.tick 0).masterHere = true ∧ ((subUp.modModes (fun m => { m with sleeping := some false })).tick 0).applies = false ∧
    ((subUp.modCascade (fun c => { c with masterLost := true })).tick 0).masterGone = true := by decide
theorem wit_markerLate : let s := ((lit.setNum (laneIx 0 6) 2 1).modModes (fun m => { m with straps := 8 }))
    (s.tick 0).subordinate = true ∧ (s.tick 0).cascadeLane 0 = true := by decide +kernel
theorem wit_summary : ((casc true (fun l => { l with mode := .up, peer := 1 })).tick 0).summaryReady 1 = true ∧ (((casc true (fun l => { l with mode := .up, peer := 1 })).tick 0).node 1).reachable = true ∧
    (((casc true (fun l => { l with mode := .up, peer := 1 })).tick 0).node 2).reachable = false := by decide
theorem wit_eventTx : lands ((casc true).tick 0) (at0 0xA0_0040) .slk 0x40 = true ∧ (15 : Nat) < 16 := by decide
theorem wit_span : (((casc true).modCascade (fun c => { c with spanHeld := 1 })).tick 0).spanCopyReady 0 = true ∧ (up.tick 0).configured = true := by decide
theorem wit_linkPeers : let u := (casc false).tick 0; 4 % 4 = u.ownNode ∧ 5 % 4 ≠ u.ownNode ∧ u.cascMaster = false ∧ ((casc true).tick 0).cascMaster = true ∧
    (let v := ((casc false).modSec (fun c => { c with keys := some 5 })).tick 0
     v.linkUpReady 0 = true ∧ v.sec.keys ≠ none ∧ v.sec.lock = false ∧
       (((((v.modLink 0 (fun l => { l with mode := .up, peer := 1, towards := true, reason := 0, delay := 0 })).raise slkStatus [1]).setReachable 1 true).linkLevel).subordinate = true)) := by decide +kernel
theorem wit_linkRetry : let u := (casc true (fun l => { l with mode := .refused, refusedAt := 0 })).tick 1_000_000_000
    u.slkOn = true ∧ (u.link 0).mode = .refused ∧ (u.link 0).refusedAt + 1_000_000_000 ≤ u.now := by decide
theorem wit_linkLost : ∀ a ∈ [0, 3], let u := ((casc false (fun l => { l with mode := .up, towards := true, peer := 1 })).modClocks (fun c => { c with active := a })).tick 0
    u.linkLossReady 0 = true ∧ u.subordinate = true ∧ (u.link 0).mode = .up ∧ (u.link 0).towards = true ∧ u.clocks.active = a := by decide
theorem wit_forwards : ∀ v ∈ [Via.eth 0 1 2, .mailbox 1], let u := ((casc true).modCascade (fun x => { x with forwarded := [{ at_ := 0, node := 1, via := v, req := asked1 }] })).tick 50_000_000
    u.configured = true ∧ (u.cascade.forwarded.find? (fun x => x.node == 1)).any (fun f => decide (f.via = v ∧ f.at_ + 50_000_000 ≤ u.now)) = true := by decide
/-- Lane 0 is a member of the cascade's genlock, and was caught after the master's last catch or before it. -/
def member (caught : Nat) : State := (((((lit.setNum (laneIx 0 6) 2 1).setNum 0x7C00 2 3).modModes (fun m => { m with straps := 8 })).setNum 0x7C20 2 1).modLink 0 (fun l => { l with mode := .up, towards := true, peer := 1 })).modLane 0
    (fun l => { l with caughtAt := some caught }) |>.modCascade (fun c => { c with catchAt := some 5 })
theorem wit_markers : ((member 9).tick 10).masterHere = true ∧ ((member 9).tick 10).applies = true ∧ ((member 9).tick 10).cascadeLane 0 = true ∧ ((member 9).tick 10).groupCatch 0 = true ∧
    ((member 4).tick 10).groupCatch 0 = false ∧ ∀ n ∈ (List.range 8).filter ((member 9).tick 10).cascadeLane, ((member 9).tick 10).groupCatch n = true := by decide +kernel
theorem wit_summaries : let u := ((casc true (fun l => { l with mode := .up, peer := 1 })).modNode 1 (fun y => { y with reachable := true, mode := 3, umpire := 0, nfaultLow := false, links := 1 })).tick 0
    u.summaryReady 1 = true ∧ (u.node 1).reachable = true ∧ (u.node 1).mode = 3 ∧ (u.node 1).umpire = 0 ∧ (u.node 1).nfaultLow = false ∧ (u.node 1).links = 1 := by decide

/-! ### The spec's worked examples -/

/-- What a command adds to the messages sent, newest first. -/
def sentBy (c : Instr) (s : State) : List Out := match exec c s with | .next t => t.out.take (t.out.length - s.out.length) | _ => []
/-- The state after a command, or the state before where it stops. -/
def after (c : Instr) (s : State) : State := match exec c s with | .next t => t | _ => s

-- 02 R41: client 5 reads lane.vblank_min of lane 1; the response is 0x93 0x04 0x02 0x31 0x2D 0x00.
theorem test_canRead : sentBy (.read 0 (.can 0 5) { req 0x3102 4 with tag := 3 }) (proxied.setNum (laneIx 1 2) 4 45) = [.canFrame 0 0x1B20_0414 [0x93, 0x04, 0x02, 0x31, 0x2D, 0x00]] := by decide +kernel
-- 02 R25: the block of crew 130 starts at 0x4820; its weight is object 0x4821:01.
theorem test_crewBlock : crewIx 130 0 = 0x4820 ∧ crewIx 130 1 = 0x4821 := by decide
-- 03 R58: LANE[2].STATUS reads 0x2A00_0005, event 2 occurs again, 0x2A00_0000 is written: it reads 0x2B00_0004; 0x4000_0000 is not issued yet.
def status2A : State := { up with status := [(laneStatus 2, { count := 0x2A, last := [(0, 0x2A), (2, 0x2A)] })] }
theorem test_statusWriteBack : ((status2A.raise (laneStatus 2) [2]).statusAt (laneStatus 2)).count = 0x2B ∧
    ((after (.statusWriteBack 0 (at0 (laneStatus 2)) 0x2A00_0000) (status2A.raise (laneStatus 2) [2])).statusAt (laneStatus 2)) = { count := 0x2B, last := [(2, 0x2B)] } := by decide +kernel
theorem test_statusNotIssued : ((after (.statusWriteBack 0 (at0 (laneStatus 2)) 0x4000_0000) (status2A.raise (laneStatus 2) [2])).statusAt (laneStatus 2)).last = [(0, 0x2A), (2, 0x2B)] := by decide +kernel
-- 04 R75: an NV12 surface of 1,280 × 720 takes 1,382,400 bytes.
def nv12 : State :=
  let s := ((((up.setNum (layerIx 3) 6 1).setNum (layerIx 3) 7 0x10).setNum (layerIx 3) 0xC 1280).setNum (layerIx 3) 0xD 1280).setNum (layerIx 3) 0xE (720 * 65536 + 1280)
  (s.setNum (layerIx 3) 9 0x0100_0000).setNum (layerIx 3) 0xA 0x000E_1000
theorem test_surfaceBytes : nv12.surfaceBytes 3 = 1_382_400 := by decide +kernel
-- 05 R114: column 100 of a 1,280-pixel crop shown 1,920 pixels wide is at 66.5: n = 66, phase 32.
theorem test_scalerPosition : srcPos 100 1280 1920 = 66 * 65536 + 32768 ∧ phaseOf (srcPos 100 1280 1920) = (66, 32) := by decide +kernel
-- 05 R110: luma 126, Cb 112, Cr 160 in BT.709, limited range.
theorem test_matrix : yuvToRgb false 1 8 126 (8 * 112) (8 * 160) = (0x5_D16B, 0x3_971E, 0x2_F53A) := by decide +kernel
-- 05 R111: the same components in linear light.
theorem test_linear : linearise 0 true 400 0x5_D16B = 0x3_B9A0 ∧ linearise 0 true 400 0x3_971E = 0x1_2B62 ∧ linearise 0 true 400 0x2_F53A = 0x0_BC0E := by decide +kernel
-- 05 R116, R117: global alpha 0.75, then SRC_OVER on the fill.
theorem test_blend : (Px.mk 0x3_B9A0 0x1_2B62 0x0_BC0E one19).scale 0x6_0000 = Px.mk 183_096 57_482 36_107 393_216 ∧
    blend 0 (Px.mk 183_096 57_482 36_107 393_216) (fillPx 0x8000_028F_03D7_0A3D) = Px.mk 185_716 61_414 46_591 524_288 := by decide +kernel
-- 05 R131 to R135: the stored word of lane pixel (333, 214) on a 10-bit PQ panel.
theorem test_storedWord : storedWord { transfer := 2, gamma := 220, white := 400, depth := 10, dither := 3, lut := none } 0 1 333 214 (Px.mk 185_716 61_414 46_591 524_288) = 0x22C6_F1A2 := by
  decide +kernel
-- 08 R206: the candidates of 8.10 × 4, 5.40 × 4, 4.32 × 4 and 8.10 × 2 Gbit/s for a DSC panel at the default 12 bits per pixel, in that order.
def wide : State :=
  let s := (((((up.setNum (laneIx 1 0) 5 1).setNum (laneIx 1 1) 1 7680).setNum (laneIx 1 1) 4 7840).setNum (laneIx 1 1) 5 2160).setNum (laneIx 1 1) 8 1_045_228_800).setNum (laneIx 1 4) 8 10
  ((s.setNum (laneIx 1 7) 2 4).setNum (laneIx 1 7) 3 7).setNum (laneIx 1 7) 7 1
theorem test_candidates : (wide.candidatesFor 1 { sink with maxRate := 7 }).map (fun p => (edpRate p.1, p.2)) =
    [(8100, 4), (5400, 4), (4320, 4), (8100, 2)] := by decide +kernel
-- 11 R296: a CONT word that arrives after a flush in the middle of an item is discarded and counted.
theorem test_flushInItem : let s := after (.cqFlush 0 1) (queue (opened16 2))
    (s.crew 1).inItem = false ∧ (after (.cqPush 0 1 0) s).counter (crewCount 1 8) = 1 ∧ ((after (.cqPush 0 1 0) s).crew 1).cq = [] := by decide +kernel
-- 12 R319: the check value of CRC-32C, and a region's bytes, least significant bit first.
theorem test_crc : crc32c [0x31, 0x32, 0x33, 0x34, 0x35, 0x36, 0x37, 0x38, 0x39] = 0xE306_9283 ∧
    packPixels [0x22C6_F1A2, 0x22C6_F1A2] = [0xA2, 0xF1, 0xC6, 0xA2, 0x68, 0xBC, 0xB1, 0x08] := by decide +kernel
-- 13 R356, R357: tariff 2 of the worked journey: the last tick of 100 m at 36 km/h, and of 24 s at rest, adds 25.
def fare (acc : Int) : State :=
  let s := ((((up.setNum 0x7812 2 0).setNum 0x7812 5 1000).setNum 0x7812 6 240).setNum 0x7812 7 25)
  { s with smu := { blankSmu with running := true, indValid := true, journey := { blankJourney with kind := 1, tariff := 2, fare := 350, acc := acc } } }
theorem test_fare : ((fare (-2400)).accrue 10).smu.journey.fare = 350 ∧ ((fare (-2400)).accrue 10).smu.journey.acc = 0 ∧ ((fare 237_600).accrue 10).smu.journey.fare = 375 ∧
    ((fare 239_000).accrue 0).smu.journey.fare = 375 ∧ ((fare 239_000).accrue 0).smu.journey.acc = 0 := by decide +kernel
-- 14 R383, R384: the shield mesh alarm at epoch 3 erases the keys and blows epoch fuse 4; source 48 is latched with class C3.
theorem test_alarm : let t := after (.securityAlarm 0 0) (secured (fun c => { c with keys := some 5, fuses := { c.fuses with epoch := 3 } }))
    t.sec.keys = none ∧ t.sec.fuses.epoch = 4 ∧ t.umpire.latched.testBit 48 = true ∧ t.umpire.class48 = 3 ∧ t.umpire.c3.isSome = true := by decide +kernel
-- 10 R267: the destination of crew 130's second line is one line of 1,024 bytes below the last.
def reversed : State :=
  let s := (((((up.setReg 0x40_0000 0x0020_0000).setReg 0x40_0008 0x8000_FC00).setReg 0x40_000C 0x4000_0001).setReg 0x40_0010 0x100).setReg 0x40_0014 0x0001_0040).setReg 0x40_0018 4
  (((s.setReg 0x40_001C 0x1000).setReg 0x40_0024 0x10).setReg 0x40_0028 0xFFFF_FC00).setReg 0x40_0030 0x42
theorem test_elements : let e := reversed.elements 0 (reversed.xfer 0) 0 1
    e.1.head? = some (false, 0x0020_1000) ∧ e.1.length = 256 ∧ e.2.head? = some (true, 0x0001_8000_F800) ∧ e.2.length = 64 := by decide +kernel

/-! ### Steps -/

theorem test_idle : step State.reset = .next State.reset := rfl
theorem test_stepTakesTheFront : step { up with pending := [.grossLoss 5, .smuTick 0] } = exec (.grossLoss 5) { up with pending := [.smuTick 0] } := rfl
theorem test_noWord : decodeTableWord 32 0 = none ∧ State.reset.withFetchWord 32 0 = State.reset := ⟨rfl, rfl⟩

end Sys2Proof.Tests
end

section
/-! SUPPORT and CERTIFICATES of the architecture (01): catches, presentation, tile rows and tiles. -/

namespace Sys2Proof.Machine

open Sys2Proof

variable {s : State} {n : Nat}

/-! ### Commands of a lane whose instant has come -/

/-- On one of the eight lanes, a command whose event can happen has its effect on the lane as it is met. -/
theorem happenOn_ready {dt : Nat} {ready : State → Bool} {eff : State → State} (hn : n < 8) (hr : ready (s.meet dt n) = true) :
    happenOn dt n ready eff s = .next (eff (s.meet dt n)) := by
  rw [happenOn_eq, hr, decide_eq_true hn]
  rfl

theorem exec_laneCatch_of_catchReady {dt : Nat} (hn : n < 8) (hc : (s.meet dt n).catchReady n = true) (hh : (s.meet dt n).handOverReady n = false) :
    exec (.laneCatch dt n) s = .next ((s.meet dt n).catchLane n true) := by
  show execLaneCatch dt n s = _
  rw [execLaneCatch, happenOn_ready hn (by rw [hc, Bool.true_or]), hh]
  rfl

theorem exec_laneCatch_of_handOverReady {dt : Nat} (hn : n < 8) (hh : (s.meet dt n).handOverReady n = true) :
    exec (.laneCatch dt n) s = .next ((s.meet dt n).handOver n) := by
  show execLaneCatch dt n s = _
  rw [execLaneCatch, happenOn_ready hn (by rw [hh, Bool.or_true]), if_pos hh]

theorem exec_retimeF0Start_of_f0Ready {dt : Nat} (hn : n < 8) (h0 : (s.meet dt n).f0Ready n = true) :
    exec (.retimeF0Start dt n) s = .next ((s.meet dt n).startF0 n) := by
  show execRetimeF0Start dt n s = _
  rw [execRetimeF0Start, happenOn_ready hn h0]

theorem exec_presented_of_scanning {dt : Nat} (hn : n < 8) (hm : ((s.meet dt n).lane n).mode = .running ∨ ((s.meet dt n).lane n).mode = .retiming)
    (hg : ((s.meet dt n).lane n).gated = false) : exec (.presented dt n) s = .next ((s.meet dt n).presentLane n) := by
  show execPresented dt n s = _
  rw [execPresented, happenOn_ready hn (by simp [hm, hg])]

theorem exec_rowRelease_of_rowReady {dt row : Nat} (hn : n < 8) (hr : (s.meet dt n).rowReady n row = true)
    (hl : (s.meet dt n).lead n = true → (s.meet dt n).rowLanded n row = true) :
    exec (.rowRelease dt n row) s = .next ((s.meet dt n).releaseRow n row) := by
  have hready : ((s.meet dt n).rowReady n row && (!(s.meet dt n).lead n || (s.meet dt n).rowLanded n row)) = true := by
    cases h : (s.meet dt n).lead n with
    | false => simp [hr]
    | true => simp [hr, hl h]
  show execRowRelease dt n row s = _
  rw [execRowRelease, happenOn_ready hn hready]

theorem exec_tileWrite_of_tileReady {dt col row : Nat} (hn : n < 8) (hc : col < 256) (hr : (s.meet dt n).tileReady n (row * 256 + col) = true) :
    exec (.tileWrite dt n col row) s = .next ((s.meet dt n).writeTile n (row * 256 + col)) := by
  show execTileWrite dt n col row s = _
  rw [execTileWrite, happenOn_ready hn (by simp [hc, hr])]

theorem exec_rowClose_of_closingHeat {dt row : Nat} {p : Bool × Heat} (hn : n < 8) (hr : row < (s.meet dt n).tileRows n)
    (hh : (s.meet dt n).closingHeat n row = some p) : exec (.rowClose dt n row) s = .next ((s.meet dt n).closeRow n row true) := by
  show execRowClose dt n row s = _
  rw [execRowClose, happenOn_ready hn (by simp [hr, hh])]

theorem exec_portStall_of_sending {dt line x k : Nat} {uncorrectable : Bool} (hn : n < 8) (hm : ((s.meet dt n).lane n).mode ≠ .off)
    (hg : ((s.meet dt n).lane n).gated = false) (hk : 0 < k) (hl : line < (s.meet dt n).laneH n) (hx : x < (s.meet dt n).laneW n) :
    exec (.portStall dt n line x k uncorrectable) s = .next ((s.meet dt n).stallPort n line x k uncorrectable) := by
  show execPortStall dt n line x k uncorrectable s = _
  rw [execPortStall, happenOn_ready hn (by simp [hm, hg, hk, hl, hx])]

/-! ### Catches (04 R85, R91) -/

/-- A catch that a heat follows merges the damage alone where it began a RETIME, and binds the indication and the next frame's heat else. -/
theorem catchLane_binding (s : State) (n : Nat) :
    s.catchLane n true = (if ((s.catchCommits n).markCatch n).retiming n then ((s.catchCommits n).markCatch n).mergeDamage n
      else (((s.catchCommits n).markCatch n).bindIndication n).bindHeat n (((s.catchCommits n).markCatch n).frame n + 1)) := rfl

theorem catchCommits_of_not_applies (h : s.applies = false) : s.catchCommits n = s := by
  rw [State.catchCommits, h]
  rfl

/-- A commit that waits for a fence within its time is deferred. -/
theorem catchCommits_unmet {k : Commit} (ha : s.applies = true) (hk : s.commits = [k]) (hc : s.atCatch n k = true) (he : k.eligible = false)
    (hf : s.fenceExpired n k = false) : s.catchCommits n = ({ s with commits := [{ k with deferred := true }] }).removeLayers n := by
  simp [State.catchCommits, ha, hk, hc, he, hf]

/-- An eligible commit is applied. -/
theorem catchCommits_eligible {k : Commit} (ha : s.applies = true) (hk : s.commits = [k]) (hc : s.atCatch n k = true) (he : k.eligible = true) :
    s.catchCommits n = (s.applyCommit k).removeLayers n := by
  have hs : { s with commits := [k] } = s := by rw [← hk]
  simp [State.catchCommits, ha, hk, hc, he, hs]

/-! ### Presentation (01 R16, 12 R323) -/

/-- The regions of lane `n` take the expected CRC that a frame up to `f` is the first to show. -/
def State.takeExpected (s : State) (n f : Nat) : State :=
  { s with regions := s.regions.map (fun p =>
    match p.2.nextExpected with
    | some (g, v) => if p.1 / 32 = n ∧ g ≠ 0 ∧ g ≤ f then (p.1, { p.2 with expected := v, nextExpected := none }) else p
    | none => p) }

/-- Presentation of the commits that are due: each is presented, the expected CRCs follow, and where there is one, a RETIME at F0 ends. -/
theorem presentLane_of_due {due : List (Nat × Nat × Nat)}
    (hd : (s.lane n).awaiting.filter (fun a => decide (a.2.2 ≠ 0) && decide (a.2.2 ≤ s.frame n)) = due) :
    s.presentLane n =
      (let v := (due.foldl (fun t a => t.presentOne n a)
        (s.modLane n (fun l => { l with awaiting := l.awaiting.filter (fun a => !due.contains a) }))).takeExpected n (s.frame n)
       if ((s.lane n).retime).any (fun r => r.f0) && decide (due ≠ []) then v.endRetime n else v) := by
  subst hd
  rfl

/-- A commit that the frame in progress is the first to show is presented, and a RETIME whose F0 it is ends. -/
theorem presentLane_due {q who f : Nat} (ha : (s.lane n).awaiting = [(q, who, f)]) (h0 : f ≠ 0) (hf : f ≤ s.frame n) :
    s.presentLane n =
      (let v := ((s.modLane n (fun l => { l with awaiting := [] })).presentOne n (q, who, f)).takeExpected n (s.frame n)
       if ((s.lane n).retime).any (fun r => r.f0) then v.endRetime n else v) := by
  have hl : s.modLane n (fun l => { l with awaiting := l.awaiting.filter (fun a => !([(q, who, f)].contains a)) }) =
      s.modLane n (fun l => { l with awaiting := [] }) := modLane_congr (by simp [ha])
  rw [presentLane_of_due (due := [(q, who, f)]) (by simp [ha, h0, hf]), hl]
  simp

/-- A commit that a later frame is the first to show waits. -/
theorem presentLane_later {q who f : Nat} (ha : (s.lane n).awaiting = [(q, who, f)]) (hf : s.frame n < f) :
    s.presentLane n = (s.modLane n (fun l => l)).takeExpected n (s.frame n) := by
  rw [presentLane_of_due (due := []) (by simp [ha, Nat.not_le.2 hf])]
  simp

/-- Settles O25: each clause is one command on the lane as it is met (notes/assumptions/97), and one equation of the catch or of presentation. -/
theorem laneCatches : Obligations.LaneCatches := by
  unfold Obligations.LaneCatches
  intro dt n s hn u w
  refine ⟨?caught, ?idle, ?commit, ?handOver, ?f0, ?present⟩
  case caught =>
    intro hc hh
    rw [exec_laneCatch_of_catchReady hn hc hh, catchLane_binding]
  case idle =>
    intro ha
    exact congrArg (State.markCatch · n) (catchCommits_of_not_applies ha)
  case commit =>
    intro ha k hk hc
    exact ⟨fun he hf => congrArg (State.markCatch · n) (catchCommits_unmet ha hk hc he hf),
      fun he => congrArg (State.markCatch · n) (catchCommits_eligible ha hk hc he)⟩
  case handOver => exact exec_laneCatch_of_handOverReady hn
  case f0 => exact exec_retimeF0Start_of_f0Ready hn
  case present =>
    intro hm hg q who f ha shown
    rw [exec_presented_of_scanning hn hm hg]
    constructor
    · intro h0 hf
      exact congrArg _ (presentLane_due ha h0 hf)
    · intro hf
      exact congrArg _ (presentLane_later ha hf)

/-! ### Row releases and region pins (01 R13, 06 R158) -/

/-- The region pin over a row of a lane. -/
def State.pinOver (s : State) (n r : Nat) : Option (Nat × Nat × Nat) :=
  (s.lane n).regionPins.find? (fun p => decide (p.1 ≤ r) && decide (r ≤ p.2.1))

theorem followPin_of_no_pin {r : Nat} (h : s.pinOver n r = none) : s.followPin n r = s := by
  unfold State.pinOver at h
  rw [State.followPin, h]

theorem followPin_of_pin {r : Nat} {p : Nat × Nat × Nat} (h : s.pinOver n r = some p) :
    s.followPin n r =
      if s.pinOut n r then
        (if (s.lane n).suspended.contains p.1 then s
         else (s.modLane n (fun l => { l with suspended := p.1 :: l.suspended })).raise coxStatus [4])
      else s.modLane n (fun l => { l with suspended := l.suspended.filter (fun x => decide (x ≠ p.1)) }) := by
  unfold State.pinOver at h
  rw [State.followPin, h]

/-! ### Tiles written (01 R17, 07 R173) -/

/-- The flat tile that a heat composes a tile from: the stored one, where it is of the layers that the heat flattens (05 R128). -/
def State.validFlat (s : State) (n : Nat) (h : Heat) (t : Nat) : Option FlatTile :=
  (tabFind (s.lane n).flat t).bind (fun f => if f.layers = (s.forHeat n h).flatSign n t then some f else none)

/-- The layers whose inputs a blade reads for a tile: those that cover it and are not in its flat tile. -/
def State.tileInputs (s : State) (n : Nat) (h : Heat) (t : Nat) : List Nat :=
  let skip := (((s.forHeat n h).stack n t).take (((s.validFlat n h t).map FlatTile.depth).getD 0)).filterMap Elem.layerOf
  ((s.forHeat n h).covering n t).filter (fun l => !skip.contains l)

/-- A tile with an unreadable input is abandoned, and the input's error is the umpire's. -/
theorem writeTile_unreadable {t : Nat} {newest : Bool} {h : Heat} {u : State} {dead : List Nat} {e : Input} (ho : s.openHeat n (t / 256) = some (newest, h))
    (hr : s.readInputs (s.forHeat n h) n t (s.tileInputs n h t) = (u, dead, some e)) :
    s.writeTile n t = (u.modHeat n newest (fun k => { k with abandoned := k.abandoned ++ [t] })).inputError e := by
  unfold State.tileInputs State.validFlat at hr
  simp only [State.writeTile, ho, hr]

/-- A tile whose inputs are readable is composed and written, and the frame in progress keeps what it delivers there. -/
theorem writeTile_readable {t : Nat} {newest : Bool} {h : Heat} {u : State} {dead : List Nat} (ho : s.openHeat n (t / 256) = some (newest, h))
    (hr : s.readInputs (s.forHeat n h) n t (s.tileInputs n h t) = (u, dead, none)) :
    s.writeTile n t =
      (let v := if newest && decide (h.frame = s.frame n + 1) then u.keepTile n t else u
       ((v.setPixels n ((u.forHeat n h).composeTile n t h.frame dead (s.validFlat n h t))).storeFlat (u.forHeat n h) n t dead (s.validFlat n h t)).modHeat n newest
         (fun k => { k with written := k.written ++ [t] })) := by
  unfold State.tileInputs State.validFlat at hr
  simp only [State.writeTile, ho, hr] <;> rfl

/-- A tile is ready where its heat's row is open, nothing was done for it in that heat, and a blade has it. -/
theorem tileReady_of_open {t : Nat} {newest : Bool} {h : Heat} (ho : s.openHeat n (t / 256) = some (newest, h)) (ht : t ∈ h.tiles) (hw : t ∉ h.written)
    (ha : t ∉ h.abandoned) (hb : s.handedOut n h t = true) : s.tileReady n t = true := by
  simp [State.tileReady, ho, ht, hw, ha, hb]

/-- The tile of column `col` in a row lies in that row. -/
theorem row_of_tile {row col : Nat} (hc : col < 256) : (row * 256 + col) / 256 = row := by omega

/-! ### Rows closed (01 R14, 07 R178) -/

/-- The tiles of a row that a heat has not written. -/
def Heat.unwritten (h : Heat) (r : Nat) : List Nat := h.tiles.filter (fun t => decide (t / 256 = r) && !h.written.contains t)

/-- A row closes without loss where each of its tiles is written. -/
theorem closeRow_whole {r : Nat} {newest counts : Bool} {h : Heat} (hc : s.closingHeat n r = some (newest, h)) (hl : h.unwritten r = []) :
    s.closeRow n r counts = (s.modHeat n newest (fun _ => { h with closed := h.closed ++ [r] })).releaseHeat n { h with closed := h.closed ++ [r] } := by
  unfold Heat.unwritten at hl
  simp only [State.closeRow, hc, hl, true_or, if_true]

/-- A row that loses tiles gives them back, counts its lines as underrun and is the lane's umpire source. -/
theorem closeRow_underrun {r : Nat} {newest : Bool} {h : Heat} (hc : s.closingHeat n r = some (newest, h)) (hl : h.unwritten r ≠ []) :
    s.closeRow n r true =
      (let g := { h with closed := h.closed ++ [r] }
       let w := (s.modHeat n newest (fun _ => g)).keepTiles n r newest h (h.unwritten r)
       ((((w.count (laneCount n 0x10) (w.rowLines n r)).raise (laneStatus n) [2]).modLane n
          (fun l => { l with underrunInfo := s.frame n % 2 ^ 16 * 2 ^ 16 + (32 * r) % 2 ^ 13 })).occur n n).releaseHeat n g) := by
  unfold Heat.unwritten at hl
  simp only [State.closeRow, hc, if_neg hl, Bool.not_true, Bool.false_eq_true, or_false] <;> rfl

/-! ### Port stalls (07 R173, R179) -/

/-- A stall repeats the pixel before it, and is counted and raised. -/
theorem stallPort_correctable (s : State) (n line x k : Nat) :
    s.stallPort n line x k false = ((s.count (laneCount n 0x18) 1).raise (laneStatus n) [3]).modLane n (fun l =>
      { l with stallInfo := min k 0xFFFF * 2 ^ 16 + line % 2 ^ 13,
               stalls := (s.runFrom n line x k).map (fun p => (p, s.pixelBefore n line x)) ++ l.stalls }) := rfl

/-- Pixels lost to an uncorrectable unit are the umpire's besides, and damage their tiles. -/
theorem stallPort_uncorrectable (s : State) (n line x k : Nat) :
    s.stallPort n line x k true = (((s.stallPort n line x k false).modLane n (fun l => { l with lost := s.runFrom n line x k ++ l.lost })).unitError false
      (s.pixelOffset n x line / 32 * 32)).damage n (dedup ((s.runFrom n line x k).map (fun p => tileKey (p % 65536 / 64) (p / 65536 / 32)))) 0 := rfl

/-! ### Quarters woken (05 R102) -/

/-- Domains turned on where one of them was off: the change is raised. -/
theorem setPower_or_of_new {m : Nat} (h : m &&& s.power.on ≠ m) :
    s.setPower (s.power.on ||| m) = (s.modPower (fun p => { p with on := p.on ||| m })).raise powerStatus [0] := by
  have hnew : s.power.on ≠ s.power.on ||| m := by
    intro e
    apply h
    rw [e]
    refine Nat.eq_of_testBit_eq (fun i => ?_)
    rw [Nat.testBit_and, Nat.testBit_or, Bool.or_comm]
    exact inf_sup_self
  rw [State.setPower, if_neg hnew]
  rfl

theorem exec_quarterWake_of_coxUp {dt q : Nat} (hc : (s.tick dt).coxUp = true) :
    exec (.quarterWake dt q) s = .next ((s.tick dt).setPower ((s.tick dt).power.on ||| (q % 2 ^ 64 &&& (s.tick dt).workQuarters))) := by
  show execQuarterWake dt q s = _
  rw [execQuarterWake, happen, if_pos hc]

/-- Settles O27: each clause is one command, met after what was due on its lane (notes/assumptions/97), and the equation of the row, tile, port or
power operation that it carries out. -/
theorem tileRows : Obligations.TileRows := by
  unfold Obligations.TileRows
  intro dt n row col q s hn u
  refine ⟨?release, ?write, ?close, ?stall, ?wake⟩
  case release =>
    intro hr hl t pin
    have hx : exec (.rowRelease dt n row) s = .next (t.followPin n row) := exec_rowRelease_of_rowReady hn hr hl
    rw [hx]
    refine ⟨fun hp => ?_, fun p hp ho hs => ?_, fun p hp ho hs => ?_, fun p hp ho => ?_⟩
    · rw [followPin_of_no_pin hp]
    · rw [followPin_of_pin hp, if_pos ho, if_pos hs]
    · rw [followPin_of_pin hp, if_pos ho, if_neg (Bool.not_eq_true _ ▸ hs)]
    · rw [followPin_of_pin hp, if_neg (Bool.not_eq_true _ ▸ ho)]
  case write =>
    intro hc newest h ho k flat skip inputs ht hw ha hb
    have hk : u.openHeat n (k / 256) = some (newest, h) := by rw [row_of_tile hc, ho]
    rw [exec_tileWrite_of_tileReady hn hc (tileReady_of_open hk ht hw ha hb)]
    exact ⟨fun t dead e hr => congrArg _ (writeTile_unreadable hk hr), fun t dead hr => congrArg _ (writeTile_readable hk hr)⟩
  case close =>
    intro hr newest h hc g lost v w
    rw [exec_rowClose_of_closingHeat hn hr hc]
    exact ⟨fun hl => congrArg _ (closeRow_whole hc hl), fun hl => congrArg _ (closeRow_underrun hc hl)⟩
  case stall =>
    intro hm hg line x k hk hl hx run t
    rw [exec_portStall_of_sending hn hm hg hk hl hx, exec_portStall_of_sending hn hm hg hk hl hx, stallPort_uncorrectable, stallPort_correctable]
    exact ⟨rfl, rfl⟩
  case wake =>
    intro a hc hq hnew
    rw [exec_quarterWake_of_coxUp hc, Nat.mod_eq_of_lt hq, setPower_or_of_new hnew]

end Sys2Proof.Machine
end

section
/-! SUPPORT and CERTIFICATES of the dictionary server (02): one request on each of its transports. -/

namespace Sys2Proof.Machine

open Sys2Proof

variable {s t u : State} {dt c cmd : Nat} {q : Req} {via : Via} {o : Rsp}

/-! ### Commands whose instant has come -/

theorem happen_of_ready {ready : State → Bool} {eff : State → State} (h : ready (s.tick dt) = true) :
    happen dt ready eff s = .next (eff (s.tick dt)) := by
  rw [happen, if_pos h]

/-! ### The end of a crew's confirmed first write (02 R34) -/

@[simp] theorem endAttempt_planned (u : State) (c : Nat) : (u.endAttempt c).planned = u.planned := rfl
@[simp] theorem endAttempt_configured (u : State) (c : Nat) : (u.endAttempt c).configured = u.configured := rfl
@[simp] theorem endAttempt_now (u : State) (c : Nat) : (u.endAttempt c).now = u.now := rfl
@[simp] theorem endAttempt_ownNode (u : State) (c : Nat) : (u.endAttempt c).ownNode = u.ownNode := rfl
@[simp] theorem endAttempt_cascMaster (u : State) (c : Nat) : (u.endAttempt c).cascMaster = u.cascMaster := rfl
@[simp] theorem endAttempt_node (u : State) (c n : Nat) : (u.endAttempt c).node n = u.node n := rfl
@[simp] theorem endAttempt_crewEnabled (u : State) (c d : Nat) : (u.endAttempt c).crewEnabled d = u.crewEnabled d := rfl
@[simp] theorem endAttempt_lookup (u : State) (c i j : Nat) : (u.endAttempt c).lookup i j = u.lookup i j := rfl
@[simp] theorem endAttempt_sees (u : State) (c d i : Nat) : (u.endAttempt c).sees d i = u.sees d i := rfl
@[simp] theorem endAttempt_segments (u : State) (c : Nat) : (u.endAttempt c).segments = u.segments := rfl

/-! ### A request that its crew may make of this node (02 R22, R40) -/

/-- The crew is enabled, or asks for crew.enable. -/
def State.mayAsk (u : State) (c : Nat) (q : Req) : Prop := u.crewEnabled c = true ∨ isEnable q.index q.sub = true

theorem barredCrew_eq_false (h : u.mayAsk c q) : u.barredCrew c q = false := by
  rcases h with h | h <;> simp [State.barredCrew, h]

theorem barredCrew_eq_true (h1 : u.crewEnabled c = false) (h2 : isEnable q.index q.sub = false) : u.barredCrew c q = true := by
  simp [State.barredCrew, h1, h2]

theorem mayAsk_of_not_barred (h : ¬ (u.crewEnabled c = false ∧ isEnable q.index q.sub = false)) : u.mayAsk c q := by
  unfold State.mayAsk
  cases h1 : u.crewEnabled c <;> cases h2 : isEnable q.index q.sub <;> simp_all

/-- The crew may ask, of a node that answers normally, with dir 0 and a command code of 02 R40. -/
def State.takes (u : State) (c : Nat) (q : Req) : Prop := u.planned = true ∧ q.dir = false ∧ q.unknown = false ∧ u.mayAsk c q

theorem serve_booting (hp : u.planned = false) {deny : Bool} : u.serve via c cmd deny q = (u.endAttempt c, some (.abort .booting)) := by
  simp [State.serve, hp]

theorem serve_protocol (hp : u.planned = true) (h : q.dir = true ∨ q.unknown = true) {deny : Bool} :
    u.serve via c cmd deny q = (u.endAttempt c, some (.abort .protocol)) := by
  rcases h with h | h <;> simp [State.serve, hp, h]

/-- A WRITE that its transport does not let through, or a request of a disabled crew. -/
theorem serve_noRight (hp : u.planned = true) (hd : q.dir = false) (hu : q.unknown = false) (hc : 1 ≤ cmd ∧ cmd ≤ 3) {deny : Bool}
    (h : deny = true ∨ u.barredCrew c q = true) : u.serve via c cmd deny q = (u.endAttempt c, some (.abort .noRight)) := by
  have hb : deny = true ∨ (u.endAttempt c).barredCrew c q = true := h
  simp [State.serve, hp, hd, hu, hb, show cmd ≠ 0 by omega, show ¬ 3 < cmd by omega]

/-- What is left of `serve` for a request that is taken. -/
theorem serve_of_takes (h : u.takes c q) (hc : 1 ≤ cmd ∧ cmd ≤ 3) :
    u.serve via c cmd false q =
      if q.node ≠ u.ownNode then
        if u.cascMaster = false ∨ 4 ≤ q.node then (u.endAttempt c, some (.abort .nodeAbsent))
        else if (u.node q.node).reachable = false then (u.endAttempt c, some (.abort .nodeUnreachable))
        else ((((u.endAttempt c).modCascade (fun k =>
          { k with forwarded := k.forwarded ++ [{ at_ := u.now, node := q.node, via := via, req := q }] })).send (.forwarded q.node c cmd q)), none)
      else (((u.endAttempt c).carryOut c cmd (u.crew c).confirm q).1, some ((u.endAttempt c).carryOut c cmd (u.crew c).confirm q).2) := by
  obtain ⟨hp, hd, hu, ha⟩ := h
  have hb : (u.endAttempt c).barredCrew c q = false := barredCrew_eq_false ha
  simp [State.serve, hp, hd, hu, hb, show cmd ≠ 0 by omega, show ¬ 3 < cmd by omega]

/-- A request of this node by a crew that may ask. -/
def State.takesHere (u : State) (c : Nat) (q : Req) : Prop := u.takes c q ∧ q.node = u.ownNode

theorem serve_here (h : u.takesHere c q) (hc : 1 ≤ cmd ∧ cmd ≤ 3) :
    u.serve via c cmd false q = (((u.endAttempt c).carryOut c cmd (u.crew c).confirm q).1, some ((u.endAttempt c).carryOut c cmd (u.crew c).confirm q).2) := by
  rw [serve_of_takes h.1 hc, if_neg (not_not.2 h.2)]

/-! ### Requests that are refused, and those that go on to another node (02 R22, R31, R38, 16 R427) -/

/-- What a READ, WRITE or DESCRIBE of this node's objects is refused with for its object: it is not there, its reader does not see it, or it is
write-only (02 R30, R31, R40; the order is notes/assumptions/35, DESCRIBE's visibility notes/assumptions/101). -/
def State.objectRefusal (u : State) (c cmd : Nat) (q : Req) : Option Abort :=
  match u.lookup q.index q.sub with
  | .error a => some a
  | .ok r =>
    if cmd ≠ 2 ∧ u.sees c q.index = false then some .noRight
    else if cmd = 1 ∧ r.access = .wo then some .writeOnly else none

/-- What a request to a state whose plan is built is refused with before its object is read or written (02 R22, R31,
R40; the order is notes/assumptions/35, the disabled proxy notes/assumptions/101). -/
def State.refusalOf (u : State) (c cmd : Nat) (q : Req) : Option Abort :=
  if q.dir = true ∨ q.unknown = true then some .protocol
  else if u.crewEnabled c = false ∧ isEnable q.index q.sub = false then some .noRight
  else if q.node ≠ u.ownNode then
    (if u.cascMaster = false ∨ 4 ≤ q.node then some .nodeAbsent else if (u.node q.node).reachable = false then some .nodeUnreachable else none)
  else u.objectRefusal c cmd q

/-- A request that this node's cascade master sends on (02 R47). -/
def State.goesOn (u : State) (c : Nat) (q : Req) : Prop := q.dir = false ∧ q.unknown = false ∧ u.mayAsk c q ∧
  q.node ≠ u.ownNode ∧ u.cascMaster = true ∧ q.node < 4 ∧ (u.node q.node).reachable = true

/-- A request in flight to its node: it waits there for its answer. -/
def State.sentOn (u : State) (via : Via) (c cmd : Nat) (q : Req) : State :=
  ((u.endAttempt c).modCascade (fun x =>
    { x with forwarded := x.forwarded ++ [{ at_ := u.now, node := q.node, via := via, req := q }] })).send (.forwarded q.node c cmd q)

theorem serve_goesOn (hp : u.planned = true) (h : u.goesOn c q) (hc : 1 ≤ cmd ∧ cmd ≤ 3) :
    u.serve via c cmd false q = (u.sentOn via c cmd q, none) := by
  obtain ⟨hd, hu, ha, hn, hm, h4, hr⟩ := h
  rw [serve_of_takes ⟨hp, hd, hu, ha⟩ hc, if_pos hn, if_neg (by simp [hm]; omega), if_neg (by simp [hr])]
  rfl

theorem carryOut_refused {attempt : Option Confirm} {a : Abort} (h : u.objectRefusal c cmd q = some a) :
    u.carryOut c cmd attempt q = (u, .abort a) := by
  unfold State.objectRefusal at h
  cases hl : u.lookup q.index q.sub with
  | error b =>
    simp only [hl, Option.some.injEq] at h
    simp only [State.carryOut, hl, h]
  | ok r =>
    simp only [hl] at h
    by_cases hv : cmd ≠ 2 ∧ u.sees c q.index = false
    · simp only [if_pos hv, Option.some.injEq] at h
      simp [State.carryOut, hl, hv, ← h]
    · by_cases hw : cmd = 1 ∧ r.access = .wo
      · have hs : u.sees c q.index = true := by simpa [hw.1] using hv
        simp only [if_neg hv, if_pos hw, Option.some.injEq] at h
        simp [State.carryOut, hl, hw, hs, ← h]
      · simp [if_neg hv, if_neg hw] at h

theorem serve_refused {a : Abort} (hp : u.planned = true) (hc : 1 ≤ cmd ∧ cmd ≤ 3) (h : u.refusalOf c cmd q = some a) :
    u.serve via c cmd false q = (u.endAttempt c, some (.abort a)) := by
  unfold State.refusalOf at h
  split at h
  · next hd =>
    rw [serve_protocol hp hd, Option.some.inj h]
  next hd =>
  rw [not_or, Bool.not_eq_true, Bool.not_eq_true] at hd
  split at h
  · next hb =>
    rw [serve_noRight hp hd.1 hd.2 hc (.inr (barredCrew_eq_true hb.1 hb.2)), Option.some.inj h]
  next hb =>
  have ht : u.takes c q := ⟨hp, hd.1, hd.2, mayAsk_of_not_barred hb⟩
  split at h
  · next hn =>
    rw [serve_of_takes ht hc, if_pos hn]
    split at h
    · next ha => rw [if_pos ha, Option.some.inj h]
    next ha =>
    split at h
    · next hr => rw [if_neg ha, if_pos hr, Option.some.inj h]
    · exact absurd h (by simp)
  · next hn =>
    rw [serve_here ⟨ht, not_not.1 hn⟩ hc, carryOut_refused (u := u.endAttempt c) h]

/-! ### One request on each transport (02 R38 to R40, R42, R43, R45) -/

/-- Once the dictionary answers normally every request is taken. -/
theorem admitRequests_of_planned (hp : u.planned = true) (n : Nat) : u.admitRequests via n = (u, n) := by
  rw [State.admitRequests, if_pos hp]

/-- The requests that a transport holds at this instant before the plan is built. -/
def State.waiting (u : State) (via : Via) : Nat :=
  if (tabGet (0, 0) u.bootQueues (viaKey via)).1 = u.now then (tabGet (0, 0) u.bootQueues (viaKey via)).2 else 0

/-- A transport with one request more at this instant. -/
def State.heldOne (u : State) (via : Via) : State := { u with bootQueues := tabSet u.bootQueues (viaKey via) (u.now, u.waiting via + 1) }

/-- Before the plan is built a transport with room takes one request. -/
theorem admitRequests_of_room (hp : u.planned = false) (hw : u.waiting via < 32) : u.admitRequests via 1 = (u.heldOne via, 1) := by
  have h1 : min 1 (32 - u.waiting via) = 1 := by omega
  unfold State.heldOne
  unfold State.waiting at *
  simp [State.admitRequests, hp, h1]

theorem restoresComm_of_no_restore (h : ¬ (q.index = 0x1010 ∧ o = .wrote 0)) : u.restoresComm q o = false := by
  simp only [State.restoresComm, decide_eq_false_iff_not]
  exact fun ⟨hi, _, ho, _⟩ => h ⟨hi, ho⟩

/-- Nothing follows a response that is not that of a restore of the whole device (02 R32). -/
theorem afterAll_of_no_restore (h : ¬ (q.index = 0x1010 ∧ o = .wrote 0)) : u.afterAll [(q, o)] = u := by
  simp [State.afterAll, restoresComm_of_no_restore h]

/-- The value that an expedited request carries on CAN FD. -/
def canData (cmd : Nat) (q : Req) : Except Abort (List Byte) := if cmd = 2 then canValue q.index q.sub q.data else .ok q.data

theorem canData_write (q : Req) : canData 2 q = canValue q.index q.sub q.data := rfl

/-- An expedited request as it is served: with its value alone, whole. -/
def wholeReq (q : Req) (d : List Byte) : Req := { q with data := d, offset := 0, length := 0 }

/-- What a CAN FD frame can carry of a response. -/
def Rsp.fits (o : Rsp) : Prop := ∀ b, o = .read b → b.length ≤ 60

section Can

variable {k client : Nat} {d : List Byte}

theorem canRequest_answered {u1 : State} (ha : u.admitRequests (.can k client) 1 = (u1, 1)) (hv : canData cmd q = .ok d)
    (hs : u1.serve (.can k client) (u1.canCrew k) cmd false (wholeReq q d) = (t, some o)) (ht : t.configured = true) (hf : o.fits)
    (hr : ¬ (q.index = 0x1010 ∧ o = .wrote 0)) : u.canRequest k client cmd q = t.canRsp k client q o.code o.data := by
  unfold canData at hv
  unfold wholeReq at hs
  have hz (v : State) : v.afterAll [(wholeReq q d, o)] = v := afterAll_of_no_restore hr
  unfold wholeReq at hz
  cases o with
  | read b =>
    simp only [State.canRequest, ha, hv, hs, State.canAnswer, ht, one_ne_zero, if_false, Bool.not_true, Bool.false_eq_true,
      if_neg (Nat.not_lt.2 (hf b rfl)), hz]
    rfl
  | _ =>
    simp only [State.canRequest, ha, hv, hs, State.canAnswer, ht, one_ne_zero, if_false, Bool.not_true, Bool.false_eq_true, hz]
    rfl

theorem canRequest_sentOn (hp : u.planned = true) (hv : canData cmd q = .ok d)
    (hs : u.serve (.can k client) (u.canCrew k) cmd false (wholeReq q d) = (t, none)) : u.canRequest k client cmd q = t := by
  unfold canData at hv
  unfold wholeReq at hs
  simp only [State.canRequest, admitRequests_of_planned hp, hv, hs, one_ne_zero, if_false]

end Can

section Datagram

variable {k ip port : Nat}

theorem udpServe_answered (hp : u.planned = true) (hn : noRoom [(cmd, q)] = false)
    (hs : u.serve (.eth k ip port) (u.ethCrew k) cmd (decide (cmd = 2) && !u.mayWriteFrom k ip) q = (t, some o)) (ht : t.configured = true)
    (hr : ¬ (q.index = 0x1010 ∧ o = .wrote 0)) :
    u.udpServe k ip port [(cmd, q)] = t.send (.udp k ip port (buildDatagram q.node q.tag [(q, o)])) := by
  simp [State.udpServe, admitRequests_of_planned hp, State.serveMessage, hn, State.serveAll, hs, State.canAnswer, ht, afterAll_of_no_restore hr]

theorem udpServe_sentOn (hp : u.planned = true) (hn : noRoom [(cmd, q)] = false)
    (hs : u.serve (.eth k ip port) (u.ethCrew k) cmd (decide (cmd = 2) && !u.mayWriteFrom k ip) q = (t, none)) :
    u.udpServe k ip port [(cmd, q)] = t := by
  simp [State.udpServe, admitRequests_of_planned hp, State.serveMessage, hn, State.serveAll, hs]

end Datagram

theorem mbxServe_answered (hp : u.planned = true) (hn : noRoom [(cmd, q)] = false) (hs : u.serve (.mailbox c) c cmd false q = (t, some o))
    (ht : t.configured = true) (hr : ¬ (q.index = 0x1010 ∧ o = .wrote 0)) :
    u.mbxServe c [(cmd, q)] = t.modCrew c (fun k => { k with mbxReply := buildDatagram q.node q.tag [(q, o)], mbxRestore := false }) := by
  simp [State.mbxServe, admitRequests_of_planned hp, State.serveMessage, hn, State.serveAll, hs, State.canAnswer, ht,
    restoresComm_of_no_restore hr]

/-! ### A mailbox response (02 R45) -/

/-- Two states of a crew that agree in all but its completion queue and its pending messages. -/
def Crew.AgreesBeyondQueue (k j : Crew) : Prop :=
  k = { j with eq := k.eq, eqPopHi := k.eqPopHi, popSince := k.popSince, eqDrops := k.eqDrops, eqArmed := k.eqArmed, msixPending := k.msixPending }

theorem Crew.AgreesBeyondQueue.refl (k : Crew) : k.AgreesBeyondQueue k := rfl

theorem Crew.AgreesBeyondQueue.trans {i j k : Crew} (h1 : i.AgreesBeyondQueue j) (h2 : j.AgreesBeyondQueue k) : i.AgreesBeyondQueue k := by
  unfold Crew.AgreesBeyondQueue at *
  rw [h1, h2]

theorem Crew.AgreesBeyondQueue.mbxBusy {j k : Crew} (h : k.AgreesBeyondQueue j) : k.mbxBusy = j.mbxBusy := by
  unfold Crew.AgreesBeyondQueue at h
  rw [h]

/-- A change of a crew's completion queue or pending messages alone. -/
theorem agrees_modCrew {f : Crew → Crew} (hf : ∀ k, (f k).AgreesBeyondQueue k) (u : State) (c d : Nat) :
    ((u.modCrew c f).crew d).AgreesBeyondQueue (u.crew d) := by
  rw [State.crew_modCrew]
  split
  · exact hf _
  · exact .refl _

theorem agrees_msix (u : State) (c v d : Nat) : ((u.msix c v).crew d).AgreesBeyondQueue (u.crew d) := by
  unfold State.msix
  split
  · exact agrees_modCrew (by intro; rfl) u c d
  · exact .refl _

theorem agrees_raiseCrew (u : State) (c b d : Nat) : ((u.raiseCrew c b).crew d).AgreesBeyondQueue (u.crew d) := by
  unfold State.raiseCrew
  split
  · exact .refl _
  · exact agrees_msix _ c 1 d

theorem agrees_checkArm (u : State) (c d : Nat) : ((u.checkArm c).crew d).AgreesBeyondQueue (u.crew d) := by
  unfold State.checkArm
  split
  · exact (agrees_msix _ c 0 d).trans (agrees_modCrew (by intro; rfl) u c d)
  · exact .refl _

/-- A posted item reaches nothing of a crew but its completion queue and its pending messages. -/
theorem agrees_post (u : State) (c w d : Nat) : ((u.post c w).crew d).AgreesBeyondQueue (u.crew d) := by
  unfold State.post
  split
  · exact .refl _
  split
  · rw [State.send_crew]
    exact agrees_modCrew (by intro; rfl) u c d
  split
  · exact (agrees_raiseCrew _ c 2 d).trans (agrees_modCrew (by intro; rfl) u c d)
  · exact (agrees_checkArm _ c d).trans (agrees_modCrew (by intro; rfl) u c d)

theorem mbxBusy_post (u : State) (c w d : Nat) : ((u.post c w).crew d).mbxBusy = (u.crew d).mbxBusy :=
  (agrees_post u c w d).mbxBusy

/-- A response as it leaves the mailbox: it fills the response buffer, ends busy and is sent, and done is raised. -/
def State.mbxAnswered (u : State) (c : Nat) (p : List Byte) : State :=
  ((u.modCrew c (fun k => { k with mbxResp := k.mbxReply, mbxReply := [], mbxBusy := false, mbxRestore := false })).send (.mailbox c p)).raise
    (mbxStatus c) [0]

theorem mbxFinish_of_no_restore (h : (u.crew c).mbxRestore = false) :
    u.mbxFinish c = if (u.crew c).mbxNotify then (u.mbxAnswered c (u.crew c).mbxReply).post c (eventWord 0x10 0xF 0 0 0)
      else u.mbxAnswered c (u.crew c).mbxReply := by
  simp [State.mbxFinish, State.mbxAnswered, h]

/-- A finished response stands in the response buffer, and the mailbox is not busy. -/
theorem mbxFinish_crew (h : (u.crew c).mbxRestore = false) :
    ((u.mbxFinish c).crew c).mbxResp = (u.crew c).mbxReply ∧ ((u.mbxFinish c).crew c).mbxBusy = false := by
  have hr : ((u.mbxAnswered c (u.crew c).mbxReply).crew c).mbxResp = (u.crew c).mbxReply := by simp [State.mbxAnswered, State.raise]
  have hb : ((u.mbxAnswered c (u.crew c).mbxReply).crew c).mbxBusy = false := by simp [State.mbxAnswered, State.raise]
  rw [mbxFinish_of_no_restore h]
  split
  · rw [mbxResp_post, mbxBusy_post]
    exact ⟨hr, hb⟩
  · exact ⟨hr, hb⟩

theorem mbxReady_of_reply (hc : u.configured = true) (hb : (u.crew c).mbxBusy = true) (hr : (u.crew c).mbxReply ≠ []) : u.mbxReady c = true := by
  simp [State.mbxReady, hc, hb, hr]

theorem buildDatagram_ne_nil (node seq : Nat) (es : List (Req × Rsp)) : buildDatagram node seq es ≠ [] := by
  simp [buildDatagram, leBytes]

/-! ### The commands READ, WRITE and DESCRIBE -/

/-- `f` gives the request `q` of command code `cmd` on each transport. -/
def IsRequest (dt cmd : Nat) (q : Req) (f : Via → Instr) : Prop :=
  (cmd = 1 ∧ f = fun v => .read dt v q) ∨ (cmd = 2 ∧ f = fun v => .write dt v q) ∨ (cmd = 3 ∧ f = fun v => .describe dt v q)

theorem IsRequest.code {f : Via → Instr} (h : IsRequest dt cmd q f) : 1 ≤ cmd ∧ cmd ≤ 3 := by
  obtain ⟨rfl, -⟩ | ⟨rfl, -⟩ | ⟨rfl, -⟩ := h <;> omega

theorem exec_of_isRequest {f : Via → Instr} (h : IsRequest dt cmd q f) (ho : (s.tick dt).viaOpen via = true) :
    exec (f via) s = .next (((s.tick dt).request1 cmd via q).answerNow via) := by
  have hx : happen dt (fun t => t.viaOpen via) (fun t => (t.request1 cmd via q).answerNow via) s = _ := happen_of_ready ho
  obtain ⟨rfl, rfl⟩ | ⟨rfl, rfl⟩ | ⟨rfl, rfl⟩ := h <;> exact hx

theorem viaOpen_can {k client : Nat} (hc : u.configured = true) (hk : k < 2) : u.viaOpen (.can k client) = true := by
  simp [State.viaOpen, hc, hk]

theorem viaOpen_eth {k ip port : Nat} (hc : u.configured = true) (hk : k < 2) : u.viaOpen (.eth k ip port) = true := by
  simp [State.viaOpen, hc, hk]

theorem exec_can {f : Via → Instr} (h : IsRequest dt cmd q f) {k client : Nat} (hc : (s.tick dt).configured = true) (hk : k < 2) :
    exec (f (.can k client)) s = .next ((s.tick dt).canRequest k client cmd q) :=
  exec_of_isRequest h (viaOpen_can hc hk)

theorem exec_eth {f : Via → Instr} (h : IsRequest dt cmd q f) {k ip port : Nat} (hc : (s.tick dt).configured = true) (hk : k < 2) :
    exec (f (.eth k ip port)) s = .next ((s.tick dt).udpServe k ip port [(cmd, q)]) :=
  exec_of_isRequest h (viaOpen_eth hc hk)

/-- A mailbox whose request was taken. -/
def State.asked (u : State) (c : Nat) : State := u.modCrew c (fun k => { k with mbxBusy := true, mbxReply := [] })

/-- A mailbox request that is answered at once fills the response buffer, and where no MBX_DONE was asked for changes nothing else. -/
theorem exec_mailbox {f : Via → Instr} (h : IsRequest dt cmd q f) (ho : (s.tick dt).viaOpen (.mailbox c) = true) (hp : (s.tick dt).planned = true)
    (hn : noRoom [(cmd, q)] = false) (hs : ((s.tick dt).asked c).serve (.mailbox c) c cmd false q = (t, some o)) (ht : t.configured = true)
    (hr : ¬ (q.index = 0x1010 ∧ o = .wrote 0)) (hb : (t.crew c).mbxBusy = true) :
    ∃ x, exec (f (.mailbox c)) s = .next x ∧ (x.crew c).mbxResp = buildDatagram q.node q.tag [(q, o)] ∧ (x.crew c).mbxBusy = false ∧
      ((t.crew c).mbxNotify = false →
        x = (t.modCrew c (fun k => { k with mbxReply := buildDatagram q.node q.tag [(q, o)], mbxRestore := false })).mbxAnswered c
          (buildDatagram q.node q.tag [(q, o)])) := by
  have hv : (s.tick dt).request1 cmd (.mailbox c) q = _ := mbxServe_answered (u := (s.tick dt).asked c) hp hn hs ht hr
  rw [exec_of_isRequest h ho, hv]
  generalize hw : t.modCrew c (fun k => { k with mbxReply := buildDatagram q.node q.tag [(q, o)], mbxRestore := false }) = w
  have hreply : (w.crew c).mbxReply = buildDatagram q.node q.tag [(q, o)] := by simp [← hw]
  have hrest : (w.crew c).mbxRestore = false := by simp [← hw]
  have hnote : (w.crew c).mbxNotify = (t.crew c).mbxNotify := by simp [← hw]
  have hready : w.mbxReady c = true := by
    have hcf : w.configured = true := by rw [← hw]; exact ht
    have hbw : (w.crew c).mbxBusy = true := by simp [← hw, hb]
    exact mbxReady_of_reply hcf hbw (hreply ▸ buildDatagram_ne_nil _ _ _)
  refine ⟨w.mbxFinish c, ?_, ?_, (mbxFinish_crew hrest).2, fun hq => ?_⟩
  · simp [State.answerNow, hready]
  · rw [(mbxFinish_crew hrest).1, hreply]
  · rw [mbxFinish_of_no_restore hrest, if_neg (by simp [hnote, hq]), hreply]

/-- Settles O17: a refused request ends the crew's attempt and is answered with `refusalOf`'s abort, one that goes on is in flight to its node, and
before the plan is built each transport has room for 32. The order of the refusals (notes/assumptions/35), that room (38), the disabled proxy crew
and the visibility of DESCRIBE (101) are the model's choices. -/
theorem requestsRefused : Obligations.RequestsRefused := by
  unfold Obligations.RequestsRefused
  intro dt k client cmd ip port q s hk f hf u refusal goesOn ended frame sentOn
  have hq : IsRequest dt cmd q f := hf
  refine ⟨fun d hw hn => ?can, fun hp hroom hallow => ?eth⟩
  case can =>
    have hv : canData cmd q = .ok d := by
      unfold canData
      split
      · next h => exact hw h
      · next h => rw [hn h]
    refine ⟨fun hp a ha => ?_, fun hp hg => ?_, ?_⟩
    · have hs : u.serve (.can k client) (u.canCrew k) cmd false (wholeReq q d) = _ := serve_refused hp hq.code ha
      rw [exec_can hq (planned_configured hp) hk,
        canRequest_answered (admitRequests_of_planned hp 1) hv hs (planned_configured hp) (by simp [Rsp.fits]) (by simp)]
      rfl
    · have hs : u.serve (.can k client) (u.canCrew k) cmd false (wholeReq q d) = _ := serve_goesOn hp hg hq.code
      rw [exec_can hq (planned_configured hp) hk, canRequest_sentOn hp hv hs]
      rfl
    · intro hc hp e waiting hroom
      have ha := admitRequests_of_room (via := .can k client) hp hroom
      rw [exec_can hq hc hk, canRequest_answered ha hv (serve_booting (u := u.heldOne (.can k client)) hp) hc (by simp [Rsp.fits]) (by simp)]
      rfl
  case eth =>
    have hdeny : (decide (cmd = 2) && !u.mayWriteFrom k ip) = false := by
      rcases hallow with h | h <;> simp [h]
    constructor
    · intro a ha
      have hs : u.serve (.eth k ip port) (u.ethCrew k) cmd (decide (cmd = 2) && !u.mayWriteFrom k ip) q = _ := hdeny ▸ serve_refused hp hq.code ha
      rw [exec_eth hq (planned_configured hp) hk, udpServe_answered hp hroom hs (planned_configured hp) (by simp)]
      rfl
    · intro hg
      have hs : u.serve (.eth k ip port) (u.ethCrew k) cmd (decide (cmd = 2) && !u.mayWriteFrom k ip) q = _ := hdeny ▸ serve_goesOn hp hg hq.code
      rw [exec_eth hq (planned_configured hp) hk, udpServe_sentOn hp hroom hs]
      rfl

/-! ### Reads and descriptions (02 R30, R40, R43) -/

section Reading

variable {r : ObjRow}

theorem takesHere_of_answers (h : answers u c q r) : u.takesHere c q := by
  obtain ⟨hp, ⟨hd, hu⟩, hn, -, ha, -⟩ := h
  exact ⟨⟨hp, hd, hu, ha⟩, hn⟩

theorem answers_endAttempt (h : answers u c q r) : answers (u.endAttempt c) c q r := answers_modCrew h c _

/-- The value in effect as it travels. -/
def State.encoded (u : State) (c : Nat) (q : Req) (r : ObjRow) : List Byte := encodeVal r.ty (u.value c q.index q.sub)

/-- The byte range that a request asks for; length 0 runs to the end (notes/assumptions/37). -/
def byteRange (q : Req) (bs : List Byte) : List Byte := if q.length = 0 then bs.drop q.offset else (bs.drop q.offset).take q.length

/-- The byte range lies in the encoded value; only a STR or a BLOB has one that does not begin at 0 (02 R43). -/
def State.inRange (u : State) (c : Nat) (q : Req) (r : ObjRow) : Prop :=
  (q.offset = 0 ∨ r.ty = .str ∨ r.ty = .blob) ∧ q.offset ≤ (u.encoded c q r).length

theorem readRange_of_inRange (hn : ¬ (q.index = 0x7F00 ∧ q.sub = 2)) (hs : ¬ (q.index = 0x7000 ∧ q.sub = 1)) (hi : u.inRange c q r) :
    u.readRange c r q = (u, .read (byteRange q (u.encoded c q r))) := by
  obtain ⟨hty, hlen⟩ := hi
  unfold State.encoded at *
  have hbad : ¬ ((q.offset ≠ 0 ∧ r.ty ≠ .str ∧ r.ty ≠ .blob) ∨ (encodeVal r.ty (u.value c q.index q.sub)).length < q.offset) := by
    rintro (⟨h0, h1, h2⟩ | h)
    · exact hty.elim h0 (fun h => h.elim h1 h2)
    · exact absurd hlen (Nat.not_le.2 h)
  simp only [State.readRange, State.readObj, if_neg hn, if_neg hs, if_neg hbad, byteRange]

theorem carryOut_read {attempt : Option Confirm} (h : answers u c q r) (hi : u.inRange c q r) :
    u.carryOut c 1 attempt q = (u, .read (byteRange q (u.encoded c q r))) := by
  obtain ⟨-, -, -, hl, -, hv, hw, hn, hs⟩ := h
  simp [State.carryOut, hl, hv, hw, readRange_of_inRange hn hs hi]

theorem carryOut_describe {attempt : Option Confirm} (h : answers u c q r) : u.carryOut c 3 attempt q = (u, .described (describe q.index r)) := by
  obtain ⟨-, -, -, hl, -, hv, -⟩ := h
  simp [State.carryOut, hl, hv]

theorem serve_read (h : answers u c q r) (hi : (u.endAttempt c).inRange c q r) :
    u.serve via c 1 false q = (u.endAttempt c, some (.read (byteRange q ((u.endAttempt c).encoded c q r)))) := by
  rw [serve_here (takesHere_of_answers h) (by decide), carryOut_read (answers_endAttempt h) hi]

theorem serve_describe (h : answers u c q r) : u.serve via c 3 false q = (u.endAttempt c, some (.described (describe q.index r))) := by
  rw [serve_here (takesHere_of_answers h) (by decide), carryOut_describe (answers_endAttempt h)]

/-- A whole value is a byte range of itself. -/
theorem inRange_wholeReq (u : State) (c : Nat) (q : Req) (r : ObjRow) (d : List Byte) : u.inRange c (wholeReq q d) r := ⟨.inl rfl, Nat.zero_le _⟩

theorem noRoom_describe (q : Req) : noRoom [(3, q)] = false := by simp [noRoom, entryRoom]
theorem noRoom_write (q : Req) : noRoom [(2, q)] = false := by simp [noRoom, entryRoom]

end Reading

/-- Settles O15: READ and DESCRIBE are served in the state in which the crew's attempt has ended, and each transport sends what they answer. A READ of
length 0 runs to the end (notes/assumptions/37) and the mailbox answers at once (85): these are the model's choices. -/
theorem requestsThatRead : Obligations.RequestsThatRead := by
  unfold Obligations.RequestsThatRead
  intro dt q s r u bytes part inRange frame ended
  have hread : IsRequest dt 1 q (fun v => .read dt v q) := .inl ⟨rfl, rfl⟩
  have hdesc : IsRequest dt 3 q (fun v => .describe dt v q) := .inr (.inr ⟨rfl, rfl⟩)
  refine ⟨fun k client hk ha => ⟨fun hlen => ?canRead, ?canDescribe⟩, fun k ip port hk ha => ⟨fun hroom hi => ?ethRead, ?ethDescribe⟩,
    ?mailbox⟩
  case canRead =>
    have hs : u.serve (.can k client) (u.canCrew k) 1 false (wholeReq q q.data) = _ := serve_read ha (inRange_wholeReq _ _ _ _ _)
    rw [exec_can hread (planned_configured ha.1) hk,
      canRequest_answered (admitRequests_of_planned ha.1 1) rfl hs (planned_configured ha.1) (by rintro b ⟨⟩; exact hlen) (by simp)]
    rfl
  case canDescribe =>
    have hs : u.serve (.can k client) (u.canCrew k) 3 false (wholeReq q q.data) = _ := serve_describe ha
    rw [exec_can hdesc (planned_configured ha.1) hk,
      canRequest_answered (admitRequests_of_planned ha.1 1) rfl hs (planned_configured ha.1) (by simp [Rsp.fits]) (by simp)]
    rfl
  case ethRead =>
    rw [exec_eth hread (planned_configured ha.1) hk, udpServe_answered ha.1 hroom (serve_read ha hi) (planned_configured ha.1) (by simp)]
    rfl
  case ethDescribe =>
    rw [exec_eth hdesc (planned_configured ha.1) hk, udpServe_answered ha.1 (noRoom_describe q) (serve_describe ha) (planned_configured ha.1) (by simp)]
    rfl
  case mailbox =>
    intro c ho ha w done
    have hmb : ((w.endAttempt c).crew c).mbxBusy = true := by simp [w, State.endAttempt]
    have hnote : ((w.endAttempt c).crew c).mbxNotify = (u.crew c).mbxNotify := by simp [w, State.endAttempt]
    have haw : answers w c q r := ha
    constructor
    · intro hroom hi
      obtain ⟨x, hx, hresp, hbusy, heq⟩ := exec_mailbox hread ho ha.1 hroom (serve_read haw hi) (planned_configured ha.1) (by simp) hmb
      exact ⟨x, hx, hresp, hbusy, fun hn => heq (hnote.trans hn)⟩
    · obtain ⟨x, hx, hresp, hbusy, heq⟩ := exec_mailbox hdesc ho ha.1 (noRoom_describe q) (serve_describe haw) (planned_configured ha.1) (by simp) hmb
      exact ⟨x, hx, hresp, hbusy, fun hn => heq (hnote.trans hn)⟩

/-! ### Writes (02 R30, R34, R44) -/

theorem serve_write (h : u.takesHere c q) (hx : (u.endAttempt c).carryOut c 2 (u.crew c).confirm q = (t, o)) :
    u.serve via c 2 false q = (t, some o) := by
  rw [serve_here h (by decide), hx]

/-- The end of an attempt leaves what a crew has staged, and with it what the crew holds. -/
theorem holds_endAttempt (u : State) (c d i : Nat) (r : ObjRow) : (u.endAttempt c).holds d i r = u.holds d i r := by
  have hst : ((u.endAttempt c).crew d).staged = (u.crew d).staged := by
    rw [State.endAttempt, State.crew_modCrew]
    split <;> rfl
  have hmay (n : Nat) : (u.endAttempt c).mayCommit d n = u.mayCommit d n := by
    unfold State.mayCommit
    rw [hst]
    rfl
  unfold State.holds
  cases r.right <;> simp only [hmay] <;> rfl

section Staging

variable {r : ObjRow} {v : Val}

/-- A write of a lane's object that the next commit applies, by a crew that holds its right, is staged (02 R30, R35). -/
theorem writeObj_staged {attempt : Option Confirm} {d : List Byte} (hh : u.holding = false) (hi : within 0x3000 0x37FF q.index = true)
    (hrow : objRow q.index q.sub = some r) (hacc : r.access = .rwc) (hold : u.holds c q.index r = true)
    (hn : isConfirmation q.index q.sub = false) (hc : isConfirmed q.index q.sub = false) (hv : decodeVal r q.index d = .ok v) :
    u.writeObj c attempt q.index q.sub 0 d = (u.stage c (objKey q.index r.sub) v, .ok 0) := by
  have hlane : 0x3000 ≤ q.index ∧ q.index ≤ 0x37FF := by simpa [within] using hi
  have hsealed : within 0x7800 0x78FF q.index = false := by simp [within]; omega
  have hsec : within 0x7400 0x74FF q.index = false := by simp [within]; omega
  have hlayer : within 0x6000 0x67FF q.index = false := by simp [within]; omega
  have hrestore : q.index ≠ 0x1010 := by omega
  simp [State.writeObj, hrow, hh, hsealed, hacc, hold, hsec, hn, hc, State.spliced, hv, hrestore, State.putObj, hlayer]

end Staging

/-- Settles O16: a WRITE is `carryOut` in the state in which the crew's attempt has ended, and each transport sends its one result. The order of its
checks is the model's choice (notes/assumptions/35). -/
theorem requestsThatWrite : Obligations.RequestsThatWrite := by
  unfold Obligations.RequestsThatWrite
  intro dt q s t o u mine runs frame
  have hwrite : IsRequest dt 2 q (fun v => .write dt v q) := .inr (.inl ⟨rfl, rfl⟩)
  have here {w : State} {c : Nat} {p : Req} (h : mine w c) (hp : p = q ∨ ∃ d, p = wholeReq q d) : w.takesHere c p := by
    obtain ⟨hpl, hd, hu, hn, ha⟩ := h
    obtain rfl | ⟨d, rfl⟩ := hp <;> exact ⟨⟨hpl, hd, hu, ha⟩, hn⟩
  refine ⟨fun k client d hk hv => ⟨?can, ?staged⟩, fun k ip port hk => ⟨?eth, ?denied⟩, ?mailbox⟩
  case can =>
    intro ⟨hm, hx, ht, hr⟩ hread
    have hs : u.serve (.can k client) (u.canCrew k) 2 false (wholeReq q d) = (t, some o) := serve_write (here hm (.inr ⟨d, rfl⟩)) hx
    rw [exec_can hwrite (planned_configured hm.1) hk,
      canRequest_answered (admitRequests_of_planned hm.1 1) ((canData_write q).trans hv) hs ht (fun b hb => absurd hb (hread b)) hr]
    rfl
  case staged =>
    intro r v hm hh hi hl hrow hsub hacc hold hn hc hdec
    have hx : (u.endAttempt (u.canCrew k)).carryOut (u.canCrew k) 2 (u.crew (u.canCrew k)).confirm (wholeReq q d) =
        ((u.endAttempt (u.canCrew k)).stage (u.canCrew k) (objKey q.index q.sub) v, .wrote 0) := by
      have hw := writeObj_staged (attempt := (u.crew (u.canCrew k)).confirm) (u := u.endAttempt (u.canCrew k)) hh hi hrow hacc
        ((holds_endAttempt u _ _ _ _).trans hold) hn hc hdec
      rw [hsub] at hw
      simp [State.carryOut, wholeReq, hl, hw]
    have hi' : q.index ≠ 0x1010 := by
      intro h
      rw [h] at hi
      exact absurd hi (by decide)
    rw [exec_can hwrite (planned_configured hm.1) hk, canRequest_answered (admitRequests_of_planned hm.1 1) ((canData_write q).trans hv)
      (serve_write (here hm (.inr ⟨d, rfl⟩)) hx) (planned_configured hm.1) (by simp [Rsp.fits]) (fun h => hi' h.1)]
    rfl
  case eth =>
    intro hallow ⟨hm, hx, ht, hr⟩
    have hs : u.serve (.eth k ip port) (u.ethCrew k) 2 (decide (2 = 2) && !u.mayWriteFrom k ip) q = (t, some o) := by
      rw [hallow]
      exact serve_write (here hm (.inl rfl)) hx
    rw [exec_eth hwrite (planned_configured hm.1) hk, udpServe_answered hm.1 (noRoom_write q) hs ht hr]
  case denied =>
    intro hallow hp hd hu
    have hs : u.serve (.eth k ip port) (u.ethCrew k) 2 (decide (2 = 2) && !u.mayWriteFrom k ip) q = _ :=
      serve_noRight hp hd hu (by decide) (.inl (by simp [hallow]))
    rw [exec_eth hwrite (planned_configured hp) hk, udpServe_answered hp (noRoom_write q) hs (planned_configured hp) (by simp)]
    rfl
  case mailbox =>
    intro c ho ⟨hm, hx, ht, hr⟩ hb
    exact exec_mailbox hwrite ho hm.1 (noRoom_write q) (serve_write (here hm (.inl rfl)) hx) ht hr hb

end Sys2Proof.Machine
end

section
/-! SUPPORT and CERTIFICATES of the completion queues (11 R300), segmented transfers (02 R41), datagrams and the mailbox (02 R42, R45). -/

namespace Sys2Proof.Machine

open Sys2Proof

variable {s u : State} {dt c w : Nat}

/-! ### An event posted to a completion queue (02 R23, 11 R300) -/

/-- An event for a disabled crew is dropped. -/
theorem post_disabled (he : u.crewEnabled c = false) : u.post c w = u := by
  simp [State.post, he]

/-- An event for a queue with room is appended. -/
theorem post_of_room (hq : u.quiet = false) (he : u.crewEnabled c = true) (hp : (u.crew c).popSince = none) (hl : (u.crew c).eq.length < 256) :
    u.post c w = (u.modCrew c (fun k => { k with eq := k.eq ++ [w] })).checkArm c := by
  simp [State.post, hq, he, hp, Nat.not_le.2 hl]

/-- An event for a full queue is dropped and counted, and eq_overflow is raised. -/
theorem post_full (hq : u.quiet = false) (he : u.crewEnabled c = true) (hp : (u.crew c).popSince = none) (hl : 256 ≤ (u.crew c).eq.length) :
    u.post c w = (u.modCrew c (fun k => { k with eqDrops := k.eqDrops + 1 })).raiseCrew c 2 := by
  simp [State.post, hq, he, hp, hl]

/-- An event posted to one crew leaves every other crew as it is. -/
theorem post_crew_other {d : Nat} (hd : d ≠ c) : (u.post c w).crew d = u.crew d := by
  have hmod (f : Crew → Crew) : (u.modCrew c f).crew d = u.crew d := by rw [State.crew_modCrew, if_neg (Ne.symm hd)]
  unfold State.post
  split
  · rfl
  split
  · rw [State.send_crew, hmod]
  split
  · rw [(raiseCrew_crew _ c 2 d).2.2.1 hd, hmod]
  · rw [(checkArm_crew _ c d).2.2 hd, hmod]

/-- Settles O42: the three outcomes of a post with no read waiting, and what the armed vector and the crew event leave of the queue. -/
theorem completionQueueHolds256 : Obligations.CompletionQueueHolds256 := by
  unfold Obligations.CompletionQueueHolds256
  intro s c w hq hp
  refine ⟨fun he hl => ?room, fun he hl => ?full, post_disabled, fun d hd => post_crew_other hd⟩
  case room =>
    obtain ⟨heq, hdrops, -⟩ := checkArm_crew (s.modCrew c (fun k => { k with eq := k.eq ++ [w] })) c c
    rw [post_of_room hq he hp hl, heq, hdrops]
    simp
  case full =>
    obtain ⟨heq, hdrops, -, hraised⟩ := raiseCrew_crew (s.modCrew c (fun k => { k with eqDrops := k.eqDrops + 1 })) c 2 c
    rw [post_full hq he hp hl, heq, hdrops]
    exact ⟨by simp, by simp, hraised⟩

/-! ### Segmented transfers (02 R40, R41) -/

section Segments

variable {k client node tag seq : Nat} {q : Req} {data : List Byte} {x : Segment} {f : State → State} {dir : Bool}

/-- A transfer ends and its client is answered with the abort. -/
theorem segAbort_eq (u : State) (k client node : Nat) (x : Segment) (a : Abort) :
    u.segAbort k client node x a = ({ u with segments := tabErase u.segments (segKey k node client) }).canRsp k client
      { node := node, tag := x.tag, index := x.index, sub := x.sub, dir := false, offset := 0, length := 0, data := [] } 0xF (leBytes 4 a.code) := rfl

theorem segReplace_of_none (h : tabFind u.segments (segKey k node client) = none) : u.segReplace k client node = u := by
  simp only [State.segReplace, h]

/-- A segment's frame with dir 0 acts at once where the dictionary answers normally. -/
theorem segFrame_of_planned (hp : u.planned = true) : u.segFrame k client node tag false f = f u := by
  simp [State.segFrame, admitRequests_of_planned hp, hp]

theorem segFrame_of_dir (hp : u.planned = true) : u.segFrame k client node tag true f =
    u.canRsp k client { node := node, tag := tag, index := 0, sub := 0, dir := true, offset := 0, length := 0, data := [] } 0xF
      (leBytes 4 Abort.protocol.code) := by
  simp [State.segFrame, admitRequests_of_planned hp, hp]

theorem segRead_of_serve {t : State} {b : List Byte} (hp : u.planned = true) (hn : tabFind u.segments (segKey k q.node client) = none)
    (hs : u.serve (.can k client) (u.canCrew k) 1 false { q with offset := 0, length := 0 } = (t, some (.read b))) :
    u.segRead k client q = (t.canRsp k client q 0xC (leBytes 4 b.length)).segPump k client q.node
      { write := false, tag := q.tag % 16, index := q.index, sub := q.sub, total := b.length, data := b, nextSeq := 0, unacked := 0, at_ := t.now } 16 := by
  simp only [State.segRead, admitRequests_of_planned hp, hp, segReplace_of_none hn, hs, one_ne_zero, if_false, if_true]

/-- The transfer that a request opens: `total` bytes, of which `data` are still to be sent. -/
def openedTransfer (q : Req) (write : Bool) (total : Nat) (data : List Byte) (now : Nat) : Segment :=
  { write := write, tag := q.tag % 16, index := q.index, sub := q.sub, total := total, data := data, nextSeq := 0, unacked := 0, at_ := now }

/-- A client's transfer as it stands. -/
def State.withTransfer (u : State) (k client node : Nat) (x : Segment) : State :=
  { u with segments := tabSet u.segments (segKey k node client) x }

/-- A write of this node's object with a length opens a transfer. -/
theorem segWrite_opens (hp : u.planned = true) (hn : tabFind u.segments (segKey k q.node client) = none) (hd : q.dir = false)
    (hu : q.unknown = false) (hown : q.node = u.ownNode) (hl : 4 ≤ q.data.length) (ht : leNat (q.data.take 4) ≠ 0) :
    u.segWrite k client q = ((u.endAttempt (u.canCrew k)).withTransfer k client q.node
      (openedTransfer q true (leNat (q.data.take 4)) [] u.now)).canRsp k client q 0xC [] := by
  have hn' : (u.endAttempt (u.canCrew k)).segReplace k client q.node = u.endAttempt (u.canCrew k) := segReplace_of_none hn
  simp [State.segWrite, admitRequests_of_planned hp, hp, hd, hu, hn', ← hown, Nat.not_lt.2 hl, ht, State.withTransfer, openedTransfer]

/-- A whole segment in sequence that is not the last is kept, and every sixteenth is acknowledged. -/
theorem segData_kept (hx : tabFind u.segments (segKey k node client) = some x) (hw : x.write = true) (ht : x.tag = tag % 16)
    (hs : x.nextSeq % 256 = seq) (hl : x.data.length + 62 < x.total) (hd : data.length = 62) :
    u.segData k client node tag seq data =
      (let t := u.withTransfer k client node { x with data := x.data ++ data, nextSeq := x.nextSeq + 1, at_ := u.now }
       if (x.nextSeq + 1) % 16 = 0 then t.segSend k client node 0xE x.tag seq [] else t) := by
  have hwant : min 62 (x.total - x.data.length) = 62 := by omega
  have htake : data.take 62 = data := by rw [← hd, List.take_length]
  have hmore : ¬ x.total ≤ (x.data ++ data).length := by rw [List.length_append]; omega
  simp only [State.segData, hx, hw, ht, hs, hwant, hd, htake, hmore, Bool.not_true, Bool.false_eq_true, ne_eq, not_true_eq_false, or_self, lt_self_iff_false,
    if_false]
  rfl

/-- A segment of another transfer, or out of its place, ends the transfer. -/
theorem segData_out_of_sequence (hx : tabFind u.segments (segKey k node client) = some x)
    (h : x.write = false ∨ x.tag ≠ tag % 16 ∨ x.nextSeq % 256 ≠ seq) :
    u.segData k client node tag seq data = u.segAbort k client node x .segSequence := by
  have hb : !x.write ∨ x.tag ≠ tag % 16 ∨ x.nextSeq % 256 ≠ seq := by simpa using h
  simp only [State.segData, hx, if_pos hb]

/-- The acknowledgement of a read's last segment ends it. -/
theorem segAck_last (hx : tabFind u.segments (segKey k node client) = some x) (hw : x.write = false) (ht : x.tag = tag % 16) (hd : x.data = [])
    (hu : 0 < x.unacked) (hs : x.nextSeq % 256 = (seq + 1) % 256) :
    u.segAck k client node tag seq = { u with segments := tabErase u.segments (segKey k node client) } := by
  have hleft : (x.nextSeq + 255 - seq % 256) % 256 = 0 := by omega
  simp [State.segAck, hx, hw, ht, hd, hleft, Nat.not_le.2 hu]

theorem segCancel_of_tag (hx : tabFind u.segments (segKey k node client) = some x) (ht : x.tag = tag % 16) :
    u.segCancel k client node tag = u.segAbort k client node x .cancelled := by
  simp only [State.segCancel, hx, if_pos ht]

/-- A command on CAN FD acts where the launch configuration has taken effect. -/
theorem happen_can {eff : State → State} (hc : (s.tick dt).configured = true) (hk : k < 2) :
    happen dt (fun t => t.viaOpen (.can k client)) eff s = .next (eff (s.tick dt)) :=
  happen_of_ready (viaOpen_can hc hk)

theorem exec_segReadInit (hc : (s.tick dt).configured = true) (hk : k < 2) : exec (.segReadInit dt k client q) s = .next ((s.tick dt).segRead k client q) :=
  happen_can (eff := fun t => t.segRead k client q) hc hk

theorem exec_segWriteInit (hc : (s.tick dt).configured = true) (hk : k < 2) :
    exec (.segWriteInit dt k client q) s = .next ((s.tick dt).segWrite k client q) :=
  happen_can (eff := fun t => t.segWrite k client q) hc hk

theorem exec_segData (hc : (s.tick dt).configured = true) (hk : k < 2) : exec (.segData dt k client ⟨node, dir⟩ tag seq data) s =
    .next ((s.tick dt).segFrame k client node tag dir (fun u => u.segData k client node tag seq data)) :=
  happen_can (eff := fun t => t.segFrame k client node tag dir (fun u => u.segData k client node tag seq data)) hc hk

theorem exec_segAck (hc : (s.tick dt).configured = true) (hk : k < 2) : exec (.segAck dt k client ⟨node, dir⟩ tag seq) s =
    .next ((s.tick dt).segFrame k client node tag dir (fun u => u.segAck k client node tag seq)) :=
  happen_can (eff := fun t => t.segFrame k client node tag dir (fun u => u.segAck k client node tag seq)) hc hk

theorem exec_cancel (hc : (s.tick dt).configured = true) (hk : k < 2) : exec (.cancel dt k client ⟨node, dir⟩ tag) s =
    .next ((s.tick dt).segFrame k client node tag dir (fun u => u.segCancel k client node tag)) :=
  happen_can (eff := fun t => t.segFrame k client node tag dir (fun u => u.segCancel k client node tag)) hc hk

theorem exec_segTimeout (hc : (s.tick dt).configured = true) (hx : tabFind (s.tick dt).segments (segKey k node client) = some x)
    (ha : x.at_ + 100_000_000 ≤ (s.tick dt).now) : exec (.segTimeout dt k client node) s = .next ((s.tick dt).segAbort k client node x .segTimeout) := by
  have hdue : (s.tick dt).segDue k client node = true := by
    rw [State.segDue, hc, any_of_some hx (decide_eq_true ha)]
    rfl
  show execSegTimeout dt k client node s = _
  rw [execSegTimeout, happen_of_ready hdue, State.segTimeout, hx]

end Segments

/-- Settles O18: each clause is one command and the equation of its transfer. A segment of another tag, or one of a read, is out of sequence by the
model's choice (notes/assumptions/39). -/
theorem segmentedTransfers : Obligations.SegmentedTransfers := by
  unfold Obligations.SegmentedTransfers
  intro dt k client node tag seq q data s x u key aborted refused hk
  refine ⟨fun t b hp hn hs => ?read, fun hp hn hd hu hown hl ht => ?write, fun hp hx => ?frames, fun hc hx ha => exec_segTimeout hc hx ha⟩
  case read => rw [exec_segReadInit (planned_configured hp) hk, segRead_of_serve hp hn hs]
  case write =>
    rw [exec_segWriteInit (planned_configured hp) hk, segWrite_opens hp hn hd hu hown hl ht]
    rfl
  case frames =>
    have hc := planned_configured hp
    refine ⟨?kept, fun h => ?outOfSequence, fun hw ht hd hun _ _ hs => ?lastAck, fun ht => ?cancelled, ?dirData, ?dirAck, ?dirCancel⟩
    case kept =>
      intro hw ht hs hl hd t
      rw [exec_segData hc hk, segFrame_of_planned hp, segData_kept hx hw ht hs hl hd]
      exact ⟨fun h => congrArg _ (if_neg h), fun h => congrArg _ (if_pos h)⟩
    case outOfSequence => rw [exec_segData hc hk, segFrame_of_planned hp, segData_out_of_sequence hx h, segAbort_eq]
    case lastAck => rw [exec_segAck hc hk, segFrame_of_planned hp, segAck_last hx hw ht hd hun hs]
    case cancelled => rw [exec_cancel hc hk, segFrame_of_planned hp, segCancel_of_tag hx ht, segAbort_eq]
    case dirData => rw [exec_segData hc hk, segFrame_of_dir hp]
    case dirAck => rw [exec_segAck hc hk, segFrame_of_dir hp]
    case dirCancel => rw [exec_cancel hc hk, segFrame_of_dir hp]

/-! ### Datagrams (02 R42, R43) -/

theorem exec_udpDatagram {k ip port : Nat} {payload : List Byte} (hc : (s.tick dt).configured = true) (hk : k < 2) :
    exec (.udpDatagram dt k ip port payload) s = .next ((s.tick dt).udpTake k ip port payload) :=
  happen_of_ready (ready := fun t => t.viaOpen (.eth k ip port)) (eff := fun t => t.udpTake k ip port payload) (viaOpen_eth hc hk)

/-- A malformed datagram is dropped and counted in comm.drops. -/
theorem udpTake_malformed {k ip port : Nat} {payload : List Byte} (h : parseDatagram payload = none) :
    u.udpTake k ip port payload = u.setNum (0x1200 + k) 7 ((u.num (0x1200 + k) 7 + 1) % 2 ^ 32) := by
  rw [State.udpTake, h]
  rfl

theorem udpTake_parsed {k ip port : Nat} {payload : List Byte} {es : List (Nat × Req)} (h : parseDatagram payload = some es) :
    u.udpTake k ip port payload = u.udpServe k ip port es := by
  rw [State.udpTake, h]

/-! ### The mailbox's registers (02 R45) -/

/-- The rows of the request buffer are command registers without PV bits. -/
theorem row_of_mbxBuffer {offset j : Nat} {row : RegRow} (ho : offset < 0x800) (h4 : offset % 4 = 0)
    (h : regRow (.crew c) (0x2000 + offset) j = some row) : row.kind = .command ∧ row.pv = 0 := by
  have e : regRow (.crew c) (0x2000 + offset) j = some (cmdReg (0x2000 + offset) 0) := by
    simp only [regRow]
    rw [if_neg (by omega), if_pos (by omega)]
  obtain rfl := Option.some.inj (e.symm.trans h)
  exact ⟨rfl, rfl⟩

/-- A landing write of the request buffer is a word written into it. -/
theorem exec_mbxRequestBufferWrite {offset : Nat} {v : Word} (ho : offset < 0x800) (h4 : offset % 4 = 0)
    (h : lands (s.tick dt) (pageAcc c (0x2000 + offset)) (.crew c) (0x2000 + offset) = true) :
    exec (.mbxRequestBufferWrite dt c offset v) s = .next ((s.tick dt).mbxWrite c offset v.toNat) := by
  obtain ⟨-, -, -, -, -, hopen, -, -⟩ := lands_reg h
  obtain ⟨-, r, eb, eo, -, hw⟩ := command_lands h (by simp) (by simp) (fun _ _ => row_of_mbxBuffer ho h4) v.toNat
  have hready : ((s.tick dt).accOpen (pageAcc c (0x2000 + offset)) && decide (offset < 0x800) && decide (offset % 4 = 0)) = true := by simp [hopen, ho, h4]
  show execMbxRequestBufferWrite dt c offset v s = _
  rw [execMbxRequestBufferWrite, happen_of_ready hready, hw]
  simp [State.command, eb, State.crewCommand, eo]

/-- CREW.MBX_CTRL: notify is its bit 2, and its other bits are reserved or the command go (02 R45, 11 R316). -/
theorem row_of_mbxCtrl {j : Nat} {row : RegRow} (h : regRow (.crew c) 0x3000 j = some row) : row = viewReg 0x3000 4 4 0xFFFF_FFF8 := by
  have e : regRow (.crew c) 0x3000 j = some (viewReg 0x3000 4 4 0xFFFF_FFF8) := by
    simp only [regRow]
    rw [if_neg (by omega), if_neg (by omega), if_neg (by omega)]
    decide
  exact Option.some.inj (h.symm.trans e)

/-- The word of CREW.MBX_CTRL's PV bits lies just below MBX_STATUS. -/
theorem mbxCtrl_addr (c : Nat) : (Block.crew c).base + 0x3000 = mbxStatus c - 4 := by simp only [mbxStatus]; omega

theorem pv_of_mbxCtrl : ∀ n, n < 8 → (0 ^^^ n) &&& 0xFFFF_FFF8 = 0 := by decide
theorem notify_of_mbxCtrl : ∀ old n, n < 8 → bitOf (merged (b2n old * 4) n 4) 2 = bitOf n 2 := by decide

/-- A write of CREW.MBX_CTRL that keeps its PV bits takes notify, and with go set gives the command. -/
theorem writeReg_mbxCtrl {acc : Acc} {r : Reg} {n : Nat} (eb : r.block = .crew c) (eo : r.off = 0x3000) (er : r.range = 0)
    (hrow : r.row = viewReg 0x3000 4 4 0xFFFF_FFF8) (hn : n < 8) (hreg : u.reg (mbxStatus c - 4) 0 = 0) (hgo : n % 2 = 1) :
    u.writeReg acc r n = (u.modCrew c (fun k => { k with mbxNotify := bitOf n 2 })).mbxGo c := by
  have hkey : u.regKey r = mbxStatus c - 4 := by
    rw [← mbxCtrl_addr c, State.regKey, if_neg (by simp [eb]), Reg.addr, eb, eo]
  have hpv : u.pvCheck acc r n = u := by
    have hd : (u.reg (u.regKey r) (if r.row.kind = .plain then r.row.reset else 0) ^^^ n) &&& r.row.pv = 0 := by
      rw [hkey, hrow, if_neg (by simp [viewReg]), hreg]
      exact pv_of_mbxCtrl n hn
    rw [State.pvCheck, if_pos (.inr hd)]
  have hnotify : bitOf (r.next (b2n (u.crew c).mbxNotify * 4) n) 2 = bitOf n 2 := by
    rw [Reg.next, if_pos er, hrow]
    exact notify_of_mbxCtrl _ n hn
  have hbit : bitOf n 0 = true := by simp [bitOf, hgo]
  have hmanaged : u.managedReg acc r = false := by simp [State.managedReg, eb]
  have hkind : r.row.kind = .view := by rw [hrow]; rfl
  simp [State.writeReg, hpv, er, hmanaged, hkind, State.viewWrite, eb, hnotify, hbit]

theorem exec_mbxGo {v : Word} (h : lands (s.tick dt) (pageAcc c 0x3000) (.crew c) 0x3000 = true) (hv : v.toNat < 8)
    (hreg : (s.tick dt).reg (mbxStatus c - 4) 0 = 0) (hgo : v.toNat % 2 = 1) :
    exec (.mbxGo dt c v) s = .next (((s.tick dt).modCrew c (fun k => { k with mbxNotify := bitOf v.toNat 2 })).mbxGo c) := by
  obtain ⟨r, hr, eb, eo, er, hopen, -, -⟩ := lands_reg h
  obtain ⟨j, hj⟩ := row_of_regOf hr (by simp [eb])
  rw [eb, eo] at hj
  have hrow := row_of_mbxCtrl hj
  show execMbxGo dt c v s = _
  rw [execMbxGo, happen_of_ready hopen, writeAccess_lands h hr (by simp) (by simp [hrow, viewReg]) (by simp [hrow, viewReg]),
    writeReg_mbxCtrl eb eo er hrow hv hreg hgo]

/-! ### The mailbox's requests and responses (02 R45) -/

theorem mbxGo_busy (h : (u.crew c).mbxBusy = true) : u.mbxGo c = u.raise (mbxStatus c) [2] := by
  rw [State.mbxGo, if_pos h]

theorem mbxGo_parsed {es : List (Nat × Req)} (hb : (u.crew c).mbxBusy = false) (hp : parseDatagram (u.crew c).request = some es) :
    u.mbxGo c = (u.asked c).mbxServe c es := by
  simp only [State.mbxGo, hb, hp, Bool.false_eq_true, if_false, State.asked]

/-- The node and the sequence that a request buffer names where its request cannot be read. -/
def unreadable (bs : List Byte) : Req :=
  { node := leNat ((bs.drop 3).take 1), tag := leNat ((bs.drop 4).take 2), index := 0, sub := 0, dir := false, offset := 0, length := 0, data := [] }

/-- The datagram that refuses a request whole. -/
def refusalDatagram (q : Req) : List Byte := buildDatagram q.node q.tag [(q, .abort .protocol)]

/-- A request that cannot be read is answered with one PROTOCOL. -/
theorem mbxGo_malformed (hb : (u.crew c).mbxBusy = false) (hp : parseDatagram (u.crew c).request = none) :
    u.mbxGo c = ((u.asked c).endAttempt c).modCrew c (fun k => { k with mbxReply := refusalDatagram (unreadable (u.crew c).request) }) := by
  simp only [State.mbxGo, hb, hp, Bool.false_eq_true, if_false, State.asked, refusalDatagram, unreadable]

theorem exec_mbxDone (h : (s.tick dt).mbxReady c = true) : exec (.mbxDone dt c) s = .next ((s.tick dt).mbxFinish c) := by
  show execMbxDone dt c s = _
  rw [execMbxDone, happen_of_ready h]

/-! ### The re-synchronisation request (02 R48) -/

theorem exec_resyncRequest {token : Nat} (hp : (s.tick dt).planned = true) (hc : c < 512) (he : (s.tick dt).crewEnabled c = true) :
    exec (.resyncRequest dt c token) s = .next ((s.tick dt).capture c (token % 2 ^ 32)) := by
  have hready : ((s.tick dt).planned && (s.tick dt).coxUp && decide (c < 512) && (s.tick dt).crewEnabled c) = true := by
    simp [hp, planned_coxUp hp, hc, he]
  show execResyncRequest dt c token s = _
  rw [execResyncRequest, happen_of_ready hready]

/-- Settles O19: each clause is one command, the landing write of its register where it has one, and the equation of the operation that it reaches. That
the entries are carried out at go and published at MBX_DONE, the single PROTOCOL for a request that cannot be read (notes/assumptions/85) and the
datagrams dropped for their count or size (101) are the model's choices. -/
theorem datagramsAndMailbox : Obligations.DatagramsAndMailbox := by
  unfold Obligations.DatagramsAndMailbox
  intro dt crew s u
  refine ⟨fun k ip port payload hk hc => ⟨fun h => ?malformed, fun es h => ?parsed⟩, fun offset v ho h4 h => ?word, ?go, ?done,
    fun token hp hc he => ?resync⟩
  case malformed => rw [exec_udpDatagram hc hk, udpTake_malformed h]
  case parsed => rw [exec_udpDatagram hc hk, udpTake_parsed h]
  case word => rw [exec_mbxRequestBufferWrite ho h4 h, State.mbxWrite]
  case go =>
    intro v h hv hreg hgo w b x q
    have hcrew : w.crew crew = { u.crew crew with mbxNotify := bitOf v.toNat 2 } := by rw [State.crew_modCrew, if_pos rfl]
    have hreq : (w.crew crew).request = (u.crew crew).request := by rw [hcrew]; rfl
    have hbusy : (w.crew crew).mbxBusy = (u.crew crew).mbxBusy := by rw [hcrew]
    rw [exec_mbxGo h hv hreg hgo]
    refine ⟨fun hb => ?_, fun hb es hp => ?_, fun hb hp => ?_⟩
    · rw [mbxGo_busy (hbusy.trans hb)]
    · rw [mbxGo_parsed (hbusy.trans hb) ((congrArg parseDatagram hreq).trans hp)]
      rfl
    · rw [mbxGo_malformed (hbusy.trans hb) ((congrArg parseDatagram hreq).trans hp), hreq]
      rfl
  case done =>
    intro hc hb hr hn v
    rw [exec_mbxDone (mbxReady_of_reply hc hb hr), mbxFinish_of_no_restore hn]
    rfl
  case resync =>
    rw [exec_resyncRequest hp hc he]
    rfl

end Sys2Proof.Machine
end

section
/-! SUPPORT and CERTIFICATES of function-level resets (02 R23, R24), of the cascade's messages (16) and of the network's replies (02 R36). -/

namespace Sys2Proof.Machine

open Sys2Proof

variable {s u : State} {dt c n : Nat}

/-! ### Function-level resets (02 R23, R24, 11 R289) -/

theorem num_setNum_same (u : State) (i j v : Nat) : (u.setNum i j v).num i j = v := by
  have h : (u.setNum i j v).obj i j = .num v := by
    rw [State.obj, State.setNum_objs, tabGet_tabSet, if_pos rfl]
  rw [State.num, h]
  rfl

theorem crewEnabled_setNum (u : State) (c : Nat) : (u.setNum (crewIx c 0) 1 1).crewEnabled c = true :=
  decide_eq_true (num_setNum_same u (crewIx c 0) 1 1)

theorem exec_functionLevelReset {port fn : Nat} (hp : port < 4) (hf : fn < 128) (ho : (s.tick dt).busOpen (port * 128 + fn) = true) :
    exec (.functionLevelReset dt port fn) s = .next ((s.tick dt).functionReset (port * 128 + fn)) := by
  have hready : (decide (port < 4) && decide (fn < 128) && (s.tick dt).busOpen (port * 128 + fn)) = true := by simp [hp, hf, ho]
  show execFunctionLevelReset dt port fn s = _
  rw [execFunctionLevelReset, happen_of_ready hready]

/-- A manager crew is enabled again at once. -/
theorem functionReset_manager (h : c % 128 = 0) : u.functionReset c = (u.disableCrew c).setNum (crewIx c 0) 1 1 := by
  rw [State.functionReset, if_pos h]

theorem functionReset_enabled (h : c % 128 ≠ 0) (he : u.crewEnabled c = true) : u.functionReset c = u.disableCrew c := by
  rw [State.functionReset, if_neg h, if_pos he]

theorem functionReset_disabled (h : c % 128 ≠ 0) (he : u.crewEnabled c = false) : u.functionReset c = u := by
  rw [State.functionReset, if_neg h, if_neg (by simp [he])]

/-- A disabled crew's steps in the order of 02 R23, a state for each: its blit is written, its queues are flushed, its commits are discarded, and its
layers, its backing and its channels go. -/
theorem disableCrew_steps (u : State) (c : Nat) : u.disableCrew c =
    (let off := u.setNum (crewIx c 0) 1 0
     let written := off.blitWrite c (((off.blitOf c).map (fun r => r.left.length)).getD 0)
     let flushed := (written.flushCq c).modCrew c (fun k =>
       { k with eq := [], accepting := [], holding := match k.holding with | .commit _ => .idle | h => h })
     let discarded := (flushed.commits.filter (fun k => decide (k.crew = c))).foldl State.discardCommit flushed
     let left := (discarded.modCrew c (fun k => { k with staged := [], confirm := none })).leaveLayers c
     (off.channelsOf c).foldl State.moverAbort (left.dropBacking c)) := rfl

/-- Settles O20: the reset is `functionReset`, whose disabling of the crew is the steps of 02 R23. That the blit is written first is the model's choice
(notes/assumptions/69), as is that the requests under check are dropped (70). -/
theorem functionLevelResets : Obligations.FunctionLevelResets := by
  unfold Obligations.FunctionLevelResets
  intro dt port fn s hport hfn ho c u off written flushed discarded left disabled
  have hdis : u.disableCrew c = disabled := disableCrew_steps u c
  have hmod : c % 128 = fn := by simp only [c]; omega
  rw [exec_functionLevelReset hport hfn ho]
  refine ⟨fun h0 => ⟨?manager, crewEnabled_setNum _ _⟩, fun h0 he => ?enabled, fun h0 he => ?disabled⟩
  case manager => rw [functionReset_manager (hmod.trans h0), hdis]
  case enabled => rw [functionReset_enabled (hmod ▸ h0) he, hdis]
  case disabled => rw [functionReset_disabled (hmod ▸ h0) he]

/-! ### Frame-start markers (16 R417, R420) -/

/-- The running lanes of the cascade group. -/
def State.cascadeLanes (u : State) : List Nat := (List.range 8).filter u.cascadeLane

/-- A marker that repeats a catch. -/
def State.caughtMarker (u v : State) : State := v.modCascade (fun x => { x with markerAt := some u.now, catchAt := some u.now })

theorem takeMarker_catch (u : State) : u.takeMarker true = u.caughtMarker u.catchLinked := rfl

/-- A catch that cannot apply, or is not the group's first, takes no commit. -/
theorem catchLinked_of_not_first (h : u.applies = false ∨ ∃ n ∈ u.cascadeLanes, u.groupCatch n = false) : u.catchLinked = u := by
  have hb : (!u.applies || !u.cascadeLanes.all (fun n => u.groupCatch n)) = true := by
    rcases h with h | ⟨n, hn, hg⟩
    · simp [h]
    · simpa using Or.inr ⟨n, hn, hg⟩
  exact if_pos hb

/-- The group's first catch: expired linked commits go, unmet ones are deferred, eligible ones are applied, and the group's instant is recorded. -/
theorem catchLinked_first (ha : u.applies = true) (hg : ∀ n ∈ u.cascadeLanes, u.groupCatch n = true) : u.catchLinked =
    (let here := u.commits.filter (fun k => k.linked && (lanesIn k.lanes).all u.cascadeLanes.contains)
     let late := (here.filter (fun k => !k.eligible && u.fenceExpired (((lanesIn k.lanes).head?).getD 0) k)).foldl
       (fun t k => t.expire (((lanesIn k.lanes).head?).getD 0) k) u
     let put := { late with commits := late.commits.map (fun k =>
       if here.any (fun x => decide (x.seq = k.seq)) && !k.eligible then { k with deferred := true } else k) }
     u.cascadeLanes.foldl (fun t n => t.modLane n (fun l => { l with groupAt := some u.now }))
       ((here.filter (fun k => k.eligible)).foldl State.applyCommit put)) := by
  have hb : ¬ (!u.applies || !u.cascadeLanes.all (fun n => u.groupCatch n)) = true := by simp [ha, List.all_eq_true.2 hg]
  exact if_neg hb

theorem exec_frameStartMarker {b : Bool} (h : (s.tick dt).masterHere = true) :
    exec (.frameStartMarker dt b) s = .next ((s.tick dt).takeMarker b) :=
  happen_of_ready (ready := State.masterHere) (eff := fun t => t.takeMarker b) h

theorem exec_leavingMarker (h : (s.tick dt).masterHere = true) : exec (.leavingMarker dt) s = .next (s.tick dt).loseMaster :=
  happen_of_ready (ready := State.masterHere) (eff := State.loseMaster) h

theorem exec_masterKeepaliveTimeout (h : (s.tick dt).masterHere = true) : exec (.masterKeepaliveTimeout dt) s = .next (s.tick dt).loseMaster :=
  happen_of_ready (ready := State.masterHere) (eff := State.loseMaster) h

theorem exec_markerLate (hn : n < 8) (hs : (s.tick dt).subordinate = true) (hl : (s.tick dt).cascadeLane n = true) :
    exec (.markerLate dt n) s = .next ((s.tick dt).lateMarker n) := by
  have hready : (decide (n < 8) && (s.tick dt).subordinate && (s.tick dt).cascadeLane n) = true := by rw [hs, hl, decide_eq_true hn]; rfl
  show execMarkerLate dt n s = _
  rw [execMarkerLate, happen_of_ready hready]

/-! ### The master's return, summaries, events and spans (16 R422, R423, R425) -/

theorem masterGone_lost (h : u.masterGone = true) : u.cascade.masterLost = true := by
  simp only [State.masterGone, Bool.and_eq_true] at h
  exact h.1.2

/-- A master that is back gives the cascade reference back. -/
theorem masterBack_of_lost (h : u.cascade.masterLost = true) :
    u.masterBack = (((u.modCascade (fun x => { x with masterLost := false })).lineOff 56).raise slkStatus [7]).takeCascadeRef := by
  rw [State.masterBack, State.masterReturns, if_pos h]

theorem exec_masterBack (h : (s.tick dt).masterGone = true) : exec (.masterBack dt) s = .next (s.tick dt).masterBack :=
  happen_of_ready (ready := State.masterGone) (eff := State.masterBack) h

section Summary

variable {m links w : Nat} {low : Bool}

/-- A node's record as its summary gives it. -/
def State.recorded (u : State) (n m : Nat) (low : Bool) (links w : Nat) : State :=
  u.modNode n (fun y => { y with mode := m, nfaultLow := low, links := links, umpire := w, reachable := true, updatedAt := u.uptime })

/-- The summary brings nothing that the manager crews are told. -/
def Node.toldNothing (x : Node) (m w : Nat) : Prop := x.reachable = true ∧ x.mode = m ∧ x.umpire = w

/-- A summary that tells of a node's reach, mode or umpire word. -/
theorem takeSummary_told (h : (u.node n).reachable = false ∨ (u.node n).mode ≠ m ∨ (u.node n).umpire ≠ w) :
    u.takeSummary n m low links w = (u.recorded n m low links w).nodeChanged n true := by
  simp only [State.takeSummary, decide_eq_true h, Bool.true_or, if_true]
  rfl

/-- A summary that changes only what the manager crews are not told. -/
theorem takeSummary_untold (h : (u.node n).toldNothing m w) (hc : (u.node n).nfaultLow ≠ low ∨ (u.node n).links ≠ links) :
    u.takeSummary n m low links w = (u.recorded n m low links w).nodeChanged n false := by
  obtain ⟨hr, hm, hw⟩ := h
  have htold : decide ((u.node n).reachable = false ∨ (u.node n).mode ≠ m ∨ (u.node n).umpire ≠ w) = false := by simp [hr, hm, hw]
  simp only [State.takeSummary, htold, decide_eq_true hc, Bool.or_true, if_true]
  rfl

/-- A summary that changes nothing only brings the record up to date. -/
theorem takeSummary_same (h : (u.node n).toldNothing m w) (hl : (u.node n).nfaultLow = low) (hk : (u.node n).links = links) :
    u.takeSummary n m low links w = u.recorded n m low links w := by
  obtain ⟨hr, hm, hw⟩ := h
  simp [State.takeSummary, State.recorded, hr, hm, hw, hl, hk]

theorem exec_nodeSummary (h : (s.tick dt).summaryReady n = true) :
    exec (.nodeSummary dt n m low links w) s = .next ((s.tick dt).takeSummary n m low links w) :=
  happen_of_ready (ready := fun t => t.summaryReady n) (eff := fun t => t.takeSummary n m low links w) h

end Summary

/-- SLK.EVENT_TX is a command register without PV bits. -/
theorem row_of_eventTx {j : Nat} {row : RegRow} (h : regRow .slk 0x40 j = some row) : row.kind = .command ∧ row.pv = 0 := by
  have e : regRow .slk 0x40 j = some (cmdReg 0x40 0) := rfl
  obtain rfl := Option.some.inj (e.symm.trans h)
  exact ⟨rfl, rfl⟩

theorem exec_eventTx {acc : Acc} {mask : Nat} (h : lands (s.tick dt) acc .slk 0x40 = true) (hm : mask < 16) :
    exec (.eventTx dt acc mask) s = .next ((s.tick dt).sendEvents mask) := by
  obtain ⟨hi, r, eb, -, -, hw⟩ := command_lands h (by simp) (by simp) (fun _ _ => row_of_eventTx) mask
  show execEventTx dt acc mask s = _
  rw [execEventTx, happen_of_ready hi, Nat.mod_eq_of_lt hm, hw]
  simp only [State.command, eb, Nat.mod_eq_of_lt hm]

theorem exec_spanResync {j : Nat} (h : (s.tick dt).spanCopyReady j = true) : exec (.spanResync dt j) s = .next ((s.tick dt).spanCopied j) :=
  happen_of_ready (ready := fun t => t.spanCopyReady j) (eff := fun t => t.spanCopied j) h

/-! ### The network (02 R36) -/

section Network

variable {k ip : Nat} {data : List Byte}

theorem netReady (hc : u.configured = true) (hk : k < 2) : (u.configured && decide (k < 2)) = true := by rw [hc, decide_eq_true hk]; rfl

theorem exec_arpRequest (hc : (s.tick dt).configured = true) (hk : k < 2) :
    exec (.arpRequest dt k ip) s = .next ((s.tick dt).send (.arpReply k ip)) :=
  happen_of_ready (ready := fun t => t.configured && decide (k < 2)) (eff := fun t => t.send (.arpReply k ip)) (netReady hc hk)

theorem exec_icmpEchoRequest (hc : (s.tick dt).configured = true) (hk : k < 2) :
    exec (.icmpEchoRequest dt k ip data) s = .next ((s.tick dt).send (.icmpReply k ip data)) :=
  happen_of_ready (ready := fun t => t.configured && decide (k < 2)) (eff := fun t => t.send (.icmpReply k ip data)) (netReady hc hk)

end Network

/-- Settles O57: each clause is one command, met in its place, and the equation of the operation that it carries out. That a linked commit's fence has the
time-out of its lowest lane (notes/assumptions/100), which nodes have a path (81) and that a marker carries the master's catch as its operand alone
(82) are the model's choices. -/
theorem cascadeMessages : Obligations.CascadeMessages := by
  unfold Obligations.CascadeMessages
  intro dt s u
  refine ⟨fun hm => ⟨exec_frameStartMarker hm, ?caught, ?lost⟩, fun n hn hs hl => exec_markerLate hn hs hl, fun h => ?back, ?summary,
    fun acc mask h hm => exec_eventTx h hm, fun j h => exec_spanResync h, fun hc k ip data hk => ⟨exec_arpRequest hc hk, exec_icmpEchoRequest hc hk⟩⟩
  case caught =>
    intro ms marked
    rw [exec_frameStartMarker hm, takeMarker_catch]
    refine ⟨fun h => ?_, ?_⟩
    · rw [catchLinked_of_not_first h]
      rfl
    · intro ha hg here late put
      rw [catchLinked_first ha hg]
      rfl
  case lost =>
    intro gone
    exact ⟨exec_leavingMarker hm, exec_masterKeepaliveTimeout hm⟩
  case back => rw [exec_masterBack h, masterBack_of_lost (masterGone_lost h)]
  case summary =>
    intro n m low links w h t
    rw [exec_nodeSummary h]
    refine ⟨fun hr hm hw hl hk => ?_, fun hr hm hw hc => ?_, fun hc => ?_⟩
    · rw [takeSummary_same ⟨hr, hm, hw⟩ hl hk]
      rfl
    · rw [takeSummary_untold ⟨hr, hm, hw⟩ hc]
      rfl
    · rw [takeSummary_told hc]
      rfl

end Sys2Proof.Machine
end

section
/-! SUPPORT and CERTIFICATES of register behaviour (03): status registers, plain and dual-key writes, latched reads and accesses that fail. -/

namespace Sys2Proof.Machine

open Sys2Proof

variable {s u : State} {dt : Nat} {acc : Acc} {r : Reg}

/-! ### Reset (03 R57, R69 to R71) -/

/-- Settles O7: every field of the reset state. The cause power_on and the domains of LAUNCH are the model's choice where the manual gives no reset
value (notes/assumptions/45). -/
theorem resetValues : Obligations.ResetValues := by
  unfold Obligations.ResetValues
  exact ⟨rfl, rfl, rfl, rfl, fun _ => rfl, fun _ => rfl, rfl, rfl, rfl, fun _ => rfl, rfl⟩

/-! ### Status registers (03 R57) -/

/-- Raising events of a status register changes that register alone. -/
theorem statusAt_raise (u : State) (a a' : Nat) (bs : List Nat) :
    (u.raise a bs).statusAt a' = if a = a' then (u.statusAt a').raised bs else u.statusAt a' :=
  State.statusAt_modStatus _ a a' _

theorem Status.find_raised (st : Status) (bs : List Nat) (b : Nat) :
    tabFind (st.raised bs).last b = if b ∈ bs then some (st.count + 1) else tabFind st.last b :=
  foldSet_find bs (st.count + 1) st.last b

theorem Status.keys_raised {st : Status} {bs : List Nat} (h : ∀ p ∈ st.last, p.1 < 24) (hb : ∀ b ∈ bs, b < 24) :
    ∀ p ∈ (st.raised bs).last, p.1 < 24 :=
  foldSet_keys bs (st.count + 1) st.last h hb

/-- The sequence lies above the event bits. -/
theorem Status.word_div {st : Status} (h : ∀ p ∈ st.last, p.1 < 24) : st.word / 2 ^ 24 = st.count % 256 := by
  have hlow := orBits_lt st.last 0 (by decide) h
  unfold Status.word
  omega

/-- A set event reads as 1. -/
theorem Status.testBit_word {st : Status} (h : ∀ p ∈ st.last, p.1 < 24) {b : Nat} (hb : b < 24) (hs : (tabFind st.last b).isSome = true) :
    st.word.testBit b = true := by
  have hlow := orBits_lt st.last 0 (by decide) h
  unfold Status.word
  rw [Nat.mul_comm, Nat.testBit_two_pow_mul_add _ hlow, if_pos hb]
  exact orBits_mem st.last b 0 hs

theorem Status.word_blank : blankStatus.word = 0 := by decide

/-- Settles O8: one raise is one step of its register's sequence, and each raised event is found at that step. -/
theorem statusSequenceAdvances : Obligations.StatusSequenceAdvances := by
  unfold Obligations.StatusSequenceAdvances
  refine ⟨?_, fun _ => Status.word_blank⟩
  intro s a bs hk hb t
  have hself : t.statusAt a = (s.statusAt a).raised bs := by rw [statusAt_raise, if_pos rfl]
  have hkeys : ∀ p ∈ (t.statusAt a).last, p.1 < 24 := hself ▸ Status.keys_raised hk hb
  have hcount : (t.statusAt a).count = (s.statusAt a).count + 1 := by rw [hself]; rfl
  have hfind : ∀ b, tabFind (t.statusAt a).last b = if b ∈ bs then some (t.statusAt a).count else tabFind (s.statusAt a).last b := by
    intro b
    rw [hcount, hself, Status.find_raised]
  refine ⟨?sequence, fun b h => ?raised, fun b h => ?kept, fun a' h => ?other⟩
  case sequence =>
    rw [Status.word_div hkeys, Status.word_div hk, hcount]
    omega
  case raised =>
    have hset := (hfind b).trans (if_pos h)
    exact ⟨Status.testBit_word hkeys (hb b h) (by rw [hset]; rfl), hset⟩
  case kept => rw [hfind, if_neg h]
  case other => rw [statusAt_raise, if_neg (Ne.symm h)]

/-! ### Accesses that complete at once (03 R55, R61, R67) -/

theorem reaches_iff : reaches u acc r = true ↔ u.accOpen acc = true ∧ u.regOf acc = some r ∧ tabFind u.keys (pageOf acc) = none ∧
    r.domain.all u.domainOn = true ∧ r.writable = true := by
  simp only [reaches, Bool.and_eq_true, decide_eq_true_eq, Option.isNone_iff_eq_none, and_assoc]

theorem isKind_of_regOf {k : RegKind} (ho : u.accOpen acc = true) (hr : u.regOf acc = some r) (hk : r.row.kind = k) (h0 : r.range = 0) :
    u.isKind acc k = true := by
  simp [State.isKind, ho, hr, hk, h0]

theorem isRange_of_regOf {n : Nat} (ho : u.accOpen acc = true) (hr : u.regOf acc = some r) (hn : r.range = n) : u.isRange acc n = true := by
  simp [State.isRange, ho, hr, hn]

theorem isReg_of_lands {b : Block} {off : Nat} (h : lands u acc b off = true) : u.isReg acc b off = true := by
  simp only [lands, Bool.and_eq_true] at h
  exact h.1.1

/-! ### Write-backs of status registers (03 R58, 10 R265) -/

/-- The sequence value of a write-back. -/
theorem bits_sequence (v : Word) : bits v.toNat 31 24 = v.toNat / 2 ^ 24 := by
  have hv := v.isLt
  simp only [bits, Nat.shiftRight_eq_div_pow]
  omega

/-- A status register takes a write-back, but a managed channel's only from the cox; its PV bits are not compared. -/
theorem writeReg_status (hk : r.row.kind = .status) (h0 : r.range = 0) (v : Nat) :
    u.writeReg acc r v = if u.managedReg acc r = true then u.chRefuse r.channel else u.writeBack acc r v := by
  have hpv : u.pvCheck acc r v = u := by rw [State.pvCheck, if_pos (.inl hk)]
  simp [State.writeReg, h0, hk, hpv]

theorem writeBack_valid {v : Nat} (h : (u.statusAt r.addr).valid (bits v 31 24) = true) :
    u.writeBack acc r v = u.modStatus r.addr (fun st => st.cleared (bits v 31 24)) := if_pos h

theorem writeBack_invalid {v : Nat} (h : (u.statusAt r.addr).valid (bits v 31 24) = false) : u.writeBack acc r v =
    ((u.modAccess (fun x => { x with seqRejectAddr := acc.addr % 2 ^ 32 })).count 0x20 1).raise sysStatus [6] :=
  if_neg (by rw [h]; exact Bool.false_ne_true)

theorem exec_statusWriteBack {v : Word} (h : reaches (s.tick dt) acc r = true) (hk : r.row.kind = .status) (h0 : r.range = 0) :
    exec (.statusWriteBack dt acc v) s = .next (if (s.tick dt).managedReg acc r = true then (s.tick dt).chRefuse r.channel
      else (s.tick dt).writeBack acc r v.toNat) := by
  obtain ⟨ho, hr, -, -, -⟩ := reaches_iff.1 h
  show execStatusWriteBack dt acc v s = _
  rw [execStatusWriteBack, happen_of_ready (isKind_of_regOf ho hr hk h0),
    writeAccess_reaches h (by simp [hk]) (by simp [hk]), writeReg_status hk h0]

/-- Settles O9: a write-back is valid where its sequence value is at most 127 steps old, and clears the events that many steps old. -/
theorem statusWriteBacks : Obligations.StatusWriteBacks := by
  unfold Obligations.StatusWriteBacks
  intro dt acc v s r h hk h0 u d
  have hseq := bits_sequence v
  refine ⟨fun hm => ⟨fun hd => ?valid, fun hd => ?invalid⟩, fun hm => ?managed⟩
  case valid =>
    have hv : (u.statusAt r.addr).valid (bits v.toNat 31 24) = true := by rw [hseq]; exact decide_eq_true hd
    rw [exec_statusWriteBack h hk h0, if_neg (by rw [hm]; exact Bool.false_ne_true), writeBack_valid hv, hseq]
    rfl
  case invalid =>
    have hv : (u.statusAt r.addr).valid (bits v.toNat 31 24) = false := by rw [hseq]; exact decide_eq_false (Nat.not_lt.2 hd)
    rw [exec_statusWriteBack h hk h0, if_neg (by rw [hm]; exact Bool.false_ne_true), writeBack_invalid hv]
    rfl
  case managed =>
    rw [exec_statusWriteBack h hk h0, if_pos hm]
    rfl

/-! ### Plain registers (03 R55, R56, R64) -/

/-- Blocks whose plain registers only store their words (03 R69 to R71, 08 R228, 11 R317). -/
def Block.storesOnly (b : Block) : Prop := b = .sys ∨ b = .clk ∨ b = .counts ∨ ∃ p, b = .host p

theorem regKey_of_storesOnly (hb : r.block.storesOnly) : u.regKey r = r.addr := by
  have hp : r.block ≠ .photo := by rcases hb with h | h | h | ⟨p, h⟩ <;> simp [h]
  rw [State.regKey, if_neg (fun h => hp h.1)]

theorem plainWrite_of_storesOnly (hb : r.block.storesOnly) (v : Nat) :
    u.plainWrite r v = u.setReg r.addr (r.next (u.reg r.addr r.row.reset) v) := by
  unfold State.plainWrite
  rw [regKey_of_storesOnly hb]
  rcases hb with h | h | h | ⟨p, h⟩ <;> rw [h]

theorem managedReg_of_storesOnly (hb : r.block.storesOnly) : u.managedReg acc r = false := by
  have hm : r.block ≠ .move := by rcases hb with h | h | h | ⟨p, h⟩ <;> simp [h]
  simp [State.managedReg, hm]

/-- A write that keeps the PV bits passes their check (03 R64). -/
theorem pvCheck_of_kept {v : Nat} (hk : r.row.kind = .plain) (hb : r.block.storesOnly) (hpv : (u.reg r.addr r.row.reset ^^^ v) &&& r.row.pv = 0) :
    u.pvCheck acc r v = u := by
  have hd : (u.reg (u.regKey r) (if r.row.kind = .plain then r.row.reset else 0) ^^^ v) &&& r.row.pv = 0 := by
    rwa [if_pos hk, regKey_of_storesOnly hb]
  rw [State.pvCheck, if_pos (.inr hd)]

/-- A plain register written at its own address. -/
theorem writeReg_plain {v : Nat} (hk : r.row.kind = .plain) (hb : r.block.storesOnly) (h0 : r.range = 0)
    (hpv : (u.reg r.addr r.row.reset ^^^ v) &&& r.row.pv = 0) :
    u.writeReg acc r v = u.setReg r.addr (merged (u.reg r.addr r.row.reset) v r.row.rw) := by
  have hn : r.next (u.reg r.addr r.row.reset) v = merged (u.reg r.addr r.row.reset) v r.row.rw := if_pos h0
  simp [State.writeReg, h0, hk, pvCheck_of_kept hk hb hpv, managedReg_of_storesOnly hb, plainWrite_of_storesOnly hb, hn]

/-- A plain register written at its set, clear or toggle address with an AL bit written as 1 (03 R56). -/
theorem writeReg_aliased {v : Nat} (hk : r.row.kind = .plain) (hb : r.block.storesOnly) (h0 : r.range ≠ 0) (hal : v &&& r.row.al ≠ 0) :
    u.writeReg acc r v = u.setReg r.addr (aliased r.range (u.reg r.addr r.row.reset) v r.row.al) := by
  have hn : r.next (u.reg r.addr r.row.reset) v = aliased r.range (u.reg r.addr r.row.reset) v r.row.al := if_neg h0
  simp [State.writeReg, h0, hal, hk, managedReg_of_storesOnly hb, plainWrite_of_storesOnly hb, hn]

/-- Such a write that names no AL bit acts on nothing. -/
theorem writeReg_aliased_none {v : Nat} (h0 : r.range ≠ 0) (hal : v &&& r.row.al = 0) : u.writeReg acc r v = u := by
  simp [State.writeReg, h0, hal]

theorem exec_registerWrite {v : Word} (ho : (s.tick dt).accOpen acc = true) (w : Option Word) :
    exec (.registerWrite dt acc ⟨v, w⟩) s = .next ((s.tick dt).writeWide acc v.toNat (w.map BitVec.toNat)) :=
  happen_of_ready (ready := fun t => t.accOpen acc) (eff := fun t => t.writeWide acc v.toNat (w.map BitVec.toNat)) ho

theorem exec_setAliasWrite {v : Word} (h : (s.tick dt).isRange acc 1 = true) :
    exec (.setAliasWrite dt acc v) s = .next ((s.tick dt).writeAccess acc v.toNat) :=
  happen_of_ready (ready := fun t => t.isRange acc 1) (eff := fun t => t.writeAccess acc v.toNat) h

theorem exec_clearAliasWrite {v : Word} (h : (s.tick dt).isRange acc 2 = true) :
    exec (.clearAliasWrite dt acc v) s = .next ((s.tick dt).writeAccess acc v.toNat) :=
  happen_of_ready (ready := fun t => t.isRange acc 2) (eff := fun t => t.writeAccess acc v.toNat) h

theorem exec_toggleAliasWrite {v : Word} (h : (s.tick dt).isRange acc 3 = true) :
    exec (.toggleAliasWrite dt acc v) s = .next ((s.tick dt).writeAccess acc v.toNat) :=
  happen_of_ready (ready := fun t => t.isRange acc 3) (eff := fun t => t.writeAccess acc v.toNat) h

/-- An 8-byte write of a pair is its two 32-bit writes (03 R55). -/
theorem writeWide_pair {v w : Nat} (hp : u.isPair acc 8 = true) (ho : (u.writeAccess acc v).accOpen (secondAcc acc) = true) :
    u.writeWide acc v (some w) = (u.writeAccess acc v).writeAccess (secondAcc acc) w := by
  simp only [State.writeWide, hp, ho, if_true]

/-- Settles O10: at its own address the register takes `merged`, at its other addresses `aliased`, and no other state is named. -/
theorem plainRegisterWrites : Obligations.PlainRegisterWrites := by
  unfold Obligations.PlainRegisterWrites
  intro dt acc v s u
  refine ⟨?_, fun w ho hp h2 => (exec_registerWrite ho (some w)).trans (congrArg _ (writeWide_pair hp h2))⟩
  intro r h hk hb old al
  obtain ⟨ho, hr, -, -, -⟩ := reaches_iff.1 h
  have hw : u.writeAccess acc v.toNat = u.writeReg acc r v.toNat := writeAccess_reaches h (by simp [hk]) (by simp [hk]) _
  have hrange {n : Nat} (hn : r.range = n) : u.isRange acc n = true := isRange_of_regOf ho hr hn
  refine ⟨fun h0 hpv => ?own, fun h1 ha => ?set, fun h2 ha => ?clear, fun h3 ha => ?toggle, fun ha => ⟨fun h1 => ?setNone, fun h2 => ?clearNone, fun h3 => ?toggleNone⟩⟩
  case own =>
    rw [exec_registerWrite ho]
    exact congrArg _ (hw.trans (writeReg_plain hk hb h0 hpv))
  case set =>
    rw [exec_setAliasWrite (hrange h1), hw, writeReg_aliased hk hb (by omega) ha, h1]
    rfl
  case clear =>
    rw [exec_clearAliasWrite (hrange h2), hw, writeReg_aliased hk hb (by omega) ha, h2]
    rfl
  case toggle =>
    rw [exec_toggleAliasWrite (hrange h3), hw, writeReg_aliased hk hb (by omega) ha, h3]
    rfl
  case setNone => rw [exec_setAliasWrite (hrange h1), hw, writeReg_aliased_none (by omega) ha]
  case clearNone => rw [exec_clearAliasWrite (hrange h2), hw, writeReg_aliased_none (by omega) ha]
  case toggleNone => rw [exec_toggleAliasWrite (hrange h3), hw, writeReg_aliased_none (by omega) ha]

/-! ### Dual-key writes whose two stores follow one another (03 R60) -/

/-- Every row at an offset is a KEY_A. -/
theorem keyA_of_findRow {rows : List RegRow} {o : Nat} (h : (findRow rows o).all (fun x => decide (x.kind = .keyA)) = true) {row : RegRow}
    (hr : findRow rows o = some row) : row.kind = .keyA := by
  simpa [hr] using h

/-- The two stores of a dual-key register, as one command, bring its value into effect. -/
theorem happen_dualKey {b : Block} {off : Nat} {v : Word} {t : State} (h : lands (s.tick dt) acc b off = true) (hs : b ≠ .smu) (hm : b ≠ .move)
    (hc : ∀ j row, regRow b off j = some row → row.kind = .keyA)
    (ht : ∀ r : Reg, r.block = b → r.off = off → (s.tick dt).keyEffect r v.toNat = t) :
    happen dt (fun w => w.isReg acc b off) (fun w => w.dualKey acc v.toNat) s = .next t := by
  obtain ⟨r, hr, eb, eo, hk, hi⟩ := keyA_of_lands h hm hc
  rw [happen_of_ready hi, dualKey_lands h hr hs hk, ht r eb eo]

theorem exec_modeRequest {v : Word} (h : lands (s.tick dt) acc .sys 0x10 = true) :
    exec (.modeRequest dt acc v) s = .next ((s.tick dt).registerMode v.toNat) :=
  happen_dualKey h (by simp) (by simp) (fun _ _ e => keyA_of_findRow (rows := sysRows) (by decide) e)
    (fun r eb _ => by simp only [State.keyEffect, eb])

theorem exec_sleepRequest {v : Word} (h : lands (s.tick dt) acc .power 0x38 = true) :
    exec (.sleepRequest dt acc v) s = .next (((s.tick dt).setReg 0x1_0038 v.toNat).sleepRequest v.toNat) :=
  happen_dualKey h (by simp) (by simp) (fun _ _ e => keyA_of_findRow (rows := powerRows) (by decide) e)
    (fun r eb eo => by simp only [State.keyEffect, eb, eo, Reg.addr, Block.base])

theorem row_of_class : ∀ k, k < 8 → (findRow umpireRows (0x80 + 8 * k)).all (fun x => decide (x.kind = .keyA)) = true := by decide

theorem exec_umpireClassWrite {v : Word} {k : Nat} (hk : k < 8) (h : lands (s.tick dt) acc .umpire (0x80 + 8 * k) = true) :
    exec (.umpireClassWrite dt acc k v) s = .next ((s.tick dt).writeClass k v.toNat) := by
  have hready (w : State) : (decide (k < 8) && w.isReg acc .umpire (0x80 + 8 * k)) = w.isReg acc .umpire (0x80 + 8 * k) := by simp [hk]
  show execUmpireClassWrite dt acc k v s = _
  simp only [execUmpireClassWrite, hready]
  refine happen_dualKey h (by simp) (by simp) (fun _ _ e => keyA_of_findRow (rows := umpireRows) (row_of_class k hk) e) (fun r eb eo => ?_)
  have hc3 : ¬ 0x80 + 8 * k = 0x220 := by omega
  have hplace : (0x80 + 8 * k - 0x80) / 8 = k := by omega
  simp only [State.keyEffect, eb, eo, if_neg hc3, hplace]

theorem exec_c3Ack {v : Word} (h : lands (s.tick dt) acc .umpire 0x220 = true) :
    exec (.c3Ack dt acc v) s = .next (((s.tick dt).setReg 0x60_0220 v.toNat).ackC3 v.toNat) :=
  happen_dualKey h (by simp) (by simp) (fun _ _ e => keyA_of_findRow (rows := umpireRows) (by decide) e)
    (fun r eb eo => by simp only [State.keyEffect, eb, eo, Reg.addr, Block.base, if_true])

theorem exec_revoke {v : Word} (h : lands (s.tick dt) acc .sec 0x18 = true) :
    exec (.revoke dt acc v) s = .next (((s.tick dt).setReg 0x80_0018 v.toNat).revokeSlot v.toNat) :=
  happen_dualKey h (by simp) (by simp) (fun _ _ e => keyA_of_findRow (rows := secRows) (by decide) e)
    (fun r eb eo => by simp [State.keyEffect, eb, eo, Reg.addr, Block.base])

theorem exec_alarmPolicyWrite {v : Word} (h : lands (s.tick dt) acc .sec 0x10 = true) :
    exec (.alarmPolicyWrite dt acc v) s = .next ((s.tick dt).writePolicy v.toNat) :=
  happen_dualKey h (by simp) (by simp) (fun _ _ e => keyA_of_findRow (rows := secRows) (by decide) e)
    (fun r eb eo => by simp [State.keyEffect, eb, eo])

/-! ### Mode requests (15 R394, 14 R386) -/

section ModeRequests

variable {n : Nat}

/-- Nothing but the mode bars the request: it names a mode, no sleep is under way, and RUN has its keys. -/
def State.admitsMode (u : State) (n : Nat) : Prop :=
  (n = 2 ∨ n = 3 ∨ n = 4) ∧ u.modes.sleeping = none ∧ (n ≠ 3 ∨ u.sec.keysErased = false)

theorem registerMode_of_abort {t : State} {a : Abort} (h : u.modeRequest n = (t, some a)) : u.registerMode n = u.raise sysStatus [1] := by
  rw [State.registerMode, h]

theorem registerMode_of_done {t : State} (h : u.modeRequest n = (t, none)) : u.registerMode n = t := by
  rw [State.registerMode, h]

theorem registerMode_no_mode (h : n ≠ 2 ∧ n ≠ 3 ∧ n ≠ 4) : u.registerMode n = u.raise sysStatus [1] :=
  registerMode_of_abort (if_pos h)

theorem registerMode_barred (h : u.modes.sleeping.isSome = true ∨ (n = 3 ∧ u.sec.keysErased = true)) : u.registerMode n = u.raise sysStatus [1] := by
  by_cases hn : n ≠ 2 ∧ n ≠ 3 ∧ n ≠ 4
  · exact registerMode_no_mode hn
  · exact registerMode_of_abort ((if_neg hn).trans (if_pos h))

/-- An admitted request passes the checks that do not look at the mode. -/
theorem not_barred_of_admits (h : u.admitsMode n) :
    ¬ (n ≠ 2 ∧ n ≠ 3 ∧ n ≠ 4) ∧ ¬ (u.modes.sleeping.isSome = true ∨ (n = 3 ∧ u.sec.keysErased = true)) := by
  obtain ⟨hn, hs, hk⟩ := h
  refine ⟨by omega, ?_⟩
  rintro (h | ⟨h3, he⟩)
  · simp [hs] at h
  · rcases hk with hk | hk
    · exact hk h3
    · simp [hk] at he

theorem registerMode_launch (ha : u.admitsMode n) (hm : u.modes.mode = .launch) :
    u.registerMode n = if u.modes.step = .hold then u.raise sysStatus [1] else if n = 2 then u else u.setTarget n := by
  obtain ⟨h1, h2⟩ := not_barred_of_admits ha
  by_cases hh : u.modes.step = .hold
  · rw [if_pos hh]
    exact registerMode_of_abort (t := u) (a := .wrongMode) (by simp only [State.modeRequest, if_neg h1, if_neg h2, hm, if_pos hh])
  · rw [if_neg hh]
    refine registerMode_of_done ?_
    simp only [State.modeRequest, if_neg h1, if_neg h2, hm, if_neg hh]
    split <;> rfl

theorem registerMode_run (ha : u.admitsMode n) (hm : u.modes.mode = .run) :
    u.registerMode n = if n = 2 then u.relaunch else if n = 4 then u.goLimp.setNum 0x2000 2 4 else u.setNum 0x2000 2 3 := by
  obtain ⟨h1, h2⟩ := not_barred_of_admits ha
  exact registerMode_of_done (by simp only [State.modeRequest, if_neg h1, if_neg h2, hm])

theorem registerMode_limp (ha : u.admitsMode n) (hm : u.modes.mode = .limp) :
    u.registerMode n = if n = 4 then u else if u.latchedAt 2 = true then u.raise sysStatus [1]
      else if n = 3 then u.relaunch.setTarget 3 else u.relaunch := by
  obtain ⟨h1, h2⟩ := not_barred_of_admits ha
  by_cases h4 : n = 4
  · rw [if_pos h4]
    exact registerMode_of_done (by simp only [State.modeRequest, if_neg h1, if_neg h2, hm, if_pos h4])
  · rw [if_neg h4]
    by_cases hl : u.latchedAt 2 = true
    · rw [if_pos hl]
      exact registerMode_of_abort (t := u) (a := .wrongMode) (by simp only [State.modeRequest, if_neg h1, if_neg h2, hm, if_neg h4, if_pos hl])
    · rw [if_neg hl]
      exact registerMode_of_done (by simp only [State.modeRequest, if_neg h1, if_neg h2, hm, if_neg h4, if_neg hl])

/-- In every other mode the request is refused. -/
theorem registerMode_elsewhere (ha : u.admitsMode n) (h1 : u.modes.mode ≠ .launch) (h2 : u.modes.mode ≠ .run) (h3 : u.modes.mode ≠ .limp) :
    u.registerMode n = u.raise sysStatus [1] := by
  obtain ⟨hn, hb⟩ := not_barred_of_admits ha
  refine registerMode_of_abort (t := u) (a := .wrongMode) ?_
  cases hm : u.modes.mode with
  | launch => exact absurd hm h1
  | run => exact absurd hm h2
  | limp => exact absurd hm h3
  | _ => simp only [State.modeRequest, if_neg hn, if_neg hb, hm]

end ModeRequests

/-! ### Classes, revocation and alarm policies (12 R334, 14 R378, R388) -/

/-- Another slot could boot: it is not revoked and its hash is programmed. -/
def State.otherSlot (u : State) (n : Nat) : Prop :=
  ∃ k, k < 4 ∧ k ≠ n ∧ u.sec.fuses.revoked.testBit k = false ∧ (tabFind u.sec.fuses.bootHashes k).isSome = true

theorem otherSlot_iff {n : Nat} : u.otherSlot n ↔
    (List.range 4).any (fun k => decide (k ≠ n) && !u.sec.fuses.revoked.testBit k && (tabFind u.sec.fuses.bootHashes k).isSome) = true := by
  simp [State.otherSlot, and_assoc]

theorem revokeSlot_locked {n : Nat} (h : u.sec.lock = true ∨ 4 ≤ n) : u.revokeSlot n = u := if_pos h

/-- A slot that runs, or beside which no other could boot, is kept. -/
theorem revokeSlot_last {n : Nat} (hl : u.sec.lock = false) (h4 : n < 4) (h : u.sec.runningSlot = n ∨ ¬ u.otherSlot n) :
    u.revokeSlot n = u.raise secStatus [4] := by
  rw [otherSlot_iff, Bool.not_eq_true] at h
  simp only [State.revokeSlot, Nat.mod_eq_of_lt h4, if_pos h]
  exact if_neg (by simp [hl, h4])

theorem revokeSlot_blows {n : Nat} (hl : u.sec.lock = false) (h4 : n < 4) (hr : u.sec.runningSlot ≠ n) (ho : u.otherSlot n) :
    u.revokeSlot n = u.modSec (fun c => { c with fuses := { c.fuses with revoked := c.fuses.revoked ||| 2 ^ n } }) := by
  have hfree : ¬ (u.sec.lock = true ∨ 4 ≤ n) := by simp [hl, h4]
  have hopen := not_or.2 ⟨hr, (Bool.not_eq_false _).mpr (otherSlot_iff.1 ho)⟩
  simp only [State.revokeSlot, Nat.mod_eq_of_lt h4, if_neg hfree, if_neg hopen]

theorem notWeaker_iff (old new : Nat) :
    notWeaker old new = true ↔ ∀ a, a < 7 → policyOf old a ≤ policyOf new a ∧ alarmClass old a ≤ alarmClass new a := by
  simp [notWeaker]

theorem writePolicy_eq {n : Nat} : u.writePolicy n =
    if n < 2 ^ 21 ∧ ∀ a, a < 7 → policyOf u.sec.policy a ≤ policyOf n a ∧ alarmClass u.sec.policy a ≤ alarmClass n a
    then u.modSec (fun c => { c with policy := n }) else u.raise secStatus [3] := by
  simp only [State.writePolicy, notWeaker_iff]

/-- Settles O11: each register's value, in the state that the two stores leave. The model's choices are that RUN is refused in every mode while the keys are
erased (notes/assumptions/78), that LOCK or a slot of 4 and above refuses a revocation silently (73), which wake sources count as active (76), and
that the two stores fall at one instant (46). -/
theorem dualKeyWritesTakeEffect : Obligations.DualKeyWritesTakeEffect := by
  unfold Obligations.DualKeyWritesTakeEffect
  intro dt acc v s u n
  refine ⟨fun h => ?mode, fun h => ?sleep, fun k hk h => ?classes, fun h => ?c3, fun h => ?revoke, fun h => ?policy⟩
  case mode =>
    rw [exec_modeRequest h]
    refine ⟨fun hn => congrArg _ (registerMode_no_mode hn), fun hb => congrArg _ (registerMode_barred hb), fun hn hs hk => ?_⟩
    have ha : u.admitsMode n := ⟨hn, hs, hk⟩
    refine ⟨fun hm hh => ?held, fun hm hh => ?launch, fun hm => congrArg _ (registerMode_run ha hm), fun hm h4 => ?limpStays,
      fun hm h4 hl => ?limpLatched, fun hm h4 hl => ?limpLeft, fun h1 h2 h3 => congrArg _ (registerMode_elsewhere ha h1 h2 h3)⟩
    case held => exact congrArg _ ((registerMode_launch ha hm).trans (if_pos hh))
    case launch => exact congrArg _ ((registerMode_launch ha hm).trans (if_neg hh))
    case limpStays => exact congrArg _ ((registerMode_limp ha hm).trans (if_pos h4))
    case limpLatched => exact congrArg _ ((registerMode_limp ha hm).trans ((if_neg h4).trans (if_pos hl)))
    case limpLeft =>
      have hl' : ¬ u.latchedAt 2 = true := by simp [hl]
      exact congrArg _ ((registerMode_limp ha hm).trans ((if_neg h4).trans (if_neg hl')))
  case sleep =>
    intro w may
    rw [exec_sleepRequest h]
    exact ⟨fun hm => congrArg _ (if_pos hm), fun hm => congrArg _ (if_neg hm)⟩
  case classes =>
    intro changed keeps t
    rw [exec_umpireClassWrite hk h]
    refine ⟨fun hf => congrArg _ (if_neg ?_), fun ⟨j, hj, hx⟩ => congrArg _ (if_pos (List.any_eq_true.2 ⟨j, hj, hx⟩))⟩
    rw [List.any_eq_true]
    rintro ⟨j, hj, hx⟩
    exact Bool.false_ne_true ((hf j hj).symm.trans hx)
  case c3 =>
    intro w
    rw [exec_c3Ack h]
    have hodd (h1 : n % 2 = 1) : ¬ n % 2 = 0 := by omega
    exact ⟨fun h0 => congrArg _ (if_pos h0), fun h1 hh => congrArg _ ((if_neg (hodd h1)).trans (if_pos hh)),
      fun h1 hh => congrArg _ ((if_neg (hodd h1)).trans (if_neg (not_not.2 hh)))⟩
  case revoke =>
    intro w other
    rw [exec_revoke h]
    exact ⟨fun hk => congrArg _ (revokeSlot_locked hk), fun hl h4 hr => congrArg _ (revokeSlot_last hl h4 hr),
      fun hl h4 hr ho => congrArg _ (revokeSlot_blows hl h4 hr ho)⟩
  case policy =>
    intro may
    rw [exec_alarmPolicyWrite h, writePolicy_eq]
    exact ⟨fun hm => congrArg _ (if_pos hm), fun hm => congrArg _ (if_neg hm)⟩

/-! ### Dual-key attempts (03 R60, R61) -/

section Attempts

variable {page : Nat} {k : KeyAttempt}

theorem expireKey_of_open (hf : tabFind u.keys page = some k) (ht : u.now ≤ k.openedAt + 320) : u.expireKey page = u := by
  have hn : ¬ k.openedAt + keyTime < u.now := Nat.not_lt.2 ht
  simp only [State.expireKey, hf, if_neg hn]

/-- An open attempt ends as its master's, at its KEY_A. -/
theorem disturb_of_open (hf : tabFind u.keys page = some k) (reason : Nat) :
    u.disturb page reason = ({ u with keys := tabErase u.keys page }).keyAbort page k.master k.crew k.addr reason := by
  simp only [State.disturb, hf]

theorem writeAccess_keyA (h : reaches u acc r = true) (hk : r.row.kind = .keyA) (h0 : r.range = 0) (v : Word) :
    u.writeAccess acc v.toNat = { u with keys := tabSet u.keys (pageOf acc) (KeyAttempt.mk acc.master acc.crew acc.addr v u.now) } := by
  obtain ⟨ho, hr, hn, hd, hw⟩ := reaches_iff.1 h
  simp [State.writeAccess, expireKey_none hn, hr, Option.filter, hw, reachable_on hd, wakeFor_on hd, hk, h0, State.keyA, disturb_none hn,
    accOpen_awake ho]

/-- A store to a KEY_B while an attempt is open in its page. -/
theorem writeAccess_keyB (hr : u.regOf acc = some r) (hk : r.row.kind = .keyB) (h0 : r.range = 0) (hw : r.writable = true)
    (hd : r.domain.all u.domainOn = true) (hf : tabFind u.keys (pageOf acc) = some k) (ht : u.now ≤ k.openedAt + 320) (v : Nat) :
    u.writeAccess acc v = u.keyB acc (pageOf acc) v := by
  simp [State.writeAccess, expireKey_of_open hf ht, hr, Option.filter, hw, reachable_on hd, wakeFor_on hd, hk, h0]

/-- The owner's complement brings the value of its KEY_A into effect. -/
theorem keyB_complement {a : Reg} {v : Nat} (hf : tabFind u.keys page = some k) (hm : k.master = acc.master) (hc : k.crew = acc.crew)
    (ha : k.addr + 4 = acc.addr) (hr : u.regOf { acc with addr := k.addr } = some a) (hv : v = k.value.toNat ^^^ all32) :
    u.keyB acc page v = ({ u with keys := tabErase u.keys page }).keyEffect a k.value.toNat := by
  simp only [State.keyB, hf, if_pos (And.intro hm (And.intro hc ha)), if_pos hv, hr]

/-- Any other value of the owner ends its attempt with reason 2. -/
theorem keyB_mismatch {v : Nat} (hf : tabFind u.keys page = some k) (hm : k.master = acc.master) (hc : k.crew = acc.crew)
    (ha : k.addr + 4 = acc.addr) (hv : v ≠ k.value.toNat ^^^ all32) : u.keyB acc page v = u.disturb page 2 := by
  simp only [State.keyB, hf, if_pos (And.intro hm (And.intro hc ha)), if_neg hv]

theorem exec_keyAWrite {v : Word} (h : (s.tick dt).isKind acc .keyA = true) :
    exec (.keyAWrite dt acc v) s = .next ((s.tick dt).writeAccess acc v.toNat) :=
  happen_of_ready (ready := fun t => t.isKind acc .keyA) (eff := fun t => t.writeAccess acc v.toNat) h

theorem exec_keyBWrite {v : Word} (h : (s.tick dt).isKind acc .keyB = true) :
    exec (.keyBWrite dt acc v) s = .next ((s.tick dt).writeAccess acc v.toNat) :=
  happen_of_ready (ready := fun t => t.isKind acc .keyB) (eff := fun t => t.writeAccess acc v.toNat) h

theorem keyDue_of_open (ha : u.awake = true) (hf : tabFind u.keys page = some k) (ht : k.openedAt + 320 ≤ u.now) : u.keyDue page = true := by
  rw [State.keyDue, ha, any_of_some hf (decide_eq_true ht), Bool.and_self]

theorem exec_dualKeyTimeout (h : (s.tick dt).keyDue page = true) : exec (.dualKeyTimeout dt page) s = .next ((s.tick dt).disturb page 3) :=
  happen_of_ready (ready := fun t => t.keyDue page) (eff := fun t => t.disturb page 3) h

end Attempts

/-- Settles O12: a KEY_A store opens an attempt, and the owner's KEY_B or the time-out ends it as `keyAbort` or completes it. That a KEY_B at exactly
320 ns still counts is the model's choice (notes/assumptions/46). -/
theorem dualKeyAttempts : Obligations.DualKeyAttempts := by
  unfold Obligations.DualKeyAttempts
  intro dt acc v s r u page ended
  have hends {p : Nat} {k : KeyAttempt} (hf : tabFind u.keys p = some k) (reason : Nat) : u.disturb p reason = ended p reason k :=
    disturb_of_open hf reason
  refine ⟨fun h hk h0 => ?opens, ?keyB, fun block k ha hf ht => ?timeout⟩
  case opens =>
    obtain ⟨ho, hr, -, -, -⟩ := reaches_iff.1 h
    exact (exec_keyAWrite (isKind_of_regOf ho hr hk h0)).trans (congrArg _ (writeAccess_keyA h hk h0 v))
  case keyB =>
    intro a k ho hr hk h0 hw hd hf hm hc ha ht hreg
    rw [exec_keyBWrite (isKind_of_regOf ho hr hk h0), writeAccess_keyB hr hk h0 hw hd hf ht]
    exact ⟨fun hv => congrArg _ (keyB_complement hf hm hc ha hreg hv), fun hv => congrArg _ ((keyB_mismatch hf hm hc ha hv).trans (hends hf 2))⟩
  case timeout => exact (exec_dualKeyTimeout (keyDue_of_open ha hf ht)).trans (congrArg _ (hends hf 3))

/-! ### Latched reads and counter snapshots (03 R55, R62, R63) -/

/-- No register of a crew page is the low half of a live register. -/
theorem block_of_isLiveLow (h : isLiveLow r = true) (c : Nat) : r.block ≠ .crew c := by
  intro e
  simp [isLiveLow, e] at h

/-- A read of the low half of a live register latches the high half for its master and crew. -/
theorem readReg_latches {m : Master} {c : Nat} {high : Reg} (hl : isLiveLow r = true) (hh : u.regAt (r.addr + 4) = some high) :
    u.readReg m c r = ({ u with latches := tabSet u.latches (latchKey m c (r.addr + 4)) (u.peek high) }, u.peek r) := by
  unfold State.readReg
  cases hb : r.block with
  | crew c' => exact absurd hb (block_of_isLiveLow hl c')
  | _ => simp only [hl, hh, if_true]

/-- A read that reaches a register (03 R55). -/
theorem readAccess_reaches (h : reaches u acc r = true) :
    u.readAccess acc = ((u.readReg acc.master acc.crew r).1, some (u.readReg acc.master acc.crew r).2) := by
  obtain ⟨-, hr, hn, hd, -⟩ := reaches_iff.1 h
  simp [State.readAccess, expireKey_none hn, disturb_none hn, hr, reachable_on hd, wakeFor_on hd]

/-- A read of some bytes of one register (03 R55). -/
theorem readWide_bytes {size x : Nat} {t : State} (hs : size ≤ 4) (h : u.readAccess (firstAcc acc) = (t, some x)) :
    u.readWide acc size = (t, some (x / 2 ^ (8 * (acc.addr % 4)) % 2 ^ (8 * size))) := by
  simp only [State.readWide, h, if_pos hs, Option.map_some]

theorem fitsShape_of_bytes {size : Nat} (h0 : 0 < size) (h4 : acc.addr % 4 + size ≤ 4) : u.fitsShape acc size = true := by
  simp [State.fitsShape, h0, h4]

theorem exec_loReadLatch {size : Nat} (ho : (s.tick dt).accOpen acc = true) (hr : (s.tick dt).regOf (firstAcc acc) = some r)
    (hl : isLiveLow r = true) (hs : (s.tick dt).fitsShape acc size = true) : exec (.loReadLatch dt ⟨acc, size⟩) s =
      .next (((s.tick dt).readWide acc size).1.answerRead acc ((s.tick dt).readWide acc size).2) := by
  have hready : ((s.tick dt).accOpen acc && ((s.tick dt).regOf (firstAcc acc)).any isLiveLow && (s.tick dt).fitsShape acc size) = true := by
    rw [ho, any_of_some hr hl, hs]
    rfl
  exact happen_of_ready (ready := fun t => t.accOpen acc && (t.regOf (firstAcc acc)).any isLiveLow && t.fitsShape acc size)
    (eff := fun t => (t.readWide acc size).1.answerRead acc (t.readWide acc size).2) hready

theorem row_of_snapshot {j : Nat} {row : RegRow} (h : regRow .counts 0 j = some row) : row.kind = .command ∧ row.pv = 0 := by
  obtain rfl := Option.some.inj ((show regRow .counts 0 j = some (cmdReg 0 0) from rfl).symm.trans h)
  exact ⟨rfl, rfl⟩

theorem exec_countsSnapshot (h : lands (s.tick dt) acc .counts 0 = true) :
    exec (.countsSnapshot dt acc) s = .next (s.tick dt).countsSnapshot := by
  obtain ⟨hi, r, eb, -, -, hw⟩ := command_lands h (by simp) (by simp) (fun _ _ => row_of_snapshot) 0
  show execCountsSnapshot dt acc s = _
  rw [execCountsSnapshot, happen_of_ready hi, hw]
  simp only [State.command, eb]

/-! ### Accesses that fail (03 R55, R65, R67) -/

/-- The status byte of a write that advances the abort counter has bit 3 besides. -/
theorem flags_of_write (t : State) (write : Bool) (flags : Nat) :
    flags + b2n write * dkFlag u t = if write = true ∧ u.counter 0x28 < t.counter 0x28 then flags + 8 else flags := by
  cases write <;> by_cases h : u.counter 0x28 < t.counter 0x28 <;> simp [dkFlag, b2n, h]

/-- With no attempt open in its page, an irregular access is recorded and ends. -/
theorem endIrregular_of_none {write : Bool} {size enables : Nat} (hn : tabFind u.keys (pageOf acc) = none) :
    u.endIrregular acc write size enables =
      (u.unimpl acc write (!(!u.fitsShape acc size) && partWrite write size enables) (!u.fitsShape acc size)).endsEmpty u acc write 0x81 := by
  simp only [State.endIrregular, expireKey_none hn, disturb_none hn]

/-- An access that stalls on a domain that is on ends with STALL_TIMEOUT. -/
theorem stalls_of_reaches {write : Bool} (h : reaches u acc r = true) :
    u.stalls acc write = (u.accessEnds acc r.domain 2).endsEmpty u acc write 0x82 := by
  obtain ⟨-, hr, hn, hd, -⟩ := reaches_iff.1 h
  simp [State.stalls, expireKey_none hn, disturb_none hn, hr, reachable_on hd, wakeFor_on hd]

/-- One whose domain is off and does not wake ends with DOMAIN_ASLEEP. -/
theorem stalls_of_asleep {write : Bool} (hr : u.regOf acc = some r) (hn : tabFind u.keys (pageOf acc) = none) (hd : u.reachable r.domain = false) :
    u.stalls acc write = (u.accessEnds acc r.domain 1).endsEmpty u acc write 0x84 := by
  simp [State.stalls, expireKey_none hn, disturb_none hn, hr, hd]

theorem exec_unimplAccess {write : Bool} {size enables : Nat} (h : (s.tick dt).irregular acc write size enables = true) :
    exec (.unimplAccess dt acc write size enables) s = .next ((s.tick dt).endIrregular acc write size enables) :=
  happen_of_ready (ready := fun t => t.irregular acc write size enables) (eff := fun t => t.endIrregular acc write size enables) h

theorem exec_stallTimeout {write : Bool} (ho : (s.tick dt).accOpen acc = true) (hr : (s.tick dt).regOf acc = some r) :
    exec (.stallTimeout dt acc write) s = .next ((s.tick dt).stalls acc write) :=
  happen_of_ready (ready := fun t => t.accOpen acc && (t.regOf acc).isSome) (eff := fun t => t.stalls acc write) (by simp [ho, hr])

theorem exec_wakeFailed {domain : Nat} (ha : (s.tick dt).awake = true) (hd : (s.tick dt).domainOn domain = true) :
    exec (.wakeFailed dt domain) s = .next ((s.tick dt).raise powerStatus [2]) :=
  happen_of_ready (ready := fun t => t.awake && t.domainOn domain) (eff := fun t => t.raise powerStatus [2]) (by rw [ha, hd]; rfl)

/-- Settles O13: the latch of a live register, the snapshot, and the ends of irregular, stalled and sleeping accesses. Which registers are live is the
model's choice (notes/assumptions/40), as is what makes an access irregular (93). -/
theorem readsSnapshotsAndFailedAccesses : Obligations.ReadsSnapshotsAndFailedAccesses := by
  unfold Obligations.ReadsSnapshotsAndFailedAccesses
  intro dt acc s r u source answered ended
  have hanswered (t : State) (write : Bool) (flags : Nat) : t.endsEmpty u acc write flags = answered t write flags := by
    cases hm : acc.master with
    | spi => simp only [State.endsEmpty, answered, hm, flags_of_write]
    | _ => simp only [State.endsEmpty, answered, hm]
  refine ⟨fun size h0 h4 ho h hl hb high hh => ?latch, fun h => exec_countsSnapshot h, fun write size enables hi hn => ?irregular,
    fun write h => ?stalled, fun write ho hr hn hd => ?asleep, fun domain ha hd => exec_wakeFailed ha hd⟩
  case latch =>
    obtain ⟨-, hr, -, -, -⟩ := reaches_iff.1 h
    have hread : u.readAccess (firstAcc acc) = _ := (readAccess_reaches h).trans (by rw [readReg_latches hl hh])
    rw [exec_loReadLatch ho hr hl (fitsShape_of_bytes h0 h4), readWide_bytes (by omega) hread]
  case irregular =>
    intro shape info
    rw [exec_unimplAccess hi, endIrregular_of_none hn, hanswered]
    rfl
  case stalled =>
    obtain ⟨ho, hr, -, -, -⟩ := reaches_iff.1 h
    rw [exec_stallTimeout ho hr, stalls_of_reaches h, hanswered]
    rfl
  case asleep =>
    rw [exec_stallTimeout ho hr, stalls_of_asleep hr hn hd, hanswered]
    rfl

end Sys2Proof.Machine
end

section
/-! SUPPORT and CERTIFICATES of soundness: the state after reset is sound, and every step keeps it so (04 R84, 11 R300, 12 R330, R348, 14 R373, 17 R447). -/

namespace Sys2Proof.Machine

open Sys2Proof

/-- Settles O4: memories and tables of reset are empty, and its numbers lie within their bounds. -/
theorem resetIsSound : Obligations.ResetIsSound where
  aperture := memWf_nil
  hostMem := memWf_nil
  frames := framesWf_nil
  prefetch := memWf_nil
  seqLow := by decide
  seqHigh := by decide
  throttle := by decide
  log := by decide
  queues := queuesOk_nil
  regions := regionsOk_nil
  epoch := by decide

/-- Soundness says nothing of the waiting commands and of the time. -/
theorem sound_with_queue_and_time {s : State} (h : Sound s) (waiting : List Instr) (now : Nat) : Sound { s with pending := waiting, now := now } :=
  ⟨h.aperture, h.hostMem, h.frames, h.prefetch, h.seqLow, h.seqHigh, h.throttle, h.log, h.queues, h.regions, h.epoch⟩

/-- A step is added to the throttle only below its last (17 R447). -/
theorem throttle_succ_le_of_raise_ready {t : State} (h : (t.awake && decide (t.power.throttle < 7) && t.stepDue 10) = true) :
    t.power.throttle + 1 ≤ 7 := by
  simp only [Bool.and_eq_true, decide_eq_true_eq] at h
  obtain ⟨⟨-, hbelow⟩, -⟩ := h
  exact hbelow

/-- Every command answers a next state that keeps, from the command's instant on, all that `Keeps` names. A lane's own event comes after what was
due on its lane (notes/assumptions/97); commands of one effect share an arm. -/
theorem exec_keeps (c : Instr) (s : State) : ∃ t, exec c s = .next t ∧ Keeps (s.tick c.dt) t := by
  unfold exec
  cases c with
  | read | write | describe => exact keeps_happen fun _ => keeps_answerNow (keeps_request1 (.refl _) _ _ _) _
  | segReadInit => exact keeps_happen fun _ => keeps_segRead (.refl _) _ _ _
  | segWriteInit => exact keeps_happen fun _ => keeps_segWrite (.refl _) _ _ _
  | segData => exact keeps_happen fun _ => keeps_segFrame (.refl _) _ _ _ _ _ _ fun _ h => keeps_segData h _ _ _ _ _ _
  | segAck => exact keeps_happen fun _ => keeps_segFrame (.refl _) _ _ _ _ _ _ fun _ h => keeps_segAck h _ _ _ _ _
  | cancel => exact keeps_happen fun _ => keeps_segFrame (.refl _) _ _ _ _ _ _ fun _ h => keeps_segCancel h _ _ _ _
  | segTimeout => exact keeps_happen fun _ => keeps_segTimeout (.refl _) _ _ _
  | udpDatagram => exact keeps_happen fun _ => keeps_udpTake (.refl _) _ _ _ _
  | mbxGo | mbxRequestBufferWrite | setAliasWrite | clearAliasWrite | toggleAliasWrite | statusWriteBack | keyAWrite | keyBWrite | countsSnapshot |
    laneCommitWrite | swLineWrite | stopClear | xltInvalidate | cqPush | cqFlush | eqArm | doorbell | umpireSnapshot | umpireClear | faultInject |
    eventTx =>
    exact keeps_happen fun _ => keeps_writeAccess (.refl _) _ _
  | mbxDone => exact keeps_happen fun _ => keeps_mbxFinish (.refl _) _
  | functionLevelReset => exact keeps_happen fun _ => keeps_functionReset (.refl _) _
  | resyncRequest => exact keeps_happen fun _ => keeps_capture (.refl _) _ _
  | dualKeyTimeout => exact keeps_happen fun _ => keeps_disturb (.refl _) _ _
  | loReadLatch => exact keeps_happen fun _ => keeps_answerRead (keeps_readWide (.refl _) _ _) _ _
  | registerWrite => exact keeps_happen fun _ => keeps_writeWide (.refl _) _ _ _
  | unimplAccess => exact keeps_happen fun _ => keeps_endIrregular (.refl _) _ _ _ _
  | stallTimeout => exact keeps_happen fun _ => keeps_stalls (.refl _) _ _
  | spiRead => exact keeps_happen fun _ => keeps_spiReads (.refl _) _
  | spiWrite => exact keeps_happen fun _ => keeps_spiWrites (.refl _) _ _
  | spiBadCommand | arpRequest | icmpEchoRequest => exact keeps_happen fun _ => keeps_send (.refl _) _
  | wakeFailed => exact keeps_happen fun _ => keeps_raise (.refl _) _ _
  | layerCreate => exact keeps_happen fun _ => keeps_layerCreateItem (.refl _) _
  | layerDestroy => exact keeps_happen fun _ => keeps_layerDestroyItem (.refl _) _
  | layerSet => exact keeps_happen fun _ => keeps_layerSetItem (.refl _) _
  | commit => exact keeps_happen fun _ => keeps_commitItem (.refl _) _
  | fenceWait => exact keeps_happen fun _ => keeps_fenceWait (.refl _) _
  | fenceWaitPoll => exact keeps_happen fun _ => keeps_fencePoll (.refl _) _
  | fenceWaitExpired => exact keeps_happen fun _ => keeps_fenceTimeout (.refl _) _
  | fenceSignal => exact keeps_happen fun _ => keeps_fenceSignal (.refl _) _
  | malformedItem => exact keeps_happen fun _ => keeps_ite.2 ⟨fun _ => keeps_dropBadHead (.refl _) _, fun _ => keeps_smuItem (.refl _) _⟩
  | commitAcceptance => exact keeps_happen fun _ => keeps_acceptNext (.refl _) _
  | fenceRead => exact keeps_happen fun _ => keeps_readFences (.refl _) _
  | laneCatch => exact keeps_happenOn fun _ => keeps_ite.2 ⟨fun _ => keeps_handOver (keeps_meet _ _ _) _, fun _ => keeps_catchLane (keeps_meet _ _ _) _ _⟩
  | retimeF0Start => exact keeps_happenOn fun _ => keeps_startF0 (keeps_meet _ _ _) _
  | presented => exact keeps_happenOn fun _ => keeps_presentLane (keeps_meet _ _ _) _
  | frameStart => exact keeps_happenOn fun _ => keeps_beginFrame (keeps_meet _ _ _) _ _
  | quarterWake => exact keeps_happen fun _ => keeps_setPower (.refl _) _
  | rowRelease => exact keeps_happenOn fun _ => keeps_releaseRow (keeps_meet _ _ _) _ _
  | tileWrite => exact keeps_happenOn fun _ => keeps_writeTile (keeps_meet _ _ _) _ _
  | rowClose => exact keeps_happenOn fun _ => keeps_closeRow (keeps_meet _ _ _) _ _ _
  | portStall => exact keeps_happenOn fun _ => keeps_stallPort (keeps_meet _ _ _) _ _ _ _ _
  | selfRefreshEntry => exact keeps_happenOn fun _ => keeps_enterRefresh (keeps_meet _ _ _) _
  | vrrPorchMin => exact keeps_happenOn fun _ => keeps_porchMin (keeps_meet _ _ _) _
  | heatComplete | teEdge => exact keeps_happenOn fun _ => keeps_modLane (keeps_meet _ _ _) _ _
  | vrrMaxFrontPorch => exact keeps_happenOn fun _ => keeps_porchMax (keeps_meet _ _ _) _
  | edpBringup => exact keeps_happenOn fun _ => keeps_edpBringup (keeps_meet _ _ _) _ _
  | linkTrainingAttempt => exact keeps_happenOn fun _ => keeps_trainOnce (keeps_meet _ _ _) _ _
  | hpdTimeout => exact keeps_happen fun _ => keeps_failLink (.refl _) _ _
  | hpdRise => exact keeps_happen fun _ => keeps_hpdRises (.refl _) _
  | hpdUnplug => exact keeps_happen fun _ => keeps_ite.2 ⟨fun _ => keeps_unplug (.refl _) _, fun _ => keeps_modLane (.refl _) _ _⟩
  | hpdIrq => exact keeps_happen fun _ => keeps_hpdPulse (.refl _) _ _
  | dsiBringup => exact keeps_happenOn fun _ => keeps_dsiBringup (keeps_meet _ _ _) _ _
  | dsiCmdSend => exact keeps_happen fun _ => keeps_sendDsi (.refl _) _ _
  | blpwmPeriodStart => exact keeps_happen fun _ => keeps_pwmPeriod (.refl _) _
  | pclkLock => exact keeps_happenOn fun _ => keeps_lockLane (keeps_meet _ _ _) _
  | pclkUnlock => exact keeps_happenOn fun _ => keeps_unlockLane (keeps_meet _ _ _) _
  | refMonitorWindow => exact keeps_happen fun _ => keeps_monitorWindow (.refl _) _ _ _
  | grossLoss => exact keeps_happen fun _ => keeps_grossFailure (.refl _)
  | refRestore => exact keeps_happen fun _ => keeps_restoreRef (.refl _)
  | csiFrameStart => exact keeps_happen fun _ => keeps_packet (.refl _) _ _ _ fun _ h => keeps_csiStart h _ _
  | csiLongPacket => exact keeps_happen fun _ => keeps_packet (.refl _) _ _ _ fun _ h => keeps_longPacket h _ _ _ _ _
  | csiFrameEnd => exact keeps_happen fun _ => keeps_packet (.refl _) _ _ _ fun _ h => keeps_csiEnd h _ _
  | lineLanded => exact keeps_happen fun _ => keeps_landLine (.refl _) _ _
  | streamLost => exact keeps_happen fun _ => keeps_loseStream (.refl _) _
  | bandAbandoned => exact keeps_happen fun _ => keeps_abandonBand (.refl _) _ _
  | processedLineSignal => exact keeps_happen fun _ => keeps_signalProcessed (.refl _) _
  | forwardDone => exact keeps_happen fun _ => keeps_fwdFinish (.refl _) _
  | programSet => exact keeps_happen fun _ => keeps_programSet (.refl _) _
  | programReady => exact keeps_happen fun _ => keeps_programReady (.refl _) _
  | programDelete => exact keeps_happen fun _ => keeps_programDelete (.refl _) _
  | writebackDone => exact keeps_happen fun _ => keeps_writebackDone (.refl _) _
  | writebackAbandoned => exact keeps_happen fun _ => keeps_abandonWriteback (.refl _) _
  | residenceCopyDone => exact keeps_happen fun _ => keeps_copyDone (.refl _) _
  | pin => exact keeps_happen fun _ => keeps_pinItem (.refl _) _
  | shedEvaluation => exact keeps_happen fun _ => keeps_shedEvaluate (.refl _)
  | shellSelftestStart => exact keeps_happen fun _ => keeps_shellStart (.refl _)
  | shellSelftestEnd => exact keeps_happen fun _ => keeps_shellEnd (.refl _) _
  | scrubPass => exact keeps_happen fun _ => keeps_scrub (.refl _) _ _ _ _
  | selftestRequest => exact keeps_happen fun _ => keeps_ite.2 ⟨fun _ => .refl _, fun _ => keeps_askSelftest (.refl _)⟩
  | fill | copy | blendCopy | rect | line | glyph => exact keeps_happen fun _ => keeps_takeBlit (.refl _) _
  | blitDone => exact keeps_happen fun _ => keeps_blitDone (.refl _) _
  | moverStart | moverResume | moverAbort | moverSwReq | udmaStart | udmaResume | udmaAbort => exact keeps_happen fun _ => keeps_controlWrite (.refl _) _ _
  | requestEdge => exact keeps_happen fun _ => keeps_pulse (.refl _) _
  | moverBurstStart => exact keeps_happen fun _ => by split; exacts [keeps_fwdBurst (.refl _) _ _, keeps_burstStart (.refl _) _]
  | moverBurstDone => exact keeps_happen fun _ => by split; exacts [keeps_fwdBurstDone (.refl _) _ _, keeps_burstDone (.refl _) _]
  | descriptorFetch => exact keeps_happen fun _ => keeps_fetchDesc (.refl _) _
  | moverBusError => exact keeps_happen fun _ => keeps_busError (.refl _) _ _
  | allStopComplete => exact keeps_happen fun _ => by split; exacts [keeps_stopAll (.refl _) _, .refl _]
  | autoResume => exact keeps_happen fun _ => keeps_stopClear (.refl _)
  | udmaBurstDone => exact keeps_happen fun _ => by split; exacts [keeps_udmaBurst (.refl _) _, .refl _]
  | udmaBusError => exact keeps_happen fun _ => keeps_udmaFail (.refl _) _
  | perstAssert => exact keeps_happen fun _ => keeps_assertPerst (.refl _) _
  | perstDeassert => exact keeps_happen fun _ => keeps_deassertPerst (.refl _) _
  | portReady => exact keeps_happen fun _ => keeps_modPort (.refl _) _ _
  | hostLinkDown => exact keeps_happen fun _ => keeps_linkDown (.refl _) _
  | hostLinkUp => exact keeps_happen fun _ => keeps_linkUp (.refl _) _ _ _
  | linkRetrain => exact keeps_happen fun _ => keeps_retrain (.refl _) _ _ _
  | vfEnableChange => exact keeps_happen fun _ => keeps_changeVfs (.refl _) _ _ _
  | apertureRead => exact keeps_happen fun _ => keeps_apertureRead (.refl _) _ _ _ _
  | apertureWrite => exact keeps_happen fun _ => keeps_apertureWrite (.refl _) _ _ _
  | xltInvalDone => exact keeps_happen fun _ => keeps_xltDone (.refl _) _
  | eqPop => exact keeps_happen fun _ => keeps_eqPop (.refl _) _
  | eqPopTimeout => exact keeps_happen fun _ => keeps_eqPopEnd (.refl _) _
  | cplTimeout => exact keeps_happen fun _ => keeps_cplTimeout (.refl _) _ _
  | regionEvaluation => exact keeps_happen fun _ => keeps_evaluate (.refl _) _ _
  | photoRearm => exact keeps_happen fun _ => keeps_rearm (.refl _) _ _
  | faultOccurrence => exact keeps_happen fun _ => keeps_faultOccurs (.refl _) _ _
  | limpFrameStart => exact keeps_happen fun _ => keeps_limpFrame (.refl _) _
  | umpireClassWrite | c3Ack | revoke | alarmPolicyWrite | modeRequest | sleepRequest => exact keeps_happen fun _ => keeps_dualKey (.refl _) _ _
  | smuStart => exact keeps_happen fun _ => keeps_startSmu (.refl _) _ _
  | smuPulseEdge => exact keeps_happen fun _ => keeps_pulseEdge (.refl _) _
  | overrateClear | showIdEnd => exact keeps_happen fun _ => keeps_modSmu (.refl _) _
  | smuTick => exact keeps_happen fun _ => keeps_smuTick (.refl _)
  | indicationPost => exact keeps_happen fun _ => keeps_postIndication (.refl _) _ _
  | indicationGapTimeout => exact keeps_happen fun _ => keeps_setValidity (.refl _) _
  | smuSealChange => exact keeps_happen fun _ => keeps_sealChange (.refl _) _
  | sealOpenTimeout => exact keeps_happen fun _ => keeps_sealTimeout (.refl _)
  | hire | tariff | stop | endJourney | supplement | tripReset | showId | timeOffset | verifyChallenge | verifyOpen | paramWrite | verifyClose | fwBlock
    | logClear =>
    exact keeps_happen fun _ => keeps_smuItem (.refl _) _
  | verifyCloseTimeout => exact keeps_happen fun _ => keeps_closeFailed (.refl _)
  | verifyInactivityTimeout => exact keeps_happen fun _ => keeps_leaveVerification (.refl _)
  | bootImageCheck => exact keeps_happen fun _ => keeps_bootAll (.refl _) _ _
  | dbgChallengeRead => exact keeps_happen fun _ => keeps_readChallenge (.refl _)
  | dbgUnlock => exact keeps_happen fun _ => keeps_unlockDebug (.refl _) _ _
  | dbgBackoffExpiry => exact keeps_happen fun _ => keeps_modSec (.refl _) _ fun _ he => ⟨.refl _, he⟩
  | securityAlarm => exact keeps_happen fun _ => keeps_alarm (.refl _) _
  | provisionWindowExpiry => exact keeps_happen fun _ => keeps_goLimp (.refl _)
  | launchComplete => exact keeps_happen fun _ => keeps_launchDone (.refl _)
  | fullSelftestDone => exact keeps_happen fun _ => keeps_testDone (.refl _) _ _ _ _
  | sleepComplete => exact keeps_happen fun _ => keeps_sleepDone (.refl _)
  | wake => exact keeps_happen fun _ => keeps_wakeEvent (.refl _) _
  | resetN => exact keeps_happen fun _ => keeps_resetPin (.refl _) _
  | resetRelease => exact keeps_happen fun _ => keeps_releaseReset (.refl _) _
  | supplyFault => exact keeps_happen fun _ => keeps_supplyFails (.refl _) _ _
  | vstbyApplied => exact keeps_happen fun _ => keeps_applyStandby (.refl _)
  | powerCycle => exact keeps_happen fun _ => keeps_cyclePower (.refl _)
  | throttleRaise => exact keeps_happen fun h => keeps_setThrottle (.refl _) _ fun _ => throttle_succ_le_of_raise_ready h
  | throttleLower => exact keeps_happen fun _ => keeps_setThrottle (.refl _) _ fun h => (Nat.sub_le _ _).trans h
  | silithLinkUp => exact keeps_happen fun _ => keeps_linkBringup (.refl _) _ _ _ _ _ _ _
  | silithLinkRetry => exact keeps_happen fun _ => keeps_linkRetry (.refl _) _
  | silithLinkLost => exact keeps_happen fun _ => keeps_linkLoss (.refl _) _
  | frameStartMarker => exact keeps_happen fun _ => keeps_takeMarker (.refl _) _
  | markerLate => exact keeps_happen fun _ => keeps_lateMarker (.refl _) _
  | leavingMarker | masterKeepaliveTimeout => exact keeps_happen fun _ => keeps_loseMaster (.refl _)
  | forwardTimeout => exact keeps_happen fun _ => keeps_forwardFails (.refl _) _
  | nodeSummary => exact keeps_happen fun _ => keeps_takeSummary (.refl _) _ _ _ _ _
  | spanResync => exact keeps_happen fun _ => keeps_spanCopied (.refl _) _
  | xtal32Fault => exact keeps_happen fun _ => keeps_crystalFails (.refl _)
  | xtal32RcWindowEnd => exact keeps_happen fun _ => keeps_rcWindowEnds (.refl _)
  | vstbyRemoved => exact keeps_happen fun _ => keeps_removeStandby (.refl _)
  | domainIdleOff => exact keeps_happen fun _ => keeps_idleOff (.refl _) _
  | limpRecordLoaded => exact keeps_happen fun _ => keeps_limpStart (.refl _) _
  | planBuilt => exact keeps_happen fun _ => keeps_buildPlan (.refl _)
  | masterBack => exact keeps_happen fun _ => keeps_masterBack (.refl _)

/-- Settles O5: the step's command keeps a sound state sound from its instant on, and neither that instant nor the queue bears on soundness. -/
theorem stepKeepsSound : Obligations.StepKeepsSound := by
  unfold Obligations.StepKeepsSound
  intro s t hs hstep
  unfold step at hstep
  cases hp : s.pending with
  | nil =>
    rw [hp] at hstep
    cases hstep
    exact hs
  | cons c rest =>
    rw [hp] at hstep
    obtain ⟨u, hu, hk⟩ := exec_keeps c { s with pending := rest }
    obtain rfl : u = t := Host.Outcome.next.inj (hu.symm.trans hstep)
    exact hk.sound (sound_with_queue_and_time hs rest (s.now + c.dt))

end Sys2Proof.Machine
end

section
/-! SUPPORT and CERTIFICATES of layers, commits and fences (04): a crew's items, the acceptance of a commit, and the reading of fences. -/

namespace Sys2Proof.Machine

open Sys2Proof

variable {s t u : State} {dt c l : Nat} {x : Option Nat}

/-! ### Commands whose item is at the head of its queue (11 R297) -/

theorem exec_layerCreate (h : (s.tick dt).headIs c 0x05 = true) : exec (.layerCreate dt c) s = .next ((s.tick dt).layerCreateItem c) :=
  happen_of_ready (ready := fun t => t.headIs c 0x05) (eff := fun t => t.layerCreateItem c) h

theorem exec_layerDestroy (h : (s.tick dt).headIs c 0x06 = true) : exec (.layerDestroy dt c) s = .next ((s.tick dt).layerDestroyItem c) :=
  happen_of_ready (ready := fun t => t.headIs c 0x06) (eff := fun t => t.layerDestroyItem c) h

theorem exec_layerSet (h : (s.tick dt).headIs c 0x02 = true) : exec (.layerSet dt c) s = .next ((s.tick dt).layerSetItem c) :=
  happen_of_ready (ready := fun t => t.headIs c 0x02) (eff := fun t => t.layerSetItem c) h

theorem exec_commit (h : (s.tick dt).headIs c 0x01 = true) : exec (.commit dt c) s = .next ((s.tick dt).commitItem c) :=
  happen_of_ready (ready := fun t => t.headIs c 0x01) (eff := fun t => t.commitItem c) h

theorem exec_fenceWait (h : (s.tick dt).headIs c 0x03 = true) : exec (.fenceWait dt c) s = .next ((s.tick dt).fenceWait c) :=
  happen_of_ready (ready := fun t => t.headIs c 0x03) (eff := fun t => t.fenceWait c) h

theorem exec_fenceSignal (h : (s.tick dt).headIs c 0x04 = true) : exec (.fenceSignal dt c) s = .next ((s.tick dt).fenceSignal c) :=
  happen_of_ready (ready := fun t => t.headIs c 0x04) (eff := fun t => t.fenceSignal c) h

theorem exec_malformedItem_bad (h : (s.tick dt).badHead c = true) : exec (.malformedItem dt c) s = .next ((s.tick dt).dropBadHead c) := by
  show execMalformedItem dt c s = _
  rw [execMalformedItem, happen_of_ready (by rw [h, Bool.true_or]), if_pos h]

/-- An SMU request of no code is well formed, and goes to the SMU (13 R369). -/
theorem exec_malformedItem_smu (hb : (s.tick dt).badHead c = false) (hs : (s.tick dt).oddSmu c = true) :
    exec (.malformedItem dt c) s = .next ((s.tick dt).smuItem c) := by
  show execMalformedItem dt c s = _
  rw [execMalformedItem, happen_of_ready (by rw [hs, Bool.or_true]), hb]
  rfl

/-! ### Layers created (04 R76) -/

section Create

variable {cookie : Nat}

theorem createLayer_given (hr : u.crewRight c 0 = true) (hq : u.layersUsed c < u.num (crewIx c 1) 2) (hl : u.freeLayerOf c = some l) :
    u.createLayer c cookie = (u.giveLayer l c).post c (eventWord 8 0xF 0 cookie l) := by
  simp [State.createLayer, hr, Nat.not_le.2 hq, hl]

theorem createLayer_noRight (hr : u.crewRight c 0 = false) :
    u.createLayer c cookie = u.post c (eventWord 8 0xF Abort.noRight.reason cookie 0xFFFF_FFFF) := by
  simp [State.createLayer, hr]

/-- The crew has its quota, or its port's pool has no free layer. -/
theorem createLayer_quota (hr : u.crewRight c 0 = true) (h : u.num (crewIx c 1) 2 ≤ u.layersUsed c ∨ u.freeLayerOf c = none) :
    u.createLayer c cookie = u.post c (eventWord 8 0xF Abort.quota.reason cookie 0xFFFF_FFFF) := by
  rcases h with hq | hl
  · simp [State.createLayer, hr, hq]
  · simp [State.createLayer, hr, hl]

end Create

/-! ### Layers freed (04 R77) -/

theorem unassign_of_other (ho : (u.layer l).owner ≠ some c) (hm : portManager c (l / 512) = false) : u.unassign c l = (u, some .noRight) := by
  cases h : (u.layer l).owner with
  | none => simp [State.unassign, h, hm]
  | some d =>
    have hd : d ≠ c := by simpa [h] using ho
    simp [State.unassign, h, hm, hd]

theorem unassign_of_unowned (ho : (u.layer l).owner = none) (hm : portManager c (l / 512) = true) : u.unassign c l = (u, none) := by
  simp [State.unassign, ho, hm]

/-- The layer's owner, or a manager of its port, frees a layer without source. -/
theorem unassign_of_owned {d : Nat} (ho : (u.layer l).owner = some d) (hc : portManager c (l / 512) = true ∨ d = c) :
    u.unassign c l = if u.lyr l 6 = 0 then (u.freeLayer l, none) else (u, some .valueConflict) := by
  have hmay : (!portManager c (l / 512) && d != c) = false := by rcases hc with hm | rfl <;> simp [*]
  by_cases h6 : u.lyr l 6 = 0 <;> simp [State.unassign, ho, hmay, h6]

/-- The layer that the item at the head names. -/
def State.headLayer (u : State) (c : Nat) : Nat := layerField ((u.head c).word 0)

/-- The cookie of the item at the head. -/
def State.headCookie (u : State) (c : Nat) : Nat := cookieOf ((u.head c).word 0)

theorem layerDestroyItem_freed (h : (u.takeHead c).unassign c (u.headLayer c) = (t, none)) : u.layerDestroyItem c = t := by
  unfold State.headLayer at h
  simp only [State.layerDestroyItem, h]

theorem layerDestroyItem_refused {a : Abort} (h : (u.takeHead c).unassign c (u.headLayer c) = (t, some a)) :
    u.layerDestroyItem c = t.itemError c a.reason (u.headCookie c) := by
  unfold State.headLayer at h
  simp only [State.layerDestroyItem, h, State.headCookie]

theorem layerDestroyItem_of_owned {d : Nat} (ho : (u.layer (u.headLayer c)).owner = some d)
    (hc : portManager c (u.headLayer c / 512) = true ∨ d = c) :
    u.layerDestroyItem c = if u.lyr (u.headLayer c) 6 = 0 then (u.takeHead c).freeLayer (u.headLayer c)
      else (u.takeHead c).itemError c Abort.valueConflict.reason (u.headCookie c) := by
  have h := unassign_of_owned (u := u.takeHead c) ho hc
  have h6 : (u.takeHead c).lyr (u.headLayer c) 6 = u.lyr (u.headLayer c) 6 := rfl
  rw [h6] at h
  split
  · next h0 => exact layerDestroyItem_freed (by rw [h, if_pos h0])
  · next h0 => exact layerDestroyItem_refused (by rw [h, if_neg h0])

/-! ### COMMIT items (04 R84, R95) -/

/-- The commit request of a COMMIT item. -/
def CqItem.request (i : CqItem) : CommitReq :=
  { mask := bits (i.word 0) 55 48, linked := decide (2 ≤ (lanesIn (bits (i.word 0) 55 48)).length),
    fences := if bitOf (i.word 0) 47 then [i.fence] else [], cookie := cookieOf (i.word 0), register := none }

/-- A commit goes to the cox, and holds its crew's later items. -/
theorem commitItem_taken (h : bitOf ((u.head c).word 0) 47 = true → fenceWordOk ((u.head c).word 1) = true) :
    u.commitItem c = (u.takeHead c).modCrew c (fun k =>
      { k with holding := .commit (u.head c).request, accepting := k.accepting ++ [(u.head c).request] }) := by
  have hok : ¬ (bitOf ((u.head c).word 0) 47 && !fenceWordOk ((u.head c).word 1)) = true := by
    cases hb : bitOf ((u.head c).word 0) 47 with
    | false => simp
    | true => simp [h hb]
  simp only [State.commitItem, if_neg hok]
  rfl

theorem commitItem_refused (hb : bitOf ((u.head c).word 0) 47 = true) (h : fenceWordOk ((u.head c).word 1) = false) :
    u.commitItem c = (((u.takeHead c).refuseCommit c none).post c
      (eventWord 7 (laneField (bits ((u.head c).word 0) 55 48)) Abort.valueRange.reason (u.headCookie c) 0)).modCrew c
        (fun k => { k with latest := none }) := by
  simp only [State.commitItem, hb, h, Bool.not_false, Bool.and_true, if_true]
  rfl

/-- Settles O21: each clause takes the item at the head (`State.takeHead`), and is one equation of what the item's opcode does; the cookie 0 of a
malformed LAYER_SET is notes/assumptions/70. -/
theorem layerAndCommitItems : Obligations.LayerAndCommitItems := by
  unfold Obligations.LayerAndCommitItems
  intro dt c s u v w
  refine ⟨fun h => ⟨?given, ?quota⟩, ?destroy, ?set, ?commit, ?malformed⟩
  case given =>
    intro hr hq l hl
    rw [exec_layerCreate h]
    exact congrArg _ (createLayer_given (u := v) hr hq hl)
  case quota =>
    intro hr hq
    rw [exec_layerCreate h]
    exact congrArg _ (createLayer_quota (u := v) hr (.inl hq))
  case destroy =>
    intro h ho
    rw [exec_layerDestroy h]
    exact congrArg _ (layerDestroyItem_of_owned ho (.inr rfl))
  case set =>
    intro h ws hws
    rw [exec_layerSet h, State.layerSetItem, hws]
    rfl
  case commit =>
    intro h hb r
    have hr : r = (u.head c).request := by simp [r, CqItem.request, w, u, show bitOf ((u.head c).word 0) 47 = false from hb]
    rw [exec_commit h, commitItem_taken (fun hb' => absurd (hb.symm.trans hb') (by simp)), hr]
    rfl
  case malformed =>
    intro h
    rw [exec_malformedItem_bad h]
    rfl

/-! ### Fence waits (04 R90, R95) -/

section FenceWait

variable {host : Bool} {addr target deadline cookie ms : Nat}

/-- The time-out of the FENCE_WAIT at the head, in ms. -/
def State.headWait (u : State) (c : Nat) : Nat := bits ((u.head c).word 0) 13 0

/-- What the crew holds its later items for while the FENCE_WAIT at the head waits. -/
def State.headHolding (u : State) (c : Nat) : Holding :=
  .fenceWait (u.head c).fence.host (u.head c).fence.addr (u.head c).fence.target (u.now + u.headWait c * 1_000_000) (u.headCookie c)

/-- A fence is met by a value at or above its target, and not by a read that fails (04 R90, R92). -/
def fenceMet (target : Nat) (x : Option Nat) : Bool := x.any (fun n => decide (target ≤ n))

theorem fenceWait_refused (h : u.headWait c < 1 ∨ 10_000 < u.headWait c ∨ fenceWordOk ((u.head c).word 1) = false) :
    u.fenceWait c = (u.takeHead c).itemError c Abort.valueRange.reason (u.headCookie c) := by
  have hbad : (!within 1 10_000 (u.headWait c) || !fenceWordOk ((u.head c).word 1)) = true := by
    rcases h with h | h | h
    · simp [within, show ¬ 1 ≤ u.headWait c by omega]
    · simp [within, show ¬ u.headWait c ≤ 10_000 by omega]
    · simp [h]
  unfold State.headWait at hbad
  simp only [State.fenceWait, hbad, if_true]
  rfl

/-- A fence wait in range reads its fence at once: it is over where the fence is met, and holds the crew's later items else. -/
theorem fenceWait_read (h1 : 1 ≤ u.headWait c) (h2 : u.headWait c ≤ 10_000) (hw : fenceWordOk ((u.head c).word 1) = true)
    (hv : (u.takeHead c).fenceValue c (u.head c).fence.host (u.head c).fence.addr = (t, x)) :
    u.fenceWait c = if fenceMet (u.head c).fence.target x then t else t.modCrew c (fun k =>
      { k with holding := u.headHolding c }) := by
  have hgood : (!within 1 10_000 (u.headWait c) || !fenceWordOk ((u.head c).word 1)) = false := by simp [within, h1, h2, hw]
  unfold State.headWait at hgood
  simp only [State.fenceWait, hgood, Bool.false_eq_true, if_false, hv]
  rfl

theorem fencePoll_of_holding (h : (u.crew c).holding = .fenceWait host addr target deadline cookie) (hv : u.fenceValue c host addr = (t, x)) :
    u.fencePoll c = if fenceMet target x then t.modCrew c (fun k => { k with holding := .idle }) else t := by
  simp only [State.fencePoll, h, hv]
  rfl

theorem fenceTimeout_of_holding (h : (u.crew c).holding = .fenceWait host addr target deadline cookie) :
    u.fenceTimeout c = (u.modCrew c (fun k => { k with holding := .idle })).post c (eventWord 9 0xF 0 cookie 0) := by
  simp only [State.fenceTimeout, h]

theorem exec_fenceWaitPoll (hr : (s.tick dt).running = true) (h : ((s.tick dt).crew c).holding = .fenceWait host addr target deadline cookie) :
    exec (.fenceWaitPoll dt c) s = .next ((s.tick dt).fencePoll c) :=
  happen_of_ready (ready := fun t => t.waitsFence c) (eff := fun t => t.fencePoll c) (by simp only [State.waitsFence, hr, h, Bool.and_self])

theorem exec_fenceWaitExpired (hr : (s.tick dt).running = true) (h : ((s.tick dt).crew c).holding = .fenceWait host addr target deadline cookie)
    (hd : deadline ≤ (s.tick dt).now) : exec (.fenceWaitExpired dt c) s = .next ((s.tick dt).fenceTimeout c) :=
  happen_of_ready (ready := fun t => t.fenceDue c) (eff := fun t => t.fenceTimeout c)
    (by simp only [State.fenceDue, hr, h, decide_eq_true hd, Bool.and_self])

end FenceWait

/-! ### Fence signals (04 R95) -/

section FenceSignal

variable {q : Nat}

/-- When the FENCE_SIGNAL at the head is written: 0 at once, 1 when the crew's latest commit is applied, 2 when it is presented. -/
def State.headSignal (u : State) (c : Nat) : Nat := bits ((u.head c).word 0) 49 48

/-- The FENCE_SIGNAL at the head as it is kept for commit `q`. -/
def State.headKept (u : State) (c q : Nat) : Signal :=
  { seq := q, onPresented := decide (u.headSignal c = 2), host := (u.head c).fence.host, addr := (u.head c).fence.addr,
    value := (u.head c).fence.target }

/-- What a signal of a kind waits for is still to come of commit `q`. -/
def State.stillDue (u : State) (kind q : Nat) : Bool := u.isPending q || (decide (kind = 2) && u.isAwaited q)

/-- The value of the FENCE_SIGNAL at the head, written with the head taken. -/
def State.headWritten (u : State) (c : Nat) : State :=
  (u.takeHead c).fenceWrite c (u.head c).fence.host (u.head c).fence.addr (u.head c).fence.target

theorem fenceSignal_refused (h : u.headSignal c = 3 ∨ fenceWordOk ((u.head c).word 1) = false) :
    u.fenceSignal c = (u.takeHead c).itemError c Abort.valueRange.reason (u.headCookie c) := by
  have hbad : u.headSignal c = 3 ∨ (!fenceWordOk ((u.head c).word 1)) = true := by rwa [Bool.not_eq_true']
  unfold State.headSignal at hbad
  simp only [State.fenceSignal, if_pos hbad]
  rfl

/-- What is left of a signal whose format is allowed. -/
theorem fenceSignal_of_ok (hk : u.headSignal c ≠ 3) (hw : fenceWordOk ((u.head c).word 1) = true) :
    u.fenceSignal c = if u.headSignal c = 0 then u.headWritten c else
      match ((u.takeHead c).crew c).latest with
      | none => u.takeHead c
      | some q => if u.stillDue (u.headSignal c) q then (u.takeHead c).modCrew c (fun k => { k with signals := k.signals ++ [u.headKept c q] })
          else u.headWritten c := by
  have hgood : ¬ (u.headSignal c = 3 ∨ (!fenceWordOk ((u.head c).word 1)) = true) := by simp [hk, hw]
  unfold State.headSignal at hgood
  simp only [State.fenceSignal, if_neg hgood]
  rfl

theorem takeHead_latest (u : State) (c : Nat) : ((u.takeHead c).crew c).latest = (u.crew c).latest := by
  rw [State.takeHead, State.crew_modCrew, if_pos rfl]

theorem fenceSignal_now (hk : u.headSignal c = 0) (hw : fenceWordOk ((u.head c).word 1) = true) : u.fenceSignal c = u.headWritten c := by
  rw [fenceSignal_of_ok (by omega) hw, if_pos hk]

theorem fenceSignal_without_commit (hk : u.headSignal c = 1 ∨ u.headSignal c = 2) (hw : fenceWordOk ((u.head c).word 1) = true)
    (hl : (u.crew c).latest = none) : u.fenceSignal c = u.takeHead c := by
  rw [fenceSignal_of_ok (by omega) hw, if_neg (by omega), takeHead_latest, hl]

theorem fenceSignal_kept (hk : u.headSignal c = 1 ∨ u.headSignal c = 2) (hw : fenceWordOk ((u.head c).word 1) = true)
    (hl : (u.crew c).latest = some q) (hd : u.stillDue (u.headSignal c) q = true) :
    u.fenceSignal c = (u.takeHead c).modCrew c (fun k => { k with signals := k.signals ++ [u.headKept c q] }) := by
  rw [fenceSignal_of_ok (by omega) hw, if_neg (by omega), takeHead_latest, hl]
  exact if_pos hd

theorem fenceSignal_late (hk : u.headSignal c = 1 ∨ u.headSignal c = 2) (hw : fenceWordOk ((u.head c).word 1) = true)
    (hl : (u.crew c).latest = some q) (hd : u.stillDue (u.headSignal c) q = false) : u.fenceSignal c = u.headWritten c := by
  rw [fenceSignal_of_ok (by omega) hw, if_neg (by omega), takeHead_latest, hl]
  exact if_neg (by simp [hd])

end FenceSignal

/-- Settles O22: an item reads its fence when it is taken and when it is polled, and a read that faults gives no value that meets it (04 R92); a
signal is written, or kept while its commit is pending. -/
theorem fenceItems : Obligations.FenceItems := by
  unfold Obligations.FenceItems
  intro dt c s u v i f ms
  refine ⟨?wait, fun host addr target deadline cookie hr hh => ⟨?poll, ?expired⟩, fun h hw => ⟨?now, ?kept⟩⟩
  case wait =>
    intro h h1 h2 hw t x hv
    rw [exec_fenceWait h]
    exact congrArg _ (fenceWait_read h1 h2 hw hv)
  case poll =>
    intro t x hv
    rw [exec_fenceWaitPoll hr hh]
    exact congrArg _ (fencePoll_of_holding hh hv)
  case expired =>
    intro hd
    rw [exec_fenceWaitExpired hr hh hd, fenceTimeout_of_holding hh]
  case now =>
    intro hk
    rw [exec_fenceSignal h]
    exact congrArg _ (fenceSignal_now hk hw)
  case kept =>
    intro q hk hl hp
    rw [exec_fenceSignal h]
    exact congrArg _ (fenceSignal_kept hk hw hl (Bool.or_eq_true_iff.2 (.inl hp)))

/-- Settles O23: each clause takes the item at the head, and is the equation of its refusal; a signal whose commit is no longer awaited is written
at once, or with no latest commit not at all (notes/assumptions/70). -/
theorem layerAndFenceItemsRefused : Obligations.LayerAndFenceItemsRefused := by
  unfold Obligations.LayerAndFenceItemsRefused
  intro dt c s u v i w f
  refine ⟨fun h => ⟨?noRight, ?noLayer⟩, fun h => ⟨?other, ?unowned, ?managed⟩, fun h hb => ⟨?fenced, ?badFence⟩, ?wait,
    fun h => ⟨?signal, fun hk hw => ⟨?noCommit, ?late⟩, ?awaited⟩, ?smu⟩
  case noRight =>
    intro hr
    rw [exec_layerCreate h]
    exact congrArg _ (createLayer_noRight (u := v) hr)
  case noLayer =>
    intro hr hl
    rw [exec_layerCreate h]
    exact congrArg _ (createLayer_quota (u := v) hr (.inr hl))
  case other =>
    intro ho hm
    rw [exec_layerDestroy h]
    exact congrArg _ (layerDestroyItem_refused (unassign_of_other (u := v) ho hm))
  case unowned =>
    intro ho hm
    rw [exec_layerDestroy h]
    exact congrArg _ (layerDestroyItem_freed (unassign_of_unowned (u := v) ho hm))
  case managed =>
    intro d ho hm
    rw [exec_layerDestroy h]
    exact congrArg _ (layerDestroyItem_of_owned ho (.inl hm))
  case fenced =>
    intro hw r
    have hr : r = i.request := by simp [r, CqItem.request, f, w, show bitOf (i.word 0) 47 = true from hb]
    rw [exec_commit h, commitItem_taken (fun _ => hw), hr]
    rfl
  case badFence =>
    intro hw
    rw [exec_commit h]
    exact congrArg _ (commitItem_refused hb hw)
  case wait =>
    intro h hbad
    rw [exec_fenceWait h]
    exact congrArg _ (fenceWait_refused hbad)
  case signal =>
    intro hbad
    rw [exec_fenceSignal h]
    exact congrArg _ (fenceSignal_refused hbad)
  case noCommit =>
    intro hl
    rw [exec_fenceSignal h]
    exact congrArg _ (fenceSignal_without_commit hk hw hl)
  case late =>
    intro q hl hp ha
    have hd : u.stillDue (u.headSignal c) q = false := by
      rcases ha with h1 | h1
      · simp [State.stillDue, hp, show u.headSignal c = 1 from h1]
      · simp [State.stillDue, hp, h1]
    rw [exec_fenceSignal h]
    exact congrArg _ (fenceSignal_late hk hw hl hd)
  case awaited =>
    intro q hk hw hl ha
    have h2 : u.headSignal c = 2 := hk
    have hd : u.stillDue (u.headSignal c) q = true := by simp [State.stillDue, h2, ha]
    rw [exec_fenceSignal h, fenceSignal_kept (.inr h2) hw hl hd, State.headKept, decide_eq_true h2]
    rfl
  case smu => exact exec_malformedItem_smu

end Sys2Proof.Machine
end

section
/-! SUPPORT and CERTIFICATE of commit requests (04 R83, R84, R90, R96, 07 R183, R199): a commit judged, a lane's COMMIT register, and the reading of a
commit's fences. -/

namespace Sys2Proof.Machine

open Sys2Proof

variable {s t u g : State} {dt c n : Nat} {r : CommitReq} {rest : List CommitReq} {a : Abort} {e : Option Refused} {fs : List Fence}

/-! ### Commits judged (04 R83, R84, R96) -/

/-- The configuration that a request would give: every pending commit applied, then what it takes of its crew's staged writes. -/
def State.withTaken (u : State) (c : Nat) (r : CommitReq) : State := (u.withPending []).withWrites (u.takenBy c r.mask)

/-- A refusal as far as it concerns the crew: counted, and with a translation fault where device memory is wanting (04 R73). -/
def State.turnedDown (u : State) (c : Nat) (r : CommitReq) (e : Option Refused) : State := (u.refuseCommit c e).noMemory c e (u.withTaken c r)

/-- An accepted request carried through: admitted, and what its acceptance brings about at once. -/
def State.carriedThrough (u : State) (c : Nat) (r : CommitReq) (g : State) (fs : List Fence) (item : Bool) : State :=
  (u.admitCommit c r g fs item).1.afterAcceptance u (u.newCommit c r fs)

theorem acceptCommit_refused (h : u.judge c r = .error (a, e)) (item : Bool) :
    u.acceptCommit c r item = (if item then (u.turnedDown c r e).post c (eventWord 7 (laneField r.mask) a.reason r.cookie 0)
      else u.turnedDown c r e, .error a) := by
  simp only [State.acceptCommit, h]
  rfl

theorem acceptCommit_accepted (h : u.judge c r = .ok (g, fs)) (item : Bool) :
    u.acceptCommit c r item = (u.carriedThrough c r g fs item, .ok u.nextSeq) := by
  simp only [State.acceptCommit, h]
  rfl

/-- A request whose fences are named at an instant (04 R91). -/
def CommitReq.namedNow (r : CommitReq) (now : Nat) : CommitReq := { r with fences := r.fences.map (fun f => { f with namedAt := now }) }

/-- A crew's oldest request is taken. -/
def State.takeRequest (u : State) (c : Nat) (rest : List CommitReq) : State := u.modCrew c (fun k => { k with accepting := rest })

/-- The crew's next items may be taken. -/
def State.released (u : State) (c : Nat) : State := u.modCrew c (fun k => { k with holding := .idle })

/-- A request that came as an item: its crew is released, and its number is the crew's latest, where it gets one. -/
theorem acceptNext_item {w : State} {o : Except Abort Nat} (h : (u.crew c).accepting = r :: rest) (hr : r.register = none)
    (ha : ((u.takeRequest c rest).released c).acceptCommit c (r.namedNow u.now) true = (w, o)) :
    u.acceptNext c = w.modCrew c (fun k => { k with latest := o.toOption }) := by
  unfold State.released State.takeRequest CommitReq.namedNow at ha
  rw [hr] at ha
  simp only [State.acceptNext, h, hr, ha]
  cases o <;> rfl

/-- A request of a COMMIT register whose mask is one of two or more lanes, its own among them, or which names its own alone (07 R199). -/
theorem acceptNext_register {w : State} {o : Except Abort Nat} (h : (u.crew c).accepting = r :: rest) (hr : r.register = some n)
    (hm : r.linked = true → r.mask < 0x100 ∧ r.mask.testBit n = true ∧ 2 ≤ (lanesIn r.mask).length)
    (ha : (u.takeRequest c rest).acceptCommit c (r.namedNow u.now) false = (w, o)) : u.acceptNext c = w.registerOutcome n o := by
  have hrange : ¬ (r.linked = true ∧ (0x100 ≤ r.mask ∨ r.mask.testBit n = false)) := by
    rintro ⟨hl, hbad⟩
    obtain ⟨h8, hn, -⟩ := hm hl
    rcases hbad with hbad | hbad
    · omega
    · simp [hn] at hbad
  have hmany : ¬ (r.linked = true ∧ (lanesIn r.mask).length < 2) := fun ⟨hl, hfew⟩ => by
    obtain ⟨-, -, h2⟩ := hm hl
    omega
  unfold State.takeRequest CommitReq.namedNow at ha
  rw [hr] at ha
  simp only [State.acceptNext, h, hr, if_neg hrange, if_neg hmany, ha]

theorem exec_commitAcceptance (hp : (s.tick dt).planned = true) (ha : ((s.tick dt).crew c).accepting = r :: rest) :
    exec (.commitAcceptance dt c) s = .next ((s.tick dt).acceptNext c) := by
  have hready : ((s.tick dt).coxUp && (s.tick dt).planned && decide (((s.tick dt).crew c).accepting ≠ [])) = true := by
    rw [planned_coxUp hp, hp, ha]
    rfl
  exact happen_of_ready (ready := fun t => t.coxUp && t.planned && decide ((t.crew c).accepting ≠ [])) (eff := fun t => t.acceptNext c) hready

/-! ### A lane's COMMIT register (07 R199) -/

theorem row_of_laneCommit {j : Nat} {row : RegRow} (h : regRow (.lane n) 0x10 j = some row) : row.kind = .command ∧ row.pv = 0 := by
  obtain rfl := Option.some.inj ((show regRow (.lane n) 0x10 j = some (cmdReg 0x10 0) from rfl).symm.trans h)
  exact ⟨rfl, rfl⟩

theorem exec_laneCommitWrite {acc : Acc} {v : Word} (hn : n < 8) (h : lands (s.tick dt) acc (.lane n) 0x10 = true) :
    exec (.laneCommitWrite dt acc n v) s = .next ((s.tick dt).laneCommit n v.toNat) := by
  obtain ⟨hi, r, eb, -, -, hw⟩ := command_lands h (by simp) (by simp) (fun _ _ => row_of_laneCommit) v.toNat
  show execLaneCommitWrite dt acc n v s = _
  rw [execLaneCommitWrite, happen_of_ready (by rw [decide_eq_true hn, hi]; rfl), hw]
  simp only [State.command, eb]

theorem laneCommit_busy (h : (u.lane n).commitBusy = true) (v : Nat) : u.laneCommit n v = u.raise (laneStatus n) [14] := by
  rw [State.laneCommit, if_pos h]

theorem laneCommit_idle (h : (u.lane n).commitBusy = false) (v : Nat) :
    u.laneCommit n v = (u.modLane n (fun l => { l with commitBusy := true })).modCrew 0 (fun k => { k with accepting := k.accepting ++
      [{ mask := if v = 0 then 2 ^ n else v, linked := decide (v ≠ 0), fences := [], cookie := 0, register := some n }] }) := by
  rw [State.laneCommit, if_neg (by simp [h])]

/-! ### Fences read (04 R90, 07 R183, R194) -/

section FenceRead

variable {k : Commit} {f : Fence} {x : Nat}

/-- A commit of one fence as a reading leaves it: eligible where the fence is met. -/
def Commit.afterReading (k : Commit) (f : Fence) (met : Bool) : Commit := { k with fences := [{ f with met := met }], eligible := met }

/-- The only pending commit is the one on the lane. -/
theorem readFences_of_single (hc : u.commits = [k]) (hn : k.lanes.testBit n = true) (hf : k.fences = [f]) : u.readFences n = u.readFence k := by
  simp [State.readFences, hc, hn, hf]

/-- A waiting commit's fence is read and gives a value: the commit waits on, is applied at once where it enables a lane, or is caught in an
extended porch. -/
theorem readFence_of_value (hf : k.fences = [f]) (he : k.eligible = false) (hv : u.fenceValue k.crew f.host f.addr = (t, some x))
    (hc : t.commits = [k]) :
    u.readFence k =
      (let m := { t with commits := [k.afterReading f (decide (f.target ≤ x))] }
       if x < f.target then m
       else if m.enabling (m.withPending []) k.lanes && m.applies then m.applyCommit (k.afterReading f true)
       else (lanesIn k.lanes).foldl State.porchCatch m) := by
  by_cases hx : x < f.target
  · simp [State.readFence, hf, hv, hc, hx, Commit.afterReading]
  · have hm : f.target ≤ x := Nat.not_lt.1 hx
    simp [State.readFence, hf, hv, hc, hx, hm, he, Commit.afterReading]

theorem exec_fenceRead (hu : (s.tick dt).coxUp = true) (hn : n < 8) : exec (.fenceRead dt n) s = .next ((s.tick dt).readFences n) :=
  happen_of_ready (ready := fun t => t.coxUp && decide (n < 8)) (eff := fun t => t.readFences n) (by simp [hu, hn])

end FenceRead

/-- Settles O24: a request is judged and carried through or turned down, then answered as an item or in its lane's register; a register's request
is taken while none is busy; the value of a fence decides what its commit does (04 R90), a read that faults gives none (04 R92). -/
theorem commitRequests : Obligations.CommitRequests := by
  unfold Obligations.CommitRequests
  intro dt c lane acc v s u
  refine ⟨fun r rest hp ha => ⟨fun hr => ⟨?itemRefused, ?itemAccepted⟩, fun n hr hm => ⟨?laneRefused, ?laneAccepted⟩⟩,
    fun hn hl => ⟨?busy, ?idle⟩, ?fence⟩
  case itemRefused =>
    intro a e hj
    rw [exec_commitAcceptance hp ha]
    exact congrArg _ (acceptNext_item ha hr (acceptCommit_refused hj true))
  case itemAccepted =>
    intro g fs hj
    rw [exec_commitAcceptance hp ha]
    exact congrArg _ (acceptNext_item ha hr (acceptCommit_accepted hj true))
  case laneRefused =>
    intro a e hj
    rw [exec_commitAcceptance hp ha]
    exact congrArg _ (acceptNext_register ha hr hm (acceptCommit_refused hj false))
  case laneAccepted =>
    intro g fs hj
    rw [exec_commitAcceptance hp ha]
    exact congrArg _ (acceptNext_register ha hr hm (acceptCommit_accepted hj false))
  case busy =>
    intro hb
    rw [exec_laneCommitWrite hn hl]
    exact congrArg _ (laneCommit_busy hb _)
  case idle =>
    intro hb
    rw [exec_laneCommitWrite hn hl]
    exact congrArg _ (laneCommit_idle hb _)
  case fence =>
    intro hu hn k f hc hk hf he t x hv ht
    have hread := readFence_of_value hf he hv (ht.trans hc)
    rw [exec_fenceRead hu hn, readFences_of_single hc hk hf, hread]
    refine ⟨fun hx => ?unmet, fun hx hg => ?porch, fun hx hg hap => ?enables⟩
    case unmet =>
      have hw : k.afterReading f false = { k with fences := [{ f with met := false }] } := by rw [Commit.afterReading, ← he]
      simp only [if_pos hx, decide_eq_false (Nat.not_le.2 hx), hw]
    case porch =>
      simp only [if_neg (Nat.not_lt.2 hx), decide_eq_true hx]
      exact congrArg _ (if_neg (by simp [hg, Commit.afterReading]))
    case enables =>
      simp only [if_neg (Nat.not_lt.2 hx), decide_eq_true hx]
      exact congrArg _ (if_pos (by simp [hg, hap, Commit.afterReading]))

end Sys2Proof.Machine
end

section
/-! SUPPORT and CERTIFICATES of the surface aperture and of translation (04 R73, 11 R290 to R294, R309, R315 to R317). -/

namespace Sys2Proof.Machine

open Sys2Proof

variable {s t u : State} {dt c : Nat}

/-! ### Backing (04 R73) -/

section Backing

variable {a n : Nat}

/-- The granules of a range that are not backed. -/
def State.unbacked (u : State) (c a n : Nat) : List Nat := (granulesOf a n).filter (fun g => !(u.crew c).granules.contains g)

/-- The backing has room for `k` more granules. -/
def State.roomFor (u : State) (k : Nat) : Prop := ((u.crews.map (fun p => p.2.granules.length)).sum + k) * (2 * mib) ≤ u.backingCapacity

/-- The unbacked granules of a range backed, with LP5X turned on for them (15 R403, notes/assumptions/32). -/
def State.withBacking (u : State) (c a n : Nat) : State := (u.modCrew c (fun k => { k with granules := k.granules ++ u.unbacked c a n })).lp5Up

theorem back_of_backed (h : ∀ g ∈ granulesOf a n, g ∈ (u.crew c).granules) : u.back c a n = (u, true) := by
  have hnone : (granulesOf a n).filter (fun g => !(u.crew c).granules.contains g) = [] :=
    List.filter_eq_nil_iff.2 (fun g hg => by simp [h g hg])
  rw [State.back, hnone]
  rfl

theorem back_of_room (h : u.unbacked c a n ≠ []) (hr : u.roomFor (u.unbacked c a n).length) : u.back c a n = (u.withBacking c a n, true) :=
  (if_neg (ne_true_of_eq_false (List.isEmpty_eq_false_iff.2 h))).trans (if_pos hr)

theorem back_of_no_room (h : u.unbacked c a n ≠ []) (hr : ¬ u.roomFor (u.unbacked c a n).length) : u.back c a n = (u, false) :=
  (if_neg (ne_true_of_eq_false (List.isEmpty_eq_false_iff.2 h))).trans (if_neg hr)

theorem setPower_aperture (u : State) (on : Nat) : (u.setPower on).aperture = u.aperture := by
  unfold State.setPower
  split <;> rfl

theorem lp5Up_aperture (u : State) : u.lp5Up.aperture = u.aperture := (setPower_aperture _ _).trans (setPower_aperture _ _)

theorem withBacking_aperture (u : State) (c a n : Nat) : (u.withBacking c a n).aperture = u.aperture := lp5Up_aperture _

end Backing

/-! ### Writes of the aperture (11 R290, R294) -/

section ApertureWrite

variable {offset : Nat} {data : List Byte}

theorem apertureWrite_of_back (hin : offset + data.length ≤ 0x1000_0000) (h : u.back c offset data.length = (t, true)) :
    u.apertureWrite c offset data = { t with aperture := memWrites t.aperture (apertureKey c offset) data } := by
  simp [State.apertureWrite, State.writeCrew, State.reachRange, State.transRange, hin, h, storeCrew_aperture]

theorem apertureWrite_of_no_back (hin : offset + data.length ≤ 0x1000_0000) (h : u.back c offset data.length = (t, false)) :
    u.apertureWrite c offset data = t.xltFault c offset 8 7 0 true := by
  simp [State.apertureWrite, State.writeCrew, State.reachRange, State.transRange, hin, h]

theorem exec_apertureWrite (h : (s.tick dt).apertureOpen c offset data.length = true) :
    exec (.apertureWrite dt c offset data) s = .next ((s.tick dt).apertureWrite c offset data) :=
  happen_of_ready (ready := fun t => t.apertureOpen c offset data.length) (eff := fun t => t.apertureWrite c offset data) h

theorem within_of_apertureOpen {n : Nat} (h : u.apertureOpen c offset n = true) : offset + n ≤ 0x1000_0000 := by
  simp only [State.apertureOpen, Bool.and_eq_true, decide_eq_true_eq] at h
  obtain ⟨⟨-, hin⟩, -⟩ := h
  exact hin

/-- A memory `m` that holds a crew's bytes at an offset and is `before` everywhere else. -/
def holdsBytes (c offset : Nat) (data : List Byte) (before m : List Host.Cell) : Prop :=
  memWf m = true ∧ (∀ i b, data[i]? = some b → memRead m (apertureKey c (offset + i)) = b) ∧
    ∀ a, (∀ i, i < data.length → a ≠ apertureKey c (offset + i)) → memRead m a = memRead before a

theorem apertureKey_add (c offset i : Nat) : apertureKey c (offset + i) = apertureKey c offset + i := by
  unfold apertureKey
  omega

theorem holdsBytes_memWrites {m : List Host.Cell} (h : memWf m = true) (c offset : Nat) (data : List Byte) :
    holdsBytes c offset data m (memWrites m (apertureKey c offset) data) := by
  refine ⟨memWf_memWrites _ _ _ h, fun i b hb => ?written, fun a ha => ?other⟩
  case written =>
    obtain ⟨hi, hget⟩ := List.getElem?_eq_some_iff.1 hb
    have hin : apertureKey c offset ≤ apertureKey c offset + i ∧ apertureKey c offset + i < apertureKey c offset + data.length := by omega
    rw [apertureKey_add, memRead_memWrites _ _ _ _ h, if_pos hin, Nat.add_sub_cancel_left, List.getD_eq_getElem _ _ hi, hget]
  case other =>
    have hout : ¬ (apertureKey c offset ≤ a ∧ a < apertureKey c offset + data.length) := fun ⟨hlo, hhi⟩ =>
      ha (a - apertureKey c offset) (by omega) (by rw [apertureKey_add]; omega)
    rw [memRead_memWrites _ _ _ _ h, if_neg hout]

/-- A write whose granules are backed stores its bytes, and changes nothing besides. -/
theorem exec_apertureWrite_stores (hs : memWf s.aperture = true) (ho : (s.tick dt).apertureOpen c offset data.length = true)
    (hb : (s.tick dt).back c offset data.length = (t, true)) (ht : t.aperture = (s.tick dt).aperture) :
    ∃ m, exec (.apertureWrite dt c offset data) s = .next { t with aperture := m } ∧ holdsBytes c offset data (s.tick dt).aperture m := by
  refine ⟨memWrites t.aperture (apertureKey c offset) data, ?_, ?_⟩
  · rw [exec_apertureWrite ho, apertureWrite_of_back (within_of_apertureOpen ho) hb]
  · rw [ht]
    exact holdsBytes_memWrites hs c offset data

end ApertureWrite

/-- Settles O45: the bytes are stored over the memory once the range is backed, and backing leaves the memory (LP5X is turned on for every granule
newly backed: 15 R403, notes/assumptions/32). -/
theorem apertureWriteStoresItsBytes : Obligations.ApertureWriteStoresItsBytes := by
  unfold Obligations.ApertureWriteStoresItsBytes
  intro dt c offset data s hs u need room stored ho
  refine ⟨fun hb => ?backed, fun hn hr => ?backs, fun hn hr => ?full⟩
  case backed => exact exec_apertureWrite_stores hs ho (back_of_backed hb) rfl
  case backs => exact exec_apertureWrite_stores hs ho (back_of_room hn hr) (withBacking_aperture u c offset data.length)
  case full => rw [exec_apertureWrite ho, apertureWrite_of_no_back (within_of_apertureOpen ho) (back_of_no_room hn hr)]

/-! ### Reads of the aperture (11 R290, R309) -/

section ApertureRead

variable {offset n a : Nat} {lp5 : Bool}

/-- The stored bytes sent, poisoned or not. -/
def State.sentBytes (u : State) (c offset n : Nat) (poisoned : Bool) : State :=
  u.send (.readBytes c (memReads u.aperture (apertureKey c offset) n) poisoned)

theorem apertureRead_good (h : u.badRead c offset n = none) : u.apertureRead c offset n none = u.sentBytes c offset n false := by
  simp only [State.apertureRead, h]
  rfl

theorem apertureRead_known (h : u.badRead c offset n = some (lp5, a)) :
    u.apertureRead c offset n none = (u.sentBytes c offset n true).unitError lp5 (a % 2 ^ 32) := by
  simp only [State.apertureRead, h]
  rfl

theorem apertureRead_found (u : State) (c offset n a : Nat) (lp5 : Bool) :
    u.apertureRead c offset n (some (lp5, a)) = (u.sentBytes c offset n true).unitError lp5 (unitAddress c a lp5 % 2 ^ 32) := rfl

theorem exec_apertureRead (h : (s.tick dt).apertureOpen c offset n = true) (bad : Option (Bool × Nat)) :
    exec (.apertureRead dt c offset n bad) s = .next ((s.tick dt).apertureRead c offset n bad) :=
  happen_of_ready (ready := fun t => t.apertureOpen c offset n) (eff := fun t => t.apertureRead c offset n bad) h

end ApertureRead

/-! ### Cached translations (11 R292, R316) -/

theorem row_of_xltInval {j : Nat} {row : RegRow} (h : regRow (.crew c) 0x68 j = some row) : row = cmdReg 0x68 0xFFFF_FFFC :=
  (Option.some.inj ((show regRow (.crew c) 0x68 j = some (cmdReg 0x68 0xFFFF_FFFC) from rfl).symm.trans h)).symm

/-- A write of CREW.XLT_INVAL that keeps its PV bits passes their check, and is its command (03 R64). -/
theorem writeReg_xltInval {acc : Acc} {r : Reg} {v : Nat} (eb : r.block = .crew c) (eo : r.off = 0x68) (h0 : r.range = 0)
    (hr : r.row = cmdReg 0x68 0xFFFF_FFFC) (hpv : (u.reg ((Block.crew c).base + 0x68) 0 ^^^ v) &&& 0xFFFF_FFFC = 0) :
    u.writeReg acc r v = if bitOf v 0 = true then u.xltInvalidate c else u := by
  have hkey : u.regKey r = (Block.crew c).base + 0x68 := by simp [State.regKey, Reg.addr, eb, eo]
  have hkept : u.pvCheck acc r v = u := by
    rw [State.pvCheck, hkey, hr]
    exact if_pos (.inr hpv)
  have hown : u.managedReg acc r = false := by simp [State.managedReg, eb]
  simp [State.writeReg, h0, hkept, hown, hr, cmdReg, State.command, eb, eo, State.crewCommand]

theorem exec_xltInvalidate {acc : Acc} {v : Word} (h : lands (s.tick dt) acc (.crew c) 0x68 = true)
    (hpv : ((s.tick dt).reg ((Block.crew c).base + 0x68) 0 ^^^ v.toNat) &&& 0xFFFF_FFFC = 0) :
    exec (.xltInvalidate dt acc v) s = .next (if bitOf v.toNat 0 = true then (s.tick dt).xltInvalidate c else s.tick dt) := by
  obtain ⟨r, hr, eb, eo, h0, ho, -, -⟩ := lands_reg h
  obtain ⟨j, hj⟩ := row_of_regOf hr (by simp [eb])
  rw [eb, eo] at hj
  have hrow := row_of_xltInval hj
  have hready : ((s.tick dt).accOpen acc && ((s.tick dt).regOf acc).any (fun r => isXlt r)) = true := by
    rw [ho, any_of_some hr (by simp [isXlt, h0, eb, eo])]
    rfl
  show execXltInvalidate dt acc v s = _
  rw [execXltInvalidate, happen_of_ready hready, writeAccess_lands h hr (by simp) (by simp [hrow, cmdReg]) (by simp [hrow, cmdReg]),
    writeReg_xltInval eb eo h0 hrow hpv]

theorem exec_xltInvalDone (ha : (s.tick dt).awake = true) (h : ((s.tick dt).crew c).xltBusy = true) :
    exec (.xltInvalDone dt c) s = .next ((s.tick dt).xltDone c) :=
  happen_of_ready (ready := fun t => t.awake && (t.crew c).xltBusy) (eff := fun t => t.xltDone c) (by rw [ha, h]; rfl)

/-! ### Completion time-outs (11 R315, R317) -/

section Timeout

variable {p : Nat} {e : BusError}

/-- A time-out raised, and the port's source with it, once (notes/assumptions/84). -/
def State.timedOut (u : State) (p : Nat) : State := (u.raise (hostStatus p) [3]).occur (32 + p) p

theorem cplTimeout_of_udma (h : 64 ≤ e.channel) : u.cplTimeout p (some e) = (u.timedOut p).udmaFail e.channel :=
  if_neg (Nat.not_lt.2 h)

theorem cplTimeout_of_mover (h : e.channel < 64) (hs : (u.timedOut p).mover.stopping = none) (ha : (u.timedOut p).mover.stoppedAll = false) :
    u.cplTimeout p (some e) = (u.timedOut p).busError e [] :=
  (if_pos h).trans (if_pos ⟨congrArg Option.isNone hs, ha⟩)

theorem cplTimeout_of_stopped (h : e.channel < 64) (ha : (u.timedOut p).mover.stoppedAll = true) : u.cplTimeout p (some e) = u.timedOut p :=
  (if_pos h).trans (if_neg (fun ⟨_, hn⟩ => nomatch ha.symm.trans hn))

theorem exec_cplTimeout (hp : p < 4) (h : (s.tick dt).portUp p = true) (reader : Option BusError) :
    exec (.cplTimeout dt p reader) s = .next ((s.tick dt).cplTimeout p reader) :=
  happen_of_ready (ready := fun t => decide (p < 4) && t.portUp p) (eff := fun t => t.cplTimeout p reader) (by rw [decide_eq_true hp, h]; rfl)

end Timeout

/-- Settles O44: a read is poisoned by the unit found or known, whose channel's source has the occurrence; a write of XLT_INVAL drops the cache;
a time-out is one occurrence of its port's source (notes/assumptions/84), and a bus error of the burst that made the read. -/
theorem apertureAndTranslation : Obligations.ApertureAndTranslation := by
  unfold Obligations.ApertureAndTranslation
  intro dt c v s u
  refine ⟨fun offset n ho => ⟨?good, ?known, ?found⟩, fun acc d hl hpv => ⟨?drops, ?keeps⟩, ?done,
    fun p hp hup => ⟨?plain, ?udma, ?mover, ?stopped⟩⟩
  case good =>
    intro h
    rw [exec_apertureRead ho]
    exact congrArg _ (apertureRead_good h)
  case known =>
    intro lp5 a h
    rw [exec_apertureRead ho]
    exact congrArg _ (apertureRead_known h)
  case found =>
    intro lp5 a
    rw [exec_apertureRead ho]
    exact congrArg _ (apertureRead_found u c offset n a lp5)
  case drops =>
    intro hb
    rw [exec_xltInvalidate hl hpv, if_pos hb]
    rfl
  case keeps =>
    intro hb
    rw [exec_xltInvalidate hl hpv, if_neg (by simp [hb])]
  case done => exact exec_xltInvalDone
  case plain => exact exec_cplTimeout hp hup none
  case udma =>
    intro e he
    rw [exec_cplTimeout hp hup]
    exact congrArg _ (cplTimeout_of_udma he)
  case mover =>
    intro e he hs ha
    rw [exec_cplTimeout hp hup]
    exact congrArg _ (cplTimeout_of_mover he hs ha)
  case stopped =>
    intro e he ha
    rw [exec_cplTimeout hp hup]
    exact congrArg _ (cplTimeout_of_stopped he ha)

end Sys2Proof.Machine
end

section
/-! SUPPORT and CERTIFICATE of a crew's program and pin items (05 R122, R126, 06 R155, R156): programs queued, installed and deleted, and pins staged. -/

namespace Sys2Proof.Machine

open Sys2Proof

variable {s u : State} {dt c : Nat} {r : ProgramReq} {rest : List ProgramReq}

theorem exec_programSet (h : (s.tick dt).headIs c 0x07 = true) : exec (.programSet dt c) s = .next ((s.tick dt).programSet c) :=
  happen_of_ready (ready := fun t => t.headIs c 0x07) (eff := fun t => t.programSet c) h

theorem exec_programReady (hu : (s.tick dt).running = true) (h : ((s.tick dt).crew c).installing = r :: rest) :
    exec (.programReady dt c) s = .next ((s.tick dt).programReady c) :=
  happen_of_ready (ready := fun t => t.running && decide ((t.crew c).installing ≠ [])) (eff := fun t => t.programReady c) (by
    rw [hu, h]
    rfl)

theorem exec_programDelete (h : (s.tick dt).headIs c 0x08 = true) : exec (.programDelete dt c) s = .next ((s.tick dt).programDelete c) :=
  happen_of_ready (ready := fun t => t.headIs c 0x08) (eff := fun t => t.programDelete c) h

theorem exec_pin (h : (s.tick dt).headIs c 0x09 = true) : exec (.pin dt c) s = .next ((s.tick dt).pinItem c) :=
  happen_of_ready (ready := fun t => t.headIs c 0x09) (eff := fun t => t.pinItem c) h

/-! ### Programs queued (05 R122) -/

/-- The request of a PROGRAM_SET item. -/
def CqItem.programReq (i : CqItem) : ProgramReq :=
  { lane := bits (i.word 0) 54 52, replace := bits (i.word 0) 47 32, region := i.word 1, block := i.word 2, cookie := cookieOf (i.word 0) }

theorem programSet_noRight (h : u.crewRight c 5 = false) :
    u.programSet c = (u.takeHead c).programPost c 5 (u.headCookie c) 0xFFFF_FFFF :=
  if_pos (by simp [h])

theorem programSet_queued (h : u.crewRight c 5 = true) :
    u.programSet c = (u.takeHead c).modCrew c (fun k => { k with installing := k.installing ++ [(u.head c).programReq] }) :=
  if_neg (by simp [h])

/-! ### Programs installed (05 R122, R126) -/

/-- A request's quota or handle allows it: a new program is at most the eighth, and a replaced one is the crew's. -/
def State.admitsProgram (u : State) (c : Nat) (r : ProgramReq) : Prop :=
  (r.replace = 0 → (u.handlesOf c).length < 8) ∧ (r.replace ≠ 0 → r.replace ∈ u.handlesOf c)

/-- The crew's oldest request is taken. -/
def State.takeProgram (u : State) (c : Nat) (rest : List ProgramReq) : State := u.modCrew c (fun k => { k with installing := rest })

/-- The handle under which a request's program goes: a free one, or that of the program that it replaces. -/
def State.handleFor (u : State) (r : ProgramReq) : Nat := if r.replace = 0 then u.freeHandle else r.replace

/-- Where a request's program is kept until its commit: under its handle, or beside the program that it replaces. -/
def State.placeFor (u : State) (r : ProgramReq) : Nat := if r.replace = 0 then u.handleFor r else pendingProgram (u.handleFor r)

/-- Staged writes without those of the program of a handle. -/
def unstageProgram (h : Nat) (l : List Staged) : List Staged :=
  l.filter (fun (e : Staged) => match e with | .program x _ => decide (x % 0x1_0000 ≠ h) | _ => true)

/-- A program installed and staged for its lane. -/
def State.installed (u : State) (c handle place : Nat) (p : Program) (lane : Nat) : State :=
  ({ u with programs := tabSet u.programs place p }).modCrew c (fun k => { k with staged := unstageProgram handle k.staged ++ [Staged.program place lane] })

theorem not_full_of_admits (h : u.admitsProgram c r) : ¬ (r.replace = 0 ∧ 8 ≤ (u.handlesOf c).length) :=
  fun ⟨h0, hfull⟩ => Nat.not_lt.2 hfull (h.1 h0)

theorem not_foreign_of_admits (h : u.admitsProgram c r) : ¬ (r.replace ≠ 0 ∧ (!(u.handlesOf c).contains r.replace) = true) :=
  fun ⟨h0, hforeign⟩ => by simp [h.2 h0] at hforeign

theorem programReady_full (h : (u.crew c).installing = r :: rest) (h0 : r.replace = 0) (hfull : 8 ≤ (u.handlesOf c).length) :
    u.programReady c = (u.takeProgram c rest).programPost c 2 r.cookie 0xFFFF_FFFF := by
  simp only [State.programReady, h, if_pos (And.intro h0 hfull)]
  rfl

theorem programReady_foreign (h : (u.crew c).installing = r :: rest) (h0 : r.replace ≠ 0) (hforeign : r.replace ∉ u.handlesOf c) :
    u.programReady c = (u.takeProgram c rest).programPost c 1 r.cookie 0xFFFF_FFFF := by
  simp only [State.programReady, h, if_neg (fun q : r.replace = 0 ∧ _ => h0 q.1)]
  exact if_pos ⟨h0, by simp [hforeign]⟩

theorem programReady_unreadable {b : Bool × Nat} (h : (u.crew c).installing = r :: rest) (ha : u.admitsProgram c r) (hb : u.badBlock c r = some b) :
    u.programReady c = ((u.takeProgram c rest).unitError b.1 b.2).programPost c 1 r.cookie 0xFFFF_FFFF := by
  simp only [State.programReady, h, if_neg (not_full_of_admits ha), if_neg (not_foreign_of_admits ha), hb]
  rfl

theorem programReady_wrong (h : (u.crew c).installing = r :: rest) (ha : u.admitsProgram c r) (hb : u.badBlock c r = none)
    (hp : u.readProgram c r = none) : u.programReady c = (u.takeProgram c rest).programPost c 1 r.cookie 0xFFFF_FFFF := by
  simp only [State.programReady, h, if_neg (not_full_of_admits ha), if_neg (not_foreign_of_admits ha), hb, hp]
  rfl

theorem programReady_right {p : Program} (h : (u.crew c).installing = r :: rest) (ha : u.admitsProgram c r) (hb : u.badBlock c r = none)
    (hp : u.readProgram c r = some p) :
    u.programReady c =
      ((u.takeProgram c rest).installed c (u.handleFor r) (u.placeFor r) p r.lane).programPost c 0 r.cookie (u.handleFor r) := by
  simp only [State.programReady, h, if_neg (not_full_of_admits ha), if_neg (not_foreign_of_admits ha), hb, hp]
  rfl

/-! ### Programs deleted (05 R122) -/

/-- The handle that the item at the head names. -/
def State.headHandle (u : State) (c : Nat) : Nat := bits ((u.head c).word 0) 47 32

/-- An owned layer's object in effect names a handle. -/
def State.layerNames (u : State) (h : Nat) : Prop := ∃ p ∈ u.layers, p.2.owner.isSome = true ∧ u.lyr p.1 0x1C = h

/-- The programs of a handle are gone, and with them the crew's staged writes of them. -/
def State.withoutProgram (u : State) (c h : Nat) : State :=
  ({ u with programs := u.programs.filter (fun p => decide (p.1 % 0x1_0000 ≠ h)) }).modCrew c (fun k => { k with staged := unstageProgram h k.staged })

/-- The guard of PROGRAM_DELETE: a handle that is not the crew's, or that a layer names. -/
theorem cannotFree_iff (u : State) (c h : Nat) :
    (!(u.handlesOf c).contains h || u.layers.any (fun p => p.2.owner.isSome && decide (u.lyr p.1 0x1C = h))) = true ↔
      h ∉ u.handlesOf c ∨ u.layerNames h := by
  simp only [Bool.or_eq_true, Bool.not_eq_true', List.contains_eq_mem, decide_eq_false_iff_not, List.any_eq_true, Bool.and_eq_true,
    decide_eq_true_eq, State.layerNames]

theorem programDelete_refused (h : u.headHandle c ∉ u.handlesOf c ∨ u.layerNames (u.headHandle c)) :
    u.programDelete c = (u.takeHead c).itemError c 1 (u.headCookie c) :=
  if_pos ((cannotFree_iff u c _).2 h)

theorem programDelete_freed (hh : u.headHandle c ∈ u.handlesOf c) (hn : ¬ u.layerNames (u.headHandle c)) :
    u.programDelete c = (u.takeHead c).withoutProgram c (u.headHandle c) :=
  if_neg (fun q => ((cannotFree_iff u c _).1 q).elim (fun hf => hf hh) hn)

/-! ### Pins (06 R155, R156) -/

/-- What the item at the head pins: 1 a layer's surface, 2 a region. -/
def State.headPin (u : State) (c : Nat) : Nat := bits ((u.head c).word 0) 55 52

/-- The memory in which the item at the head pins a surface; 0xF ends the pin. -/
def State.headMemory (u : State) (c : Nat) : Nat := bits ((u.head c).word 0) 51 48

/-- The crew may pin, and the layer that the item at the head names is its own. -/
def State.pinsLayer (u : State) (c : Nat) : Prop := u.crewRight c 6 = true ∧ (u.layer (u.headLayer c)).owner = some c

/-- The crew may pin, and is crew 0. -/
def State.pinsRegion (u : State) (c : Nat) : Prop := u.crewRight c 6 = true ∧ c = 0

/-- Staged writes without the pin of a layer's surface. -/
def unstagePin (layer : Nat) (l : List Staged) : List Staged :=
  l.filter (fun (e : Staged) => match e with | .surfacePin x _ => decide (x ≠ layer) | _ => true)

/-- A staged write joins its crew's, once `keep` has dropped those that it replaces. -/
def State.stagedWith (u : State) (c : Nat) (keep : List Staged → List Staged) (e : Staged) : State :=
  u.modCrew c (fun k => { k with staged := keep k.staged ++ [e] })

/-- The region pin of an item's word 1. -/
def regionPinOf (v : Nat) : Staged := .regionPin (bits v 50 48) (bits v 47 40) (bits v 39 32) (bits v 15 0)

theorem mayNotPinLayer_iff (u : State) (c : Nat) :
    ((!u.crewRight c 6) = true ∨ (u.layer (u.headLayer c)).owner ≠ some c) ↔ ¬ u.pinsLayer c := by
  rw [Bool.not_eq_true', ← Bool.not_eq_true, State.pinsLayer, Decidable.not_and_iff_not_or_not]

theorem mayNotPinRegion_iff (u : State) (c : Nat) : ((!u.crewRight c 6) = true ∨ c ≠ 0) ↔ ¬ u.pinsRegion c := by
  rw [Bool.not_eq_true', ← Bool.not_eq_true, State.pinsRegion, Decidable.not_and_iff_not_or_not]

/-- The guard of a surface pin's memory: none of the four that a pin may name. -/
theorem noPinPlace_iff (m : Nat) : (!(decide (m ≤ 2) || decide (m = 0xF))) = true ↔ ¬ (m ≤ 2 ∨ m = 0xF) := by
  simp

theorem pinItem_layer (hk : u.headPin c = 1) (hm : u.pinsLayer c) (hp : u.headMemory c ≤ 2 ∨ u.headMemory c = 0xF) :
    u.pinItem c = (u.takeHead c).stagedWith c (unstagePin (u.headLayer c)) (.surfacePin (u.headLayer c) (u.headMemory c)) :=
  (if_pos hk).trans ((if_neg (fun q => (mayNotPinLayer_iff u c).1 q hm)).trans (if_neg (fun q => (noPinPlace_iff _).1 q hp)))

theorem pinItem_otherLayer (hk : u.headPin c = 1) (hm : ¬ u.pinsLayer c) : u.pinItem c = (u.takeHead c).itemError c 5 (u.headCookie c) :=
  (if_pos hk).trans (if_pos ((mayNotPinLayer_iff u c).2 hm))

theorem pinItem_noPlace (hk : u.headPin c = 1) (hm : u.pinsLayer c) (hp : ¬ (u.headMemory c ≤ 2 ∨ u.headMemory c = 0xF)) :
    u.pinItem c = (u.takeHead c).itemError c 7 (u.headCookie c) :=
  (if_pos hk).trans ((if_neg (fun q => (mayNotPinLayer_iff u c).1 q hm)).trans (if_pos ((noPinPlace_iff _).2 hp)))

theorem pinItem_region (hk : u.headPin c = 2) (hr : u.pinsRegion c) :
    u.pinItem c = (u.takeHead c).stagedWith c id (regionPinOf ((u.head c).word 1)) :=
  (if_neg (fun h1 => nomatch h1.symm.trans hk)).trans ((if_pos hk).trans (if_neg (fun q => (mayNotPinRegion_iff u c).1 q hr)))

theorem pinItem_otherRegion (hk : u.headPin c = 2) (hr : ¬ u.pinsRegion c) : u.pinItem c = (u.takeHead c).itemError c 5 (u.headCookie c) :=
  (if_neg (fun h1 => nomatch h1.symm.trans hk)).trans ((if_pos hk).trans (if_pos ((mayNotPinRegion_iff u c).2 hr)))

theorem pinItem_noKind (h1 : u.headPin c ≠ 1) (h2 : u.headPin c ≠ 2) : u.pinItem c = (u.takeHead c).itemError c 7 (u.headCookie c) :=
  (if_neg h1).trans (if_neg h2)

/-- Settles O35: each clause is one command, at its item or its oldest request, and the equation of what that comes to. A step's use of a mesh or
table at offset 0 is refused inside `readProgram` (notes/assumptions/24). -/
theorem programAndPinItems : Obligations.ProgramAndPinItems := by
  unfold Obligations.ProgramAndPinItems
  intro dt c s u v w others
  refine ⟨fun h => ⟨?noRight, ?queued⟩, fun r rest hu h => ⟨?full, ?foreign, fun h0 h1 => ⟨?unreadable, ?wrong, ?right⟩⟩,
    fun h => ⟨?refused, ?freed⟩, fun h => ⟨?layer, ?otherLayer, ?noPlace, ?region, ?otherRegion, ?noKind⟩⟩
  case noRight =>
    intro hr
    rw [exec_programSet h]
    exact congrArg _ (programSet_noRight hr)
  case queued =>
    intro hr
    rw [exec_programSet h]
    exact congrArg _ (programSet_queued hr)
  case full =>
    intro h0 hfull
    rw [exec_programReady hu h]
    exact congrArg _ (programReady_full h h0 hfull)
  case foreign =>
    intro h0 hforeign
    rw [exec_programReady hu h]
    exact congrArg _ (programReady_foreign h h0 hforeign)
  case unreadable =>
    intro b hb
    rw [exec_programReady hu h]
    exact congrArg _ (programReady_unreadable h ⟨h0, h1⟩ hb)
  case wrong =>
    intro hb hp
    rw [exec_programReady hu h]
    exact congrArg _ (programReady_wrong h ⟨h0, h1⟩ hb hp)
  case right =>
    intro p hb hp
    rw [exec_programReady hu h]
    exact congrArg _ (programReady_right h ⟨h0, h1⟩ hb hp)
  case refused =>
    intro hr
    rw [exec_programDelete h]
    exact congrArg _ (programDelete_refused hr)
  case freed =>
    intro hh hn
    rw [exec_programDelete h]
    exact congrArg _ (programDelete_freed hh (fun ⟨p, hp, ho, he⟩ => hn p hp ho he))
  case layer =>
    intro hk hm hp
    rw [exec_pin h]
    exact congrArg _ (pinItem_layer hk hm hp)
  case otherLayer =>
    intro hk hm
    rw [exec_pin h]
    exact congrArg _ (pinItem_otherLayer hk hm)
  case noPlace =>
    intro hk hm hp
    rw [exec_pin h]
    exact congrArg _ (pinItem_noPlace hk hm hp)
  case region =>
    intro hk hr
    rw [exec_pin h]
    exact congrArg _ (pinItem_region hk hr)
  case otherRegion =>
    intro hk hr
    rw [exec_pin h]
    exact congrArg _ (pinItem_otherRegion hk hr)
  case noKind =>
    intro h1 h2
    rw [exec_pin h]
    exact congrArg _ (pinItem_noKind h1 h2)

end Sys2Proof.Machine
end

section
/-! SUPPORT and CERTIFICATE of the plan's upkeep (05 R138, R139, 06 R142, R165, R168 to R170): writebacks, residence copies, shedding, self-tests and
scrubbing. -/

namespace Sys2Proof.Machine

open Sys2Proof

variable {s t u : State} {dt c n l i : Nat}

/-! ### Writebacks (05 R138, R139) -/

section Writeback

theorem writeback_ready (hn : n < 8) (hu : u.running = true) (ha : (u.lane n).wbActive = true) :
    (decide (n < 8) && u.running && (u.lane n).wbActive) = true := by
  rw [decide_eq_true hn, hu, ha]
  rfl

theorem exec_writebackDone (hn : n < 8) (hu : (s.tick dt).running = true) (ha : ((s.tick dt).lane n).wbActive = true) :
    exec (.writebackDone dt n) s = .next ((s.tick dt).writebackDone n) :=
  happen_of_ready (ready := fun t => decide (n < 8) && t.running && (t.lane n).wbActive) (eff := fun t => t.writebackDone n) (writeback_ready hn hu ha)

theorem exec_writebackAbandoned (hn : n < 8) (hu : (s.tick dt).running = true) (ha : ((s.tick dt).lane n).wbActive = true) :
    exec (.writebackAbandoned dt n) s = .next ((s.tick dt).abandonWriteback n) :=
  happen_of_ready (ready := fun t => decide (n < 8) && t.running && (t.lane n).wbActive) (eff := fun t => t.abandonWriteback n) (writeback_ready hn hu ha)

/-- A lane's writeback writes runs into its owner's buffer. -/
def State.wbWrite (u : State) (c n : Nat) (runs : List (Nat × List Byte)) : State × Bool :=
  u.writeRuns c (decide (u.laneNum n 5 4 = 1)) 5 n runs

/-- The buffer that a lane's writeback fills. -/
def State.wbBuffer (u : State) (n : Nat) : Nat := (u.lane n).wbFrames % max 1 (u.laneNum n 5 0xA)

theorem writebackDone_whole (ho : (u.lane n).wbOwner = some c) (hw : u.wbWrite c n (u.wbRuns n) = (t, true)) :
    u.writebackDone n = ((t.modLane n (fun l => { l with wbActive := false, wbFrames := l.wbFrames + 1 })).post c
      (eventWord 0x0C n (u.wbBuffer n) 0 (u.frame n))).pulse (8 + n) := by
  unfold State.wbWrite at hw
  simp only [State.writebackDone, ho, hw]
  rfl

theorem dropWriteback_of_owner (ho : (u.lane n).wbOwner = some c) :
    u.dropWriteback n = (u.modLane n (fun l => { l with wbActive := false, wbAbandoned := l.wbAbandoned + 1 })).post c (eventWord 0xD n 0 0 0) := by
  simp only [State.dropWriteback, ho]

/-- The runs that an abandoned writeback has written: as many as the next free value says (notes/assumptions/106). -/
def State.wbPartial (u : State) (n : Nat) : List (Nat × List Byte) := (u.wbRuns n).take (u.free % ((u.wbRuns n).length + 1))

theorem abandonWriteback_of_active (ha : (u.lane n).wbActive = true) (ho : (u.lane n).wbOwner = some c) :
    u.abandonWriteback n = (u.used.wbWrite c n (u.wbPartial n)).1.dropWriteback n := by
  simp only [State.abandonWriteback, ha, ho]
  rfl

end Writeback

/-! ### Residence copies (06 R142, R144) -/

theorem exec_residenceCopyDone {d : Nat} (hu : (s.tick dt).coxUp = true) (hc : ((s.tick dt).layer l).copying = some d)
    (hh : (s.tick dt).copyHeld l = false) : exec (.residenceCopyDone dt l) s = .next ((s.tick dt).copyDone l) :=
  happen_of_ready (ready := fun t => t.coxUp && (t.layer l).copying.isSome && !t.copyHeld l) (eff := fun t => t.copyDone l) (by
    rw [hu, hc, hh]
    rfl)

/-- A surface that has been copied lives in its new memory. -/
def State.movedTo (u : State) (l d : Nat) : State := u.modLayer l (fun k => { k with residence := d, copying := none })

theorem copyDone_device {d : Nat} (hc : (u.layer l).copying = some d) (hd : d ≠ 3) : u.copyDone l = u.movedTo l d := by
  simp only [State.copyDone, hc, if_neg hd]
  rfl

theorem copyDone_prefetched (hc : (u.layer l).copying = some 3) : u.copyDone l = (u.prefetchLayer u l true []).movedTo l 3 := by
  simp only [State.copyDone, hc]
  rfl

/-! ### Shedding and the self-tests of shells (06 R165, R168) -/

theorem exec_shedEvaluation (hu : (s.tick dt).running = true) : exec (.shedEvaluation dt) s = .next ((s.tick dt).shedEvaluate) :=
  happen_of_ready (ready := State.running) (eff := State.shedEvaluate) hu

theorem running_of_shellReady (h : u.shellReady = true) : u.running = true := by
  simp only [State.shellReady, Bool.and_eq_true] at h
  obtain ⟨⟨hu, -⟩, -⟩ := h
  exact hu

theorem shellDue_of_shellReady (h : u.shellReady = true) : ∃ i, u.shellDue = some i := by
  simp only [State.shellReady, Bool.and_eq_true, Option.any_eq_true] at h
  obtain ⟨-, i, hi, -⟩ := h
  exact ⟨i, hi⟩

theorem exec_shellSelftestStart (h : (s.tick dt).shellReady = true) : exec (.shellSelftestStart dt) s = .next ((s.tick dt).shellStart) :=
  happen_of_ready (ready := fun t => t.running && t.shellReady) (eff := State.shellStart) (by
    rw [running_of_shellReady h, h]
    rfl)

theorem exec_shellSelftestEnd (hu : (s.tick dt).coxUp = true) (h : (s.tick dt).placement.shellTest = some i) (passed : Bool) :
    exec (.shellSelftestEnd dt passed) s = .next ((s.tick dt).shellEnd passed) :=
  happen_of_ready (ready := fun t => t.coxUp && t.placement.shellTest.isSome) (eff := fun t => t.shellEnd passed) (by
    rw [hu, h]
    rfl)

/-- A shell's test is over, and the next shell's turn comes. -/
def State.shellTested (u : State) (i : Nat) : State :=
  u.modPlacement (fun p => { p with shellTest := none, nextShell := (i + 1) % 16, lastShellTest := tabSet p.lastShellTest i u.now })

/-- A shell removed, with its event and its umpire source. -/
def State.shellRemoved (u : State) (i : Nat) : State :=
  ((u.modPlacement (fun p => { p with shellOk := p.shellOk &&& (0xFFFF ^^^ 2 ^ i) })).raise coxStatus [5]).occur (96 + i) i

theorem shellEnd_passed (h : u.placement.shellTest = some i) : u.shellEnd true = u.shellTested i := by
  simp only [State.shellEnd, h]
  rfl

theorem shellEnd_failed (h : u.placement.shellTest = some i) : u.shellEnd false = ((u.shellTested i).shellRemoved i).followShells := by
  simp only [State.shellEnd, h]
  rfl

/-! ### Scrubbing (06 R169) -/

section Scrub

variable {lp5 : Bool} {fixed bad : List Nat}

theorem exec_scrubPass (hu : (s.tick dt).coxUp = true) (hn : n < 8) :
    exec (.scrubPass dt lp5 n fixed bad) s = .next ((s.tick dt).scrub lp5 n fixed bad) :=
  happen_of_ready (ready := fun t => t.coxUp && decide (n < 8)) (eff := fun t => t.scrub lp5 n fixed bad) (by
    rw [hu, decide_eq_true hn]
    rfl)

/-- Corrected units of a pass counted, and remembered for 1 s. -/
def State.withCorrected (u : State) (lp5 : Bool) (n : Nat) (fixed : List Nat) : State :=
  if fixed = [] then u else (u.count (if lp5 then 0x50 else 0x48) fixed.length).modPlacement (fun p =>
    { p with corrections := (p.corrections.filter (fun c => decide (u.now < c.2 + 1_000_000_000))) ++
                            (List.range fixed.length).map (fun _ => (scrubKey lp5 n, u.now)) })

theorem corrected_length (u : State) (lp5 : Bool) (n : Nat) (fixed : List Nat) : u.corrected lp5 n fixed.length = u.withCorrected lp5 n fixed := by
  simp only [State.corrected, State.withCorrected, List.length_eq_zero_iff]

/-- What a pass found: its corrected units counted, its uncorrectable ones told and known from now on. -/
def State.scrubbed (u : State) (lp5 : Bool) (n : Nat) (fixed bad : List Nat) : State :=
  (bad.foldl (fun t x => t.occur ((if lp5 then 120 else 112) + n) x) (u.withCorrected lp5 n fixed)).modPlacement (fun p =>
    { p with badUnits := p.badUnits.filter (fun x => !(decide (x % 2 = b2n lp5) && decide (bits (x / 2) 10 8 = n))) ++ bad.map (badUnit lp5) })

/-- How many units of a channel were corrected within the second before an instant. -/
def State.correctedLately (u : State) (now : Nat) (lp5 : Bool) (n : Nat) : Nat :=
  u.placement.corrections.countP (fun c => decide (c.1 = scrubKey lp5 n) && decide (now < c.2 + 1_000_000_000))

theorem scrub_eq (u : State) (lp5 : Bool) (n : Nat) (fixed bad : List Nat) :
    u.scrub lp5 n fixed bad =
      if bad ≠ [] ∨ 16 ≤ (u.scrubbed lp5 n fixed bad).correctedLately u.now lp5 n then (u.scrubbed lp5 n fixed bad).setRepair lp5 n true
      else if fixed = [] then (u.scrubbed lp5 n fixed bad).setRepair lp5 n false else u.scrubbed lp5 n fixed bad := by
  simp only [State.scrub, corrected_length, decide_eq_true_eq]
  rfl

theorem scrub_repairs (h : bad ≠ [] ∨ 16 ≤ (u.scrubbed lp5 n fixed bad).correctedLately u.now lp5 n) :
    u.scrub lp5 n fixed bad = (u.scrubbed lp5 n fixed bad).setRepair lp5 n true := by
  rw [scrub_eq, if_pos h]

theorem scrub_corrects (hb : bad = []) (hm : ¬ 16 ≤ (u.scrubbed lp5 n fixed bad).correctedLately u.now lp5 n) (hf : fixed ≠ []) :
    u.scrub lp5 n fixed bad = u.scrubbed lp5 n fixed bad := by
  rw [scrub_eq, if_neg (not_or.2 ⟨not_not.2 hb, hm⟩), if_neg hf]

theorem scrub_clean (hb : bad = []) (hm : ¬ 16 ≤ (u.scrubbed lp5 n fixed bad).correctedLately u.now lp5 n) (hf : fixed = []) :
    u.scrub lp5 n fixed bad = (u.scrubbed lp5 n fixed bad).setRepair lp5 n false := by
  rw [scrub_eq, if_neg (not_or.2 ⟨not_not.2 hb, hm⟩), if_pos hf]

end Scrub

/-! ### Requests for a full self-test (06 R170) -/

theorem exec_selftestRequest {dual : Bool} {v : Word} (hu : (s.tick dt).coxUp = true) (h : dual = false ∨ v.toNat = 1) :
    exec (.selftestRequest dt dual v) s = .next ((s.tick dt).askSelftest) := by
  show execSelftestRequest dt dual v s = _
  rw [execSelftestRequest, happen_of_ready hu, if_neg]
  rcases h with h | h <;> simp [h]

/-- A dual-key write of any value but 1 asks for nothing. -/
theorem exec_selftestRequest_otherValue {v : Word} (hu : (s.tick dt).coxUp = true) (h : v.toNat ≠ 1) :
    exec (.selftestRequest dt true v) s = .next (s.tick dt) := by
  show execSelftestRequest dt true v s = _
  rw [execSelftestRequest, happen_of_ready hu, if_pos (by simp [h])]

theorem askSelftest_deferred (h : u.modes.mode ≠ .launch) :
    u.askSelftest = (u.modModes (fun m => { m with selftestAsked := true, selftest := 2 })).raise coxStatus [6] :=
  if_neg h

theorem askSelftest_now (h : u.modes.mode = .launch) (hp : u.planBuilt = true) :
    u.askSelftest = u.modModes (fun m => { m with selftestAsked := true, selftest := 1, step := .planned }) := by
  simp only [State.askSelftest, if_pos h, hp, if_true]

theorem askSelftest_unplanned (h : u.modes.mode = .launch) (hp : u.planBuilt = false) :
    u.askSelftest = u.modModes (fun m => { m with selftestAsked := true }) := by
  simp only [State.askSelftest, if_pos h, hp]
  rfl

/-- Settles O36: each clause is one command, carried out where it is due, and the equation of what that comes to. That an abandoned writeback leaves as many
lines as a free value says is notes/assumptions/106, its event's low word 0 notes/assumptions/63, and what a prefetched copy does at a page without
translation notes/assumptions/99: the model's choices. -/
theorem planUpkeep : Obligations.PlanUpkeep := by
  unfold Obligations.PlanUpkeep
  intro dt n s hn u
  refine ⟨fun c hu ha ho => ⟨?whole, ?abandoned⟩, fun l d hu hc hh => ⟨?device, ?prefetched⟩, exec_shedEvaluation, ?shellStart,
    fun i hu hi => ⟨?passed, ?failed⟩, fun lp5 fixed bad hu => ⟨?repairs, ?corrects, ?clean⟩,
    fun hu dual v hv => ⟨?deferred, ?now, ?unplanned⟩, fun v hu hv => exec_selftestRequest_otherValue hu hv⟩
  case whole =>
    intro t hw
    rw [exec_writebackDone hn hu ha]
    exact congrArg _ (writebackDone_whole ho hw)
  case abandoned =>
    intro runs t ht
    rw [exec_writebackAbandoned hn hu ha, abandonWriteback_of_active ha ho]
    exact congrArg _ (dropWriteback_of_owner ht)
  case device =>
    intro hd
    rw [exec_residenceCopyDone hu hc hh]
    exact congrArg _ (copyDone_device hc hd)
  case prefetched =>
    rintro rfl
    rw [exec_residenceCopyDone hu hc hh]
    exact congrArg _ (copyDone_prefetched hc)
  case shellStart =>
    intro hr
    obtain ⟨i, hi⟩ := shellDue_of_shellReady hr
    refine ⟨i, hi, ?_⟩
    rw [exec_shellSelftestStart hr, State.shellStart, hi]
  case passed =>
    rw [exec_shellSelftestEnd hu hi]
    exact congrArg _ (shellEnd_passed hi)
  case failed =>
    rw [exec_shellSelftestEnd hu hi]
    exact congrArg _ (shellEnd_failed hi)
  case repairs =>
    intro h
    rw [exec_scrubPass hu hn]
    exact congrArg _ (scrub_repairs h)
  case corrects =>
    intro hb hm hf
    rw [exec_scrubPass hu hn]
    exact congrArg _ (scrub_corrects hb hm hf)
  case clean =>
    intro hb hm hf
    rw [exec_scrubPass hu hn]
    exact congrArg _ (scrub_clean hb hm hf)
  case deferred =>
    intro hl
    rw [exec_selftestRequest hu hv]
    exact congrArg _ (askSelftest_deferred hl)
  case now =>
    intro hl hp
    rw [exec_selftestRequest hu hv]
    exact congrArg _ (askSelftest_now hl hp)
  case unplanned =>
    intro hl hp
    rw [exec_selftestRequest hu hv]
    exact congrArg _ (askSelftest_unplanned hl hp)

end Sys2Proof.Machine
end

section
/-! SUPPORT and CERTIFICATE of blits (06 R162, 10 R254, R255, R257, R263, R264): the six items, what the taking of one comes to, and its end. -/

namespace Sys2Proof.Machine

open Sys2Proof

variable {s u : State} {dt c op free fill : Nat} {i : CqItem} {d : Except Abort Drawing}

/-! ### A blit at the head of its crew's queue (10 R254) -/

/-- A head that is of an opcode is an item with that opcode. -/
theorem opOf_head (h : u.headIs c op = true) : opOf ((u.head c).word 0) = op := by
  unfold State.headIs at h
  unfold State.head
  cases hi : u.headItem c with
  | none => simp [hi] at h
  | some i =>
    simp only [hi, Bool.and_eq_true, decide_eq_true_eq] at h
    exact h.2

/-- Every blit command takes the item at the head of its crew's queue. -/
theorem happen_takeBlit (h : (s.tick dt).headIs c op = true) :
    happen dt (fun t => t.headIs c op) (fun t => t.takeBlit c) s = .next ((s.tick dt).takeBlit c) :=
  happen_of_ready h

theorem drawingOf_fill (h : opOf (i.word 0) = 0x10) : u.drawingOf c i free = u.fillDrawing c i := by simp only [State.drawingOf, h]
theorem drawingOf_copy (h : opOf (i.word 0) = 0x11) : u.drawingOf c i free = u.copyDrawing c i := by simp only [State.drawingOf, h]
theorem drawingOf_blendCopy (h : opOf (i.word 0) = 0x12) : u.drawingOf c i free = u.blendCopyDrawing c i free := by simp only [State.drawingOf, h]
theorem drawingOf_rect (h : opOf (i.word 0) = 0x13) : u.drawingOf c i free = u.rectDrawing c i := by simp only [State.drawingOf, h]
theorem drawingOf_line (h : opOf (i.word 0) = 0x14) : u.drawingOf c i free = u.lineDrawing c i := by simp only [State.drawingOf, h]
theorem drawingOf_glyph (h : opOf (i.word 0) = 0x15) : u.drawingOf c i free = u.glyphDrawing c i := by simp only [State.drawingOf, h]

/-- A BLEND_COPY whose source is A8, which has no colour of its own. -/
def CqItem.blendsA8 (i : CqItem) : Prop := opOf (i.word 0) = 0x12 ∧ (surfOf (i.word 3) (i.word 4)).fmt = 0x22

theorem takeBlit_coloured (h : ¬ (u.head c).blendsA8) : u.takeBlit c = u.blitItem c u.free (u.drawingOf c (u.head c) u.free) :=
  congrArg (fun t : State => t.blitItem c u.free (u.drawingOf c (u.head c) u.free)) (if_neg h)

theorem takeBlit_A8 (h : (u.head c).blendsA8) : u.takeBlit c = u.used.blitItem c u.free (u.drawingOf c (u.head c) u.free) :=
  congrArg (fun t : State => t.blitItem c u.free (u.drawingOf c (u.head c) u.free)) (if_pos h)

theorem takeBlit_of_op (h : u.headIs c op = true) (hop : op ≠ 0x12) : u.takeBlit c = u.blitItem c u.free (u.drawingOf c (u.head c) u.free) :=
  takeBlit_coloured (fun hb => hop ((opOf_head h).symm.trans hb.1))

/-! ### What a blit item comes to (10 R254, R255, R257, R263) -/

/-- The item at the head asks for its blit's event. -/
def State.headNotify (u : State) (c : Nat) : Bool := bitOf ((u.head c).word 0) 55

/-- The run of the blit at the head: no block granted or written yet, its sources as memory is now. -/
def State.headRun (u : State) (c fill : Nat) (g : Drawing) : BlitRun :=
  { notify := u.headNotify c, cookie := u.headCookie c, item := u.head c, fill := fill, left := g.blocks, clocks := g.cost, granted := 0, blocks := 0,
    faulted := false, aperture := u.aperture, hostMem := u.hostMem }

theorem blitItem_noRight (h : u.crewRight c 4 = false) : u.blitItem c fill d = (u.takeHead c).itemError c 5 (u.headCookie c) :=
  if_pos (by simp [h])

theorem not_noRight (h : u.crewRight c 4 = true) : ¬ (!u.crewRight c 4) = true := by simp [h]

theorem blitItem_refused {a : Abort} (h : u.crewRight c 4 = true) :
    u.blitItem c fill (.error a) = (u.takeHead c).itemError c a.reason (u.headCookie c) :=
  if_neg (not_noRight h)

theorem blitItem_empty {g : Drawing} (h : u.crewRight c 4 = true) (hg : g.blocks = []) :
    u.blitItem c fill (.ok g) = if u.headNotify c then (u.takeHead c).blitPost c false (u.headCookie c) 0 else u.takeHead c :=
  (if_neg (not_noRight h)).trans (if_pos hg)

theorem blitItem_drawn {g : Drawing} (h : u.crewRight c 4 = true) (hg : g.blocks ≠ []) :
    u.blitItem c fill (.ok g) = ((u.takeHead c).modCrew c (fun k => { k with holding := .blit (u.headRun c fill g) })).shareBlits :=
  (if_neg (not_noRight h)).trans (if_neg hg)

/-! ### The end of a blit (06 R162, 10 R255, R264) -/

theorem blitOf_eq_some {r : BlitRun} (h : (u.crew c).holding = .blit r) : u.blitOf c = some r := by
  simp only [State.blitOf, h]

theorem blitReady_of_granted {r : BlitRun} (h : (u.crew c).holding = .blit r) (hg : r.left.length ≤ r.granted ∨ u.heatsRun = false) :
    u.blitReady c = true := by
  simpa only [State.blitReady, blitOf_eq_some h, Bool.or_eq_true, decide_eq_true_eq, Bool.not_eq_true'] using hg

theorem exec_blitDone {r : BlitRun} (hu : (s.tick dt).running = true) (h : ((s.tick dt).crew c).holding = .blit r)
    (hg : r.left.length ≤ r.granted ∨ (s.tick dt).heatsRun = false) : exec (.blitDone dt c) s = .next ((s.tick dt).blitDone c) :=
  happen_of_ready (ready := fun t => t.running && t.blitReady c) (eff := fun t => t.blitDone c) (by
    rw [hu, blitReady_of_granted h hg]
    rfl)

/-- The crew's queue is free for its next item. -/
def State.blitFreed (u : State) (c : Nat) : State := u.modCrew c (fun x => { x with holding := .idle })

theorem blitDone_written {r0 r : BlitRun} (h0 : (u.crew c).holding = .blit r0) (h : ((u.blitWrite c r0.left.length).crew c).holding = .blit r) :
    u.blitDone c = if r.faulted = true ∨ r.notify = true
      then ((u.blitWrite c r0.left.length).blitFreed c).blitPost c r.faulted r.cookie r.blocks
      else (u.blitWrite c r0.left.length).blitFreed c := by
  simp only [State.blitDone, blitOf_eq_some h0, blitOf_eq_some h, Bool.or_eq_true]
  rfl

/-- Settles O34: each of the six commands takes its item, and the equations of that taking say what it comes to; BLIT_DONE writes the blocks that are
left. Its event after a fault, 0x14, is the BLIT_ABANDONED of 10 R264 and R281. That sources are read as memory is when the item is taken, that blade time
is divided at each item taken, and that an A8 source of BLEND_COPY is coloured by a free value, which the item uses up, are the model's choices
(notes/assumptions/69). -/
theorem blitItems : Obligations.BlitItems := by
  unfold Obligations.BlitItems
  intro dt crew s u i cookie notify after
  have taken : ∀ (n : Nat) (e : Instr) (d : Except Abort Drawing), let v : State := { u with freeCount := u.freeCount + n }
      exec e s = .next (v.blitItem crew u.free d) → after v e d := by
    intro n e d v hx
    refine ⟨?noRight, ?refused, ?empty, ?drawn⟩
    case noRight =>
      intro hr
      rw [hx]
      exact congrArg _ (blitItem_noRight (u := v) hr)
    case refused =>
      rintro hr a rfl
      rw [hx]
      exact congrArg _ (blitItem_refused (u := v) hr)
    case empty =>
      rintro hr g rfl hg
      rw [hx]
      exact congrArg _ (blitItem_empty (u := v) hr hg)
    case drawn =>
      rintro hr g rfl hg
      rw [hx]
      exact congrArg _ (blitItem_drawn (u := v) hr hg)
  have plain : ∀ (op : Nat) (e : Instr), u.headIs crew op = true → op ≠ 0x12 → exec e s = .next (u.takeBlit crew) →
      after u e (u.drawingOf crew i u.free) := fun op e h hop hx => taken 0 e _ (hx.trans (congrArg _ (takeBlit_of_op h hop)))
  refine ⟨?fill, ?copy, ?blendCopy, ?blendCopyA8, ?rect, ?line, ?glyph, ?done⟩
  case fill =>
    intro h
    rw [← drawingOf_fill (opOf_head h)]
    exact plain 0x10 _ h (by decide) (happen_takeBlit h)
  case copy =>
    intro h
    rw [← drawingOf_copy (opOf_head h)]
    exact plain 0x11 _ h (by decide) (happen_takeBlit h)
  case blendCopy =>
    intro h hf
    rw [← drawingOf_blendCopy (opOf_head h)]
    exact taken 0 _ _ ((happen_takeBlit h).trans (congrArg _ (takeBlit_coloured (fun hb => hf hb.2))))
  case blendCopyA8 =>
    intro h hf
    rw [← drawingOf_blendCopy (opOf_head h)]
    exact taken 1 _ _ ((happen_takeBlit h).trans (congrArg _ (takeBlit_A8 ⟨opOf_head h, hf⟩)))
  case rect =>
    intro h
    rw [← drawingOf_rect (opOf_head h)]
    exact plain 0x13 _ h (by decide) (happen_takeBlit h)
  case line =>
    intro h
    rw [← drawingOf_line (opOf_head h)]
    exact plain 0x14 _ h (by decide) (happen_takeBlit h)
  case glyph =>
    intro h
    rw [← drawingOf_glyph (opOf_head h)]
    exact plain 0x15 _ h (by decide) (happen_takeBlit h)
  case done =>
    intro r0 r hu h0 hg t h w
    rw [exec_blitDone hu h0 hg]
    exact congrArg _ (blitDone_written h0 h)

end Sys2Proof.Machine
end

section
/-! SUPPORT and CERTIFICATE of host ports (06 R142, 11 R287, R289, R317): PERST, readiness, links and functions. -/

namespace Sys2Proof.Machine

open Sys2Proof

variable {s u : State} {dt p lanes speed n : Nat} {on : Bool}

/-- The command of a host port acts where both of its conditions hold. -/
theorem port_ready {a b : Bool} (hp : p < 4) (ha : a = true) (hb : b = true) : (decide (p < 4) && a && b) = true := by simp [hp, ha, hb]

/-! ### PERST and readiness (11 R287) -/

theorem exec_perstAssert (hp : p < 4) (hu : (s.tick dt).awake = true) (h : ((s.tick dt).port p).perst = false) :
    exec (.perstAssert dt p) s = .next ((s.tick dt).assertPerst p) :=
  happen_of_ready (ready := fun t => decide (p < 4) && t.awake && !(t.port p).perst) (eff := fun t => t.assertPerst p)
    (port_ready hp hu ((Bool.not_eq_true' _).mpr h))

theorem exec_perstDeassert (hp : p < 4) (hu : (s.tick dt).awake = true) (h : ((s.tick dt).port p).perst = true) :
    exec (.perstDeassert dt p) s = .next ((s.tick dt).deassertPerst p) :=
  happen_of_ready (ready := fun t => decide (p < 4) && t.awake && (t.port p).perst) (eff := fun t => t.deassertPerst p) (port_ready hp hu h)

/-- A port that is ready no longer answers with retries. -/
def State.endRetries (u : State) (p : Nat) : State := u.modPort p (fun y => { y with crs := false })

theorem exec_portReady (hp : p < 4) (hu : (s.tick dt).configured = true) (hc : ((s.tick dt).port p).crs = true)
    (h : ((s.tick dt).port p).perst = false) : exec (.portReady dt p) s = .next ((s.tick dt).endRetries p) :=
  happen_of_ready (ready := fun t => decide (p < 4) && t.configured && (t.port p).crs && !(t.port p).perst) (eff := fun t => t.endRetries p)
    (by rw [port_ready hp hu hc, (Bool.not_eq_true' _).mpr h]; rfl)

/-! ### Links (06 R142, 11 R317) -/

theorem exec_hostLinkDown (hp : p < 4) (hu : (s.tick dt).awake = true) (h : ((s.tick dt).port p).linkUp = true) :
    exec (.hostLinkDown dt p) s = .next ((s.tick dt).linkDown p) :=
  happen_of_ready (ready := fun t => decide (p < 4) && t.awake && (t.port p).linkUp) (eff := fun t => t.linkDown p) (port_ready hp hu h)

theorem exec_hostLinkUp (hp : p < 4) (hu : (s.tick dt).portUp p = true) (h : ((s.tick dt).port p).linkUp = false) :
    exec (.hostLinkUp dt p lanes speed) s = .next ((s.tick dt).linkUp p lanes speed) :=
  happen_of_ready (ready := fun t => decide (p < 4) && t.portUp p && !(t.port p).linkUp) (eff := fun t => t.linkUp p lanes speed)
    (port_ready hp hu ((Bool.not_eq_true' _).mpr h))

theorem exec_linkRetrain (hp : p < 4) (hu : (s.tick dt).awake = true) (h : ((s.tick dt).port p).linkUp = true) :
    exec (.linkRetrain dt p lanes speed) s = .next ((s.tick dt).retrain p lanes speed) :=
  happen_of_ready (ready := fun t => decide (p < 4) && t.awake && (t.port p).linkUp) (eff := fun t => t.retrain p lanes speed)
    (port_ready hp hu h)

theorem retrain_same (hl : (u.port p).lanes = lanes % 16) (hs : (u.port p).speed = speed % 8) : u.retrain p lanes speed = u :=
  if_pos ⟨hl, hs⟩

/-- A link of another width or speed raises its change; the plan, whose outputs it cannot move, stays. -/
theorem retrain_changed (h : (u.port p).lanes ≠ lanes % 16 ∨ (u.port p).speed ≠ speed % 8) :
    u.retrain p lanes speed = (u.modPort p (fun y => { y with lanes := lanes % 16, speed := speed % 8 })).raise (hostStatus p) [2] :=
  (if_neg (not_and_or.2 h)).trans (if_neg (not_not.2 (planOutputs_retrain u p (lanes % 16) (speed % 8) []).symm))

/-! ### Functions on the bus (11 R289) -/

theorem exec_vfEnableChange (hp : p < 4) (hu : (s.tick dt).portUp p = true) (h : ((s.tick dt).port p).linkUp = true) :
    exec (.vfEnableChange dt p on n) s = .next ((s.tick dt).changeVfs p on n) :=
  happen_of_ready (ready := fun t => decide (p < 4) && t.portUp p && (t.port p).linkUp) (eff := fun t => t.changeVfs p on n) (port_ready hp hu h)

/-- Settles O43: each clause is one command of a port, carried out where it is due; only a retrained link needs an argument of its own, that its width
and speed move no output of the plan (`planOutputs_retrain`). That a pop which waits ends with the port's link (notes/assumptions/87), that PERST clears VF
Enable (notes/assumptions/84), and that it acts whenever the device is awake (notes/assumptions/55) are the model's choices. -/
theorem hostPorts : Obligations.HostPorts := by
  unfold Obligations.HostPorts
  intro dt p s hp u x down
  refine ⟨exec_perstAssert hp, exec_perstDeassert hp, exec_portReady hp, exec_hostLinkDown hp, fun _ _ => exec_hostLinkUp hp,
    fun lanes speed hu h => ⟨?same, ?changed⟩, fun _ _ => exec_vfEnableChange hp⟩
  case same =>
    intro hl hs
    rw [exec_linkRetrain hp hu h]
    exact congrArg _ (retrain_same hl hs)
  case changed =>
    intro hne
    rw [exec_linkRetrain hp hu h]
    exact congrArg _ (retrain_changed hne)

end Sys2Proof.Machine
end

section
/-! SUPPORT and CERTIFICATES of a lane's own events (07 R178 to R185, R195, 08 R206 to R213): what they leave unchanged, and what frame starts, front
porches and self-refresh do. -/

namespace Sys2Proof

open Sys2Proof.Machine

variable {a s : State} {n : Nat}

/-! ### What each effect on lane `n` leaves outside it -/

theorem OnlyLane.porchMin (h : OnlyLane n a s) : OnlyLane n a (s.porchMin n) := h.modLane _

theorem OnlyLane.hpdRises (h : OnlyLane n a s) : OnlyLane n a (s.hpdRises n) := h.modLane _

theorem OnlyLane.enterRefresh (h : OnlyLane n a s) : OnlyLane n a (s.enterRefresh n) :=
  (((OnlyLane.ite (h.send _) h).modLane _).raise _ _).count _ _

theorem OnlyLane.stallPort (h : OnlyLane n a s) (line x k : Nat) : OnlyLane n a (s.stallPort n line x k false) :=
  stallPort_correctable s n line x k ▸ ((h.count _ _).raise _ _).modLane _

/-- A training attempt that succeeds raises the link, where a candidate is left. -/
theorem OnlyLane.trainOnce (h : OnlyLane n a s) : OnlyLane n a (s.trainOnce n true) := by
  unfold State.trainOnce
  cases (s.lane n).candidates with
  | nil => exact h
  | cons p rest => exact h.raiseLink _ _

theorem OnlyLane.powerPanel (h : OnlyLane n a s) : OnlyLane n a (s.powerPanel n) := .ite (h.send _) h

theorem OnlyLane.compressionMode (h : OnlyLane n a s) : OnlyLane n a (s.compressionMode n) := .ite h (h.send _).sendPps

theorem OnlyLane.initialDeskew (h : OnlyLane n a s) : OnlyLane n a (s.initialDeskew n) := .ite ((h.send _).modLane _) h

theorem OnlyLane.dsiBringup (h : OnlyLane n a s) (e : Bool) : OnlyLane n a (s.dsiBringup n e) := by
  have sent : ∀ ps : List (List Byte), OnlyLane n a (ps.foldl (fun t p => t.send (.dsiPacket n p)) ((s.powerPanel n).send (.portIdle n))) :=
    fun ps => .fold ps _ (fun _ _ g => g.send _) _ (h.powerPanel.send _)
  exact ((OnlyLane.ite ((sent _).raise _ _) (sent _)).compressionMode.initialDeskew.modLane _).raiseLink _ _

/-- The queued packet goes out, and with it a turnaround's answer comes in. -/
theorem OnlyLane.sendDsi (h : OnlyLane n a s) (answer : Option (List Byte)) : OnlyLane n a (s.sendDsi n answer) := by
  unfold State.sendDsi
  cases (s.lane n).dsiCmd with
  | none => exact h
  | some p =>
    have sent : OnlyLane n a ((s.modLane n (fun l => { l with dsiCmd := none })).send (.dsiPacket n p)) := (h.modLane _).send _
    cases answer with
    | none => exact .ite sent sent
    | some r => exact .ite (.ite ((sent.modLane _).raise _ _) (sent.modLane _)) sent

end Sys2Proof

namespace Sys2Proof.Machine

open Sys2Proof

variable {s u : State} {n dt : Nat}

/-! ### Commands that change their lane only -/

/-- A command of a lane that keeps everything outside it, and is met after what was due there. -/
theorem onlyLane_happenOn {c : Instr} {ready : State → Bool} {eff : State → State} (hx : exec c s = happenOn dt n ready eff s)
    (he : ∀ t, OnlyLane n t (eff t)) : ∃ t, exec c s = .next t ∧ (OnlyLane n s t ∨ OnlyLane n (s.meet dt n) t) := by
  rw [hx, happenOn_eq]
  refine ⟨_, rfl, ?_⟩
  split
  · exact .inr (he _)
  · exact .inl (.tick dt)

/-- A command that keeps everything outside a lane, and is met with nothing before it. -/
theorem onlyLane_happen {c : Instr} {ready : State → Bool} {eff : State → State} (hx : exec c s = happen dt ready eff s)
    (he : ∀ t, OnlyLane n s t → OnlyLane n s (eff t)) : ∃ t, exec c s = .next t ∧ (OnlyLane n s t ∨ OnlyLane n (s.meet dt n) t) :=
  ⟨_, hx, .inl (.ite (he _ (.tick dt)) (.tick dt))⟩

/-- Settles O28: each command has its effect on its lane, or lets its time pass alone (notes/assumptions/7), and each effect keeps what is outside the lane.
That what was due on the lane comes before the command's own effect is the model's choice (notes/assumptions/97). -/
theorem laneEventsChangeTheirLaneOnly : Obligations.LaneEventsChangeTheirLaneOnly := by
  unfold Obligations.LaneEventsChangeTheirLaneOnly
  intro dt n line x k rising answer s
  simp only [List.forall_mem_cons]
  refine ⟨?frameStart, ?porchMin, ?heatComplete, ?selfRefresh, ?stall, ?hpd, ?training, ?dsiBringup, ?te, ?dsiSend, ?pwm, List.forall_mem_nil _⟩
  case frameStart => exact onlyLane_happenOn (rfl : _ = execFrameStart dt n s) (fun _ => OnlyLane.rfl'.beginFrame false)
  case porchMin => exact onlyLane_happenOn (rfl : _ = execVrrPorchMin dt n s) (fun _ => OnlyLane.rfl'.porchMin)
  case heatComplete => exact onlyLane_happenOn (rfl : _ = execHeatComplete dt n s) (fun _ => OnlyLane.rfl'.modLane _)
  case selfRefresh => exact onlyLane_happenOn (rfl : _ = execSelfRefreshEntry dt n s) (fun _ => OnlyLane.rfl'.enterRefresh)
  case stall => exact onlyLane_happenOn (rfl : _ = execPortStall dt n line x k false s) (fun _ => OnlyLane.rfl'.stallPort line x k)
  case hpd => exact onlyLane_happen (rfl : _ = execHpdRise dt n s) (fun _ h => h.hpdRises)
  case training => exact onlyLane_happenOn (rfl : _ = execLinkTrainingAttempt dt n true s) (fun _ => OnlyLane.rfl'.trainOnce)
  case dsiBringup => exact onlyLane_happenOn (rfl : _ = execDsiBringup dt n rising s) (fun _ => OnlyLane.rfl'.dsiBringup rising)
  case te => exact onlyLane_happenOn (rfl : _ = execTeEdge dt n rising s) (fun _ => OnlyLane.rfl'.modLane _)
  case dsiSend => exact onlyLane_happen (rfl : _ = execDsiCmdSend dt n answer s) (fun _ h => h.sendDsi answer)
  case pwm => exact onlyLane_happen (rfl : _ = execBlpwmPeriodStart dt n s) (fun _ h => h.pwmPeriod)

/-! ### What a frame start leaves of counters, and what its last steps leave of the lane (07 R180, 08 R213, 16 R417) -/

/-- What no step of a fold changes, the fold does not change. -/
theorem foldl_unchanged {α β : Type} {f : State → α → State} {g : State → β} (xs : List α) (s : State) (hf : ∀ t x, g (f t x) = g t) :
    g (xs.foldl f s) = g s := by
  induction xs generalizing s with
  | nil => rfl
  | cons x xs ih => rw [List.foldl_cons, ih, hf]

theorem dropKept_counts (s : State) (n : Nat) : (s.dropKept n).counts = s.counts := by
  unfold State.dropKept
  split <;> rfl

theorem genlockLoss_counts (s : State) (n : Nat) : (s.genlockLoss n).counts = s.counts := by
  unfold State.genlockLoss
  split <;> rfl

theorem genlockFrame_counts (s : State) (n : Nat) : (s.genlockFrame n).counts = s.counts := by
  unfold State.genlockFrame
  rcases s.sourceStart n with _ | _ | t
  · rfl
  · exact genlockLoss_counts s n
  · dsimp only
    split
    · rw [State.modLane_counts]
      split <;> rfl
    · rfl

theorem followStep_counts (s : State) (n : Nat) : (s.followStep n).counts = s.counts := by
  unfold State.followStep
  split <;> rfl

theorem sendPps_counts (s : State) (n : Nat) : (s.sendPps n).counts = s.counts := by
  unfold State.sendPps
  split
  · rfl
  · split <;> rfl

theorem sendDeskew_counts (s : State) (n : Nat) : (s.sendDeskew n).counts = s.counts := by
  unfold State.sendDeskew
  split <;> rfl

theorem sendFrame_counts (s : State) (n : Nat) : (s.sendFrame n).counts = s.counts := by
  have packets (t : State) (ps : List (List Byte)) : (ps.foldl (fun v p => v.send (.dsiPacket n p)) t).counts = t.counts :=
    foldl_unchanged (g := State.counts) ps t (fun _ _ => rfl)
  unfold State.sendFrame
  split
  · rfl
  · dsimp only
    rw [State.send_counts]
    split
    · rw [packets, sendDeskew_counts, sendPps_counts]
    · rw [sendDeskew_counts, sendPps_counts]

theorem quietCounts_counts (s : State) (n : Nat) : (s.quietCounts n).counts = s.counts :=
  foldl_unchanged (g := State.counts) (s.layersOn n) s (fun _ _ => rfl)

theorem pwmPeriod_counts (s : State) (n : Nat) : (s.pwmPeriod n).counts = s.counts := by
  unfold State.pwmPeriod
  dsimp only
  split <;> rfl

/-- A period of the backlight takes its settings into the lane. -/
theorem lane_pwmPeriod (s : State) (n : Nat) :
    (s.pwmPeriod n).lane n =
      { s.lane n with blPeriod := s.laneNum n 7 0xD, blDuty := s.laneNum n 7 0xE, blInvert := bitOf (s.laneNum n 7 0xF) 1 } := by
  unfold State.pwmPeriod
  dsimp only
  split
  · rw [State.lane_modLane, if_pos rfl]
  · rw [State.send_lane, State.lane_modLane, if_pos rfl]

theorem sendMarkers_unchanged {β : Type} {g : State → β} (hg : ∀ (t : State) o, g (t.send o) = g t) (s : State) (n : Nat) :
    g (s.sendMarkers n) = g s := by
  unfold State.sendMarkers
  split
  · refine foldl_unchanged _ s (fun t k => ?_)
    split
    · exact hg t _
    · rfl
  · rfl

/-! ### Frame starts (07 R180, R191) -/

/-- A lane whose frame begins now: its front porch is open anew, with the timing of the frame and the last pixel that was sent. -/
structure FrameBegun (l : Lane) (now : Nat) (timing : Tab Val) (last : Nat) : Prop where
  frameAt : l.frameAt = now
  timing : l.timing = some timing
  frameDue : l.frameDue = false
  porch : l.porch = false
  porchExtended : l.porchExtended = false
  porchCaught : l.porchCaught = false
  sStart : l.sStart = none
  stalls : l.stalls = []
  lastPixel : l.lastPixel = last

theorem beginFrame_frameBegun (s : State) (n : Nat) :
    FrameBegun ((s.beginFrame n false).lane n) s.now (s.frameTiming n) (s.sentPixel n (s.laneW n - 1) (s.laneH n - 1)) := by
  unfold State.beginFrame
  dsimp only
  rw [sendMarkers_unchanged (g := fun t => t.lane n) (fun _ _ => rfl)]
  split
  · rw [lane_pwmPeriod, State.lane_modLane, if_pos rfl]
    constructor <;> rfl
  · rw [State.lane_modLane, if_pos rfl]
    constructor <;> rfl

/-- What a frame start has done before its count leaves the counters. -/
theorem frameSent_counts (s : State) (n : Nat) : ((((s.dropKept n).genlockFrame n).followStep n).sendFrame n).counts = s.counts := by
  rw [sendFrame_counts, followStep_counts, genlockFrame_counts, dropKept_counts]

theorem beginFrame_counts (s : State) (n : Nat) (restart : Bool) : (s.beginFrame n restart).counts = (s.count (laneCount n 0) 1).counts := by
  unfold State.beginFrame
  dsimp only
  rw [sendMarkers_unchanged (g := State.counts) (fun _ _ => rfl)]
  split
  · rw [pwmPeriod_counts, State.modLane_counts, quietCounts_counts, State.count_counts, frameSent_counts, State.count_counts]
  · rw [State.modLane_counts, quietCounts_counts, State.count_counts, frameSent_counts, State.count_counts]

theorem counter_count_same (s : State) (o k : Nat) : (s.count o k).counter o = s.counter o + k := by
  unfold State.counter
  rw [State.count_counts, tabGet_tabMod, if_pos rfl]

/-- A frame start counts its frame once. -/
theorem beginFrame_counter (s : State) (n : Nat) (restart : Bool) :
    (s.beginFrame n restart).counter (laneCount n 0) = s.counter (laneCount n 0) + 1 := by
  rw [← counter_count_same, State.counter, beginFrame_counts, State.counter]

theorem exec_frameStart (hn : n < 8) (h : (s.meet dt n).frameReady n = true) :
    exec (.frameStart dt n) s = .next ((s.meet dt n).beginFrame n false) :=
  happenOn_ready (ready := fun t => t.frameReady n) (eff := fun t => t.beginFrame n false) hn h

/-! ### Front porches (07 R182 to R185) -/

theorem exec_vrrPorchMin (hn : n < 8) (h : (s.meet dt n).porchMinReady n = true) :
    exec (.vrrPorchMin dt n) s = .next ((s.meet dt n).porchMin n) :=
  happenOn_ready (ready := fun t => t.porchMinReady n) (eff := fun t => t.porchMin n) hn h

/-- The minimum front porch extends the porch where no content is ready. -/
theorem porchMin_of_contentReady {b : Bool} (h : u.contentReady n = b) :
    u.porchMin n = u.modLane n (fun l => { l with porch := true, porchExtended := !b }) :=
  h ▸ rfl

theorem exec_vrrMaxFrontPorch (hn : n < 8) (h : (s.meet dt n).porchOpen n = true) :
    exec (.vrrMaxFrontPorch dt n) s = .next ((s.meet dt n).porchMax n) :=
  happenOn_ready (ready := fun t => t.porchOpen n) (eff := fun t => t.porchMax n) hn h

theorem porchMax_lead (h : u.lead n = true) : u.porchMax n = (u.repeatFrame n).catchLane n false := if_pos h

theorem porchMax_command (hl : u.lead n = false) (hc : u.commandMode n = true) :
    u.porchMax n = (u.raise (portStatus n) [5]).modLane n (fun l => { l with frameDue := true }) := by
  rw [State.porchMax, hl, if_neg Bool.false_ne_true, if_pos hc]

theorem porchMax_caught (hl : u.lead n = false) (hc : u.commandMode n = false) (hp : (u.lane n).porchCaught = true) :
    u.porchMax n = u.modLane n (fun l => { l with porchMaxed := true, frameDue := true }) := by
  rw [State.porchMax, hl, hc, if_neg Bool.false_ne_true, if_neg Bool.false_ne_true, if_pos hp]

theorem porchMax_chase (hl : u.lead n = false) (hc : u.commandMode n = false) (hp : (u.lane n).porchCaught = false) :
    u.porchMax n = (u.repeatFrame n).modLane n (fun l => { l with porchMaxed := true }) := by
  rw [State.porchMax, hl, hc, hp, if_neg Bool.false_ne_true, if_neg Bool.false_ne_true, if_neg Bool.false_ne_true]

/-- A caught porch is ready where its heat has written or abandoned every tile. -/
theorem heatReady_of_composed (hs : (u.lane n).scans = true) (hg : (u.lane n).gated = false) (hc : (u.lane n).porchCaught = true)
    (hd : (u.lane n).frameDue = false) (ht : ∀ t ∈ (u.lane n).heat.tiles, t ∈ (u.lane n).heat.written ∨ t ∈ (u.lane n).heat.abandoned) :
    u.heatReady n = true := by
  have composed : (u.lane n).heat.tiles.all (fun t => (u.lane n).heat.written.contains t || (u.lane n).heat.abandoned.contains t) = true :=
    List.all_eq_true.2 (fun t h => by simpa using ht t h)
  rw [State.heatReady, hs, hg, hc, hd, composed]
  rfl

theorem exec_heatComplete (hn : n < 8) (h : (s.meet dt n).heatReady n = true) :
    exec (.heatComplete dt n) s = .next ((s.meet dt n).modLane n (fun l => { l with frameDue := true })) :=
  happenOn_ready (ready := fun t => t.heatReady n) (eff := fun t => t.modLane n (fun l => { l with frameDue := true })) hn h

/-! ### Self-refresh (07 R195, 08 R209) -/

theorem exec_selfRefreshEntry (hn : n < 8) (h : (s.meet dt n).refreshReady n = true) :
    exec (.selfRefreshEntry dt n) s = .next ((s.meet dt n).enterRefresh n) :=
  happenOn_ready (ready := fun t => t.refreshReady n) (eff := fun t => t.enterRefresh n) hn h

/-- Settles O26: each clause is one command on the lane as it is met, and the equation of the frame start, porch or self-refresh that it carries out. That
what was due on the lane comes before the command's own effect is the model's choice (notes/assumptions/97). -/
theorem frameStartsAndPorches : Obligations.FrameStartsAndPorches := by
  unfold Obligations.FrameStartsAndPorches
  intro dt n s hn u again
  refine ⟨?start, ?porchMin, ?porchMax, ?composed, ?refresh⟩
  case start =>
    intro h
    obtain ⟨hat, htiming, hdue, hporch, hextended, hcaught, hs, hstalls, hlast⟩ := beginFrame_frameBegun u n
    exact ⟨_, exec_frameStart hn h, rfl, beginFrame_counter u n false, hat, htiming, hdue, hporch, hextended, hcaught, hs, hstalls, hlast⟩
  case porchMin =>
    intro h
    rw [exec_vrrPorchMin hn h]
    exact ⟨fun hc => congrArg _ (porchMin_of_contentReady hc), fun hc => congrArg _ (porchMin_of_contentReady hc)⟩
  case porchMax =>
    intro h
    rw [exec_vrrMaxFrontPorch hn h]
    exact ⟨fun hl => congrArg _ (porchMax_lead hl), fun hl hc => congrArg _ (porchMax_command hl hc),
      fun hl hc hp => congrArg _ (porchMax_caught hl hc hp), fun hl hc hp => congrArg _ (porchMax_chase hl hc hp)⟩
  case composed =>
    intro hs hg hc hd ht
    exact exec_heatComplete hn (heatReady_of_composed hs hg hc hd ht)
  case refresh => exact exec_selfRefreshEntry hn

end Sys2Proof.Machine
end

section
/-! SUPPORT and CERTIFICATE of camera packets (07 R176, 09 R232, R233, R236 to R239, R241, R244): what a packet comes to by its header, lines, the start and
the end of a frame, landed lines, and lost streams. -/

namespace Sys2Proof.Machine

open Sys2Proof

variable {s u w : State} {dt p vc v h i k line : Nat}

/-! ### Packets by their headers (09 R233) -/

/-- A corrected header is counted. -/
def State.countCorrected (u : State) (p : Nat) : State := u.modCam p (fun c => { c with headerCorrected := c.headerCorrected + 1 })

/-- A packet whose header cannot be corrected is counted, raised and the port's umpire source, and not used. -/
def State.loseHeader (u : State) (p : Nat) : State :=
  ((u.modCam p (fun c => { c with headerErrors := c.headerErrors + 1 })).raise (camStatus p) [5]).occur (24 + p) p

theorem packet_lost (f : State → State) : u.packet p 2 f = u.loseHeader p := rfl

/-- A packet with a good or a corrected header is used, in the state in which a corrected one is counted. -/
theorem packet_used (f : State → State) (hw : (h = 0 ∧ w = u) ∨ (h = 1 ∧ w = u.countCorrected p)) : u.packet p h f = f w := by
  rcases hw with ⟨rfl, rfl⟩ | ⟨rfl, rfl⟩ <;> rfl

theorem port_takes (hp : p < 8) (hv : vc < 16) (hu : u.camReady p = true) : (decide (p < 8) && decide (vc < 16) && u.camReady p) = true := by
  simp [hp, hv, hu]

theorem exec_csiFrameStart (hp : p < 8) (hv : vc < 16) (hu : (s.tick dt).camReady p = true) :
    exec (.csiFrameStart dt p ⟨vc, h⟩) s = .next ((s.tick dt).packet p h (fun t => t.csiStart p vc)) :=
  happen_of_ready (ready := fun t => decide (p < 8) && decide (vc < 16) && t.camReady p)
    (eff := fun t => t.packet p h (fun u => u.csiStart p vc)) (port_takes hp hv hu)

theorem exec_csiFrameEnd (hp : p < 8) (hv : vc < 16) (hu : (s.tick dt).camReady p = true) :
    exec (.csiFrameEnd dt p ⟨vc, h⟩) s = .next ((s.tick dt).packet p h (fun t => t.csiEnd p vc)) :=
  happen_of_ready (ready := fun t => decide (p < 8) && decide (vc < 16) && t.camReady p)
    (eff := fun t => t.packet p h (fun u => u.csiEnd p vc)) (port_takes hp hv hu)

theorem exec_csiLongPacket {ty : Nat} {e : Bool} {xs : List Nat} (hp : p < 8) (hv : vc < 16) (hu : (s.tick dt).camReady p = true) :
    exec (.csiLongPacket dt p vc ty h e xs) s = .next ((s.tick dt).packet p h (fun t => t.longPacket p vc ty e xs)) :=
  happen_of_ready (ready := fun t => decide (p < 8) && decide (vc < 16) && t.camReady p)
    (eff := fun t => t.packet p h (fun u => u.longPacket p vc ty e xs)) (port_takes hp hv hu)

/-! ### Long packets by their data types (09 R232, R236) -/

theorem longPacket_aside (e : Bool) (xs : List Nat) : u.longPacket p vc 0x12 e xs = u := rfl

theorem longPacket_unexpected {ty : Nat} {e : Bool} {xs : List Nat} (ht : ty ≠ 0x12) (hf : formatOfType ty = none) :
    u.longPacket p vc ty e xs = (u.modCam p (fun c => { c with dtDrops := c.dtDrops + 1 })).raise (camStatus p) [6] := by
  rw [State.longPacket, if_neg ht, hf]

/-- The port with a line's CRC error, if it has one, counted and raised. -/
def State.judgeCrc (u : State) (p : Nat) (e : Bool) : State :=
  if e then (u.modCam p (fun c => { c with crcErrors := c.crcErrors + 1 })).raise (camStatus p) [4] else u

/-- A line goes to the open frames of its virtual channel and format. -/
theorem longPacket_line {ty f : Nat} {e : Bool} {xs : List Nat} (hf : formatOfType ty = some f) :
    u.longPacket p vc ty e xs =
      (((u.judgeCrc p e).slotsAt p vc).filter (fun i => decide ((u.judgeCrc p e).slotNum i 3 = f))).foldl (fun t i => t.takeLine e xs i) (u.judgeCrc p e) := by
  have ht : ty ≠ 0x12 := by
    rintro rfl
    cases hf
  rw [State.longPacket, if_neg ht, hf]
  rfl

/-! ### Frame starts (09 R236, R237, R241) -/

/-- A slot as a frame start judges it: with the ring that its plan gives it and the processing of its stream. -/
def State.prepareSlot (u : State) (k : Nat) : State := (u.setRing k).modSlot k (fun q => { q with processing := u.processingOf k })

/-- A frame start that is not too soon: the stream streams. -/
def State.acceptStart (u : State) (k : Nat) : State := (u.prepareSlot k).modSlot k (fun q => { q with startedAt := some u.now, mode := .streaming })

/-- A frame opened in the place of its ring that is free. -/
def State.openFrame (u : State) (k : Nat) : State :=
  (u.acceptStart k).modSlot k (fun q =>
    { q with isOpen := true, crc := false, long := false, linesReceived := 0, landed := 0, lineStartAt := none, lineSum := 0,
             ringBase := q.ringPos, frameSlot := (((u.acceptStart k).slot k).freeSlot).getD 0, starts := q.starts + 1,
             filled := if q.ring % 4 = 0 then q.filled else tabSet q.filled ((((u.acceptStart k).slot k).freeSlot).getD 0) (q.starts + 1) })

theorem startFrame_tooSoon (ho : (u.slot k).isOpen = false) (ht : (u.prepareSlot k).tooSoon k = true) :
    u.startFrame k = (u.prepareSlot k).dropFrame k := by
  unfold State.prepareSlot at ht ⊢
  simp only [State.startFrame, ho, ht, if_true, Bool.false_eq_true, if_false]

theorem startFrame_opened (ho : (u.slot k).isOpen = false) (ht : (u.prepareSlot k).tooSoon k = false)
    (hf : ((u.acceptStart k).slot k).ring % 4 = 0 ∨ ((u.acceptStart k).slot k).freeSlot ≠ none) :
    u.startFrame k = ((u.openFrame k).lockSeekers (u.slotNum k 1)).foldl State.scheduleLane ((u.openFrame k).fwdFrame k) := by
  have hroom : ¬ (((u.acceptStart k).slot k).ring % 4 ≠ 0 ∧ ((u.acceptStart k).slot k).freeSlot = none) := by tauto
  unfold State.openFrame
  unfold State.acceptStart State.prepareSlot at hroom ⊢
  unfold State.prepareSlot at ht
  simp only [State.startFrame, ho, ht, if_false, Bool.false_eq_true, if_neg hroom]

theorem csiStart_one (hs : u.slotsAt p vc = [i]) : u.csiStart p vc = u.startFrame i := by
  rw [State.csiStart, hs]
  rfl

/-! ### Frame ends (09 R236, R238) -/

theorem csiEnd_one (hs : u.slotsAt p vc = [i]) (ho : (u.slot i).isOpen = true) : u.csiEnd p vc = u.endFrame i false := by
  rw [State.csiEnd, hs]
  exact if_pos ho

/-- A SHORT frame of fewer than two lines, which measures no line period. -/
theorem endFrame_short (h2 : (u.slot k).linesReceived < 2) (hs : (u.slot k).linesReceived < u.streamH k) :
    u.endFrame k false =
      ((u.lockedTo (u.slotNum k 1)).foldl State.cutLane
        ((((u.modSlot k (fun q => { q with isOpen := false, lastFlags := 1 + 2 * b2n q.long + 4 * b2n q.crc })).count (camCount (k / 4) 0x10) 1).raise
          (camStatus (k / 4)) [1]).camFault k)).fwdFail k (u.slot k).starts 1 := by
  have closed : u.modSlot k (fun r => { r with
        isOpen := false, lastFlags := b2n true + 2 * b2n (u.slot k).long + 4 * b2n (u.slot k).crc + 8 * b2n false,
        linePeriod := if 2 ≤ r.linesReceived then min 0xFF_FFFF (r.lineSum * 16 / (r.linesReceived - 1)) else r.linePeriod }) =
      u.modSlot k (fun q => { q with isOpen := false, lastFlags := 1 + 2 * b2n q.long + 4 * b2n q.crc }) :=
    modSlot_congr (by rw [if_neg (Nat.not_le.2 h2)]; rfl)
  simp only [State.endFrame, if_neg (Nat.not_le.2 h2), decide_eq_true hs, if_true, closed]

/-! ### Landed lines (07 R176, 09 R244, R247) -/

theorem slot_ready {b : Bool} (hp : p < 8) (hv : v < 4) (hb : b = true) : (decide (p < 8) && decide (v < 4) && b) = true := by simp [hp, hv, hb]

theorem exec_lineLanded (hp : p < 8) (hv : v < 4) (h : (s.tick dt).landReady (p * 4 + v) line = true) :
    exec (.lineLanded dt p v line) s = .next ((s.tick dt).landLine (p * 4 + v) line) :=
  happen_of_ready (ready := fun t => decide (p < 8) && decide (v < 4) && t.landReady (p * 4 + v) line)
    (eff := fun t => t.landLine (p * 4 + v) line) (slot_ready hp hv h)

theorem landLine_raw (hf : ¬ (u.fwdOn k = true ∧ u.processed k = true)) :
    u.landLine k line =
      (let t := u.modSlot k (fun q => { q with landed := line + 1 })
       let pulses := ceilDiv (u.ringLine k) 4096
       (if u.lineDone k then (List.range pulses).foldl (fun w _ => w.pulse (k / 4)) t else t).fwdRequest k (u.slot k).starts pulses) :=
  if_neg hf

theorem landLine_processed (hf : u.fwdOn k = true) (hp : u.processed k = true) :
    u.landLine k line = (u.modSlot k (fun q => { q with landed := line + 1 })).releaseBands k line :=
  if_pos ⟨hf, hp⟩

/-! ### Lost streams (09 R239) -/

/-- The port of a slot. -/
theorem slot_port (hv : v < 4) : (p * 4 + v) / 4 = p := by omega

theorem exec_streamLost (hp : p < 8) (hv : v < 4) (h : (s.tick dt).lostReady (p * 4 + v) = true) :
    exec (.streamLost dt p v) s = .next ((s.tick dt).loseStream (p * 4 + v)) :=
  happen_of_ready (ready := fun t => decide (p < 8) && decide (v < 4) && t.lostReady (p * 4 + v))
    (eff := fun t => t.loseStream (p * 4 + v)) (slot_ready hp hv h)

/-- A lost stream is its port's umpire source. -/
theorem loseStream_port (hv : v < 4) :
    u.loseStream (p * 4 + v) = ((u.modSlot (p * 4 + v) (fun q => { q with mode := .lost })).raise (camStatus p) [8]).occur (24 + p) p := by
  rw [State.loseStream, State.camFault, slot_port hv]

/-- Settles O32: each clause is one packet or line of a port that takes packets, used as its header says, and the equation of the line, frame start, frame
end or lost stream that it comes to. A frame too soon is dropped by 09 R237, a short one counted by R238, and a place of the frame ring found by R241. That a
frame keeps the processing with which it started is the model's choice (notes/assumptions/62). -/
theorem cameraPackets : Obligations.CameraPackets := by
  unfold Obligations.CameraPackets
  intro dt p vc v line s hp hvc hv u k
  refine ⟨?packets, ?landed, ?released, ?lost⟩
  case packets =>
    intro hu counted lost
    refine ⟨exec_csiFrameStart hp hvc hu, fun ty e xs => exec_csiLongPacket hp hvc hu, exec_csiFrameEnd hp hvc hu, fun h w hw => ?_⟩
    have start : exec (.csiFrameStart dt p ⟨vc, h⟩) s = .next (w.csiStart p vc) :=
      (exec_csiFrameStart hp hvc hu).trans (congrArg _ (packet_used _ hw))
    have ends : exec (.csiFrameEnd dt p ⟨vc, h⟩) s = .next (w.csiEnd p vc) :=
      (exec_csiFrameEnd hp hvc hu).trans (congrArg _ (packet_used _ hw))
    have long : ∀ ty e xs, exec (.csiLongPacket dt p vc ty h e xs) s = .next (w.longPacket p vc ty e xs) :=
      fun ty e xs => (exec_csiLongPacket hp hvc hu).trans (congrArg _ (packet_used _ hw))
    refine ⟨start, fun e xs => long 0x12 e xs, ?unexpected, ?line, ends, ?opened, ?short⟩
    case unexpected =>
      intro ty e xs ht hf
      rw [long, longPacket_unexpected ht hf]
    case line =>
      intro ty xs f e hf x
      rw [long, longPacket_line hf]
      rfl
    case opened =>
      intro i hs ho r x y
      rw [start, csiStart_one hs]
      exact ⟨fun ht => congrArg _ (startFrame_tooSoon ho ht), fun ht hf => congrArg _ (startFrame_opened ho ht hf)⟩
    case short =>
      intro i hs ho h2 hl r
      rw [ends, csiEnd_one hs ho]
      exact congrArg _ (endFrame_short h2 hl)
  case landed =>
    intro h hf t pulses
    rw [exec_lineLanded hp hv h]
    exact congrArg _ (landLine_raw hf)
  case released =>
    intro h hf hpr
    rw [exec_lineLanded hp hv h]
    exact congrArg _ (landLine_processed hf hpr)
  case lost =>
    intro h
    rw [exec_streamLost hp hv h]
    exact congrArg _ (loseStream_port hv)

end Sys2Proof.Machine
end

section
/-! SUPPORT and CERTIFICATES of output ports (08 R203, R206 to R210, R213, R229): bring-up, training and hot plug of an eDP port, DSI ports, the
backlight. -/

namespace Sys2Proof.Machine

open Sys2Proof

variable {s u : State} {n dt : Nat}

/-! ### Bring-up of an eDP port (08 R206, R229) -/

theorem exec_edpBringup {sink : Option SinkCaps} (hn : n < 8) (h : (s.meet dt n).edpReady n = true) :
    exec (.edpBringup dt n sink) s = .next ((s.meet dt n).edpBringup n sink) :=
  happenOn_ready (ready := fun t => t.edpReady n) (eff := fun t => t.edpBringup n sink) hn h

/-- A bring-up waits for a sink whose HPD is low. -/
theorem edpBringup_waits (sink : Option SinkCaps) (h : (u.lane n).hpd = false) :
    u.edpBringup n sink = (u.powerPanel n).modLane n (fun l => { l with link := .waitingHpd }) := by
  unfold State.edpBringup
  rw [h]
  rfl

theorem edpBringup_silent (h : (u.lane n).hpd = true) : u.edpBringup n none = (u.powerPanel n).failLink n 2 := by
  rw [State.edpBringup, h]
  rfl

theorem edpBringup_answered (k : SinkCaps) (h : (u.lane n).hpd = true) : u.edpBringup n (some k) = (u.powerPanel n).startTraining n k := by
  rw [State.edpBringup, h]
  rfl

/-- HPD has not risen in time. -/
theorem exec_hpdTimeout (hn : n < 8) (ha : (s.tick dt).awake = true) (hl : ((s.tick dt).lane n).link = .waitingHpd)
    (hh : ((s.tick dt).lane n).hpd = false) : exec (.hpdTimeout dt n) s = .next ((s.tick dt).failLink n 1) :=
  happen_of_ready (ready := fun t => decide (n < 8) && t.awake && decide ((t.lane n).link = .waitingHpd) && !(t.lane n).hpd)
    (eff := fun t => t.failLink n 1) (by simp only [hn, ha, hl, hh, decide_true, Bool.and_self, Bool.not_false])

/-! ### Link training (08 R206 step 4) -/

theorem exec_linkTrainingAttempt {trained : Bool} (hn : n < 8) (ha : (s.meet dt n).awake = true) (hl : ((s.meet dt n).lane n).link = .training) :
    exec (.linkTrainingAttempt dt n trained) s = .next ((s.meet dt n).trainOnce n trained) :=
  happenOn_ready (ready := fun t => t.awake && decide ((t.lane n).link = .training)) (eff := fun t => t.trainOnce n trained) hn
    (by simp only [ha, hl, decide_true, Bool.and_self])

section Training

variable {rate lanes : Nat} {rest : List (Nat × Nat)}

theorem trainOnce_trained (hc : (u.lane n).candidates = (rate, lanes) :: rest) : u.trainOnce n true = u.raiseLink n rate lanes := by
  rw [State.trainOnce, hc]
  rfl

/-- The last candidate fails, and with it the bring-up. -/
theorem trainOnce_last (hc : (u.lane n).candidates = [(rate, lanes)]) : u.trainOnce n false = u.failLink n 3 := by
  rw [State.trainOnce, hc]
  rfl

/-- A candidate fails, and those after it are left. -/
theorem trainOnce_next (hc : (u.lane n).candidates = (rate, lanes) :: rest) (hr : rest ≠ []) :
    u.trainOnce n false = u.modLane n (fun l => { l with candidates := rest }) := by
  rw [State.trainOnce, hc]
  exact if_neg hr

end Training

/-! ### Hot plug (08 R206, R207) -/

theorem exec_hpdRise (hn : n < 8) (ha : (s.tick dt).awake = true) (he : (s.tick dt).laneNum n 7 1 = 0) :
    exec (.hpdRise dt n) s = .next ((s.tick dt).hpdRises n) :=
  happen_of_ready (ready := fun t => decide (n < 8) && t.awake && decide (t.laneNum n 7 1 = 0)) (eff := fun t => t.hpdRises n)
    (by simp only [hn, ha, he, decide_true, Bool.and_self])

theorem exec_hpdUnplug (hn : n < 8) (ha : (s.tick dt).awake = true) (he : (s.tick dt).laneNum n 7 1 = 0) (hh : ((s.tick dt).lane n).hpd = true) :
    exec (.hpdUnplug dt n) s =
      .next (if (s.tick dt).isEdp n then (s.tick dt).unplug n else (s.tick dt).modLane n (fun l => { l with hpd := false })) :=
  happen_of_ready (ready := fun t => decide (n < 8) && t.awake && decide (t.laneNum n 7 1 = 0) && (t.lane n).hpd)
    (eff := fun t => if t.isEdp n then t.unplug n else t.modLane n (fun l => { l with hpd := false }))
    (by simp only [hn, ha, he, hh, decide_true, Bool.and_self])

theorem exec_hpdIrq {lost : Bool} (hn : n < 8) (ha : (s.tick dt).awake = true) (he : (s.tick dt).isEdp n = true) :
    exec (.hpdIrq dt n lost) s = .next ((s.tick dt).hpdPulse n lost) :=
  happen_of_ready (ready := fun t => decide (n < 8) && t.awake && t.isEdp n) (eff := fun t => t.hpdPulse n lost)
    (by simp only [hn, ha, he, decide_true, Bool.and_self])

/-- A link is trained: up, or up in low power. -/
def Lane.trained (l : Lane) : Prop := l.link = .up ∨ l.link = .lowPower

/-- What a pulse of a lost link raises before the link trains again. -/
def State.pulseLost (u : State) (n : Nat) : State := ((u.raise (portStatus n) [4]).raise (portStatus n) [2]).lineOn (16 + n) n

theorem hpdPulse_not_lost (u : State) (n : Nat) : u.hpdPulse n false = u.raise (portStatus n) [4] := rfl

theorem hpdPulse_untrained (h : ¬ (u.lane n).trained) : u.hpdPulse n true = u.raise (portStatus n) [4] := by
  unfold Lane.trained at h
  rw [State.hpdPulse, decide_eq_false h]
  rfl

theorem hpdPulse_unknownSink (h : (u.lane n).trained) (hs : (u.lane n).sink = none) : u.hpdPulse n true = (u.pulseLost n).failLink n 2 := by
  unfold Lane.trained at h
  rw [State.hpdPulse, decide_eq_true h, hs]
  rfl

theorem hpdPulse_retrains {k : SinkCaps} (h : (u.lane n).trained) (hs : (u.lane n).sink = some k) :
    u.hpdPulse n true = (u.pulseLost n).startTraining n k := by
  unfold Lane.trained at h
  rw [State.hpdPulse, decide_eq_true h, hs]
  rfl

/-- Settles O29: each clause is one command of an eDP port and the equation of the bring-up, training attempt or HPD event that it carries out. That bring-up
and training come after what was due on the lane (notes/assumptions/97), and that HPD is followed on a lane that is off (notes/assumptions/55), are the
model's choices. -/
theorem edpPorts : Obligations.EdpPorts := by
  unfold Obligations.EdpPorts
  intro dt n s hn u m failed up begun powered
  refine ⟨?bringup, ?training, ?timeout, ?plug, ?irq⟩
  case bringup =>
    intro h
    refine ⟨fun sink hh => ?_, fun hh => ?_, fun k hh => ?_⟩
    · rw [exec_edpBringup hn h]
      exact congrArg _ (edpBringup_waits sink hh)
    · rw [exec_edpBringup hn h]
      exact congrArg _ (edpBringup_silent hh)
    · rw [exec_edpBringup hn h]
      exact congrArg _ (edpBringup_answered k hh)
  case training =>
    intro ha hl rate lanes rest hc
    rw [exec_linkTrainingAttempt hn ha hl, exec_linkTrainingAttempt hn ha hl]
    refine ⟨congrArg _ (trainOnce_trained hc), fun hr => ?_, fun hr => congrArg _ (trainOnce_next hc hr)⟩
    subst hr
    exact congrArg _ (trainOnce_last hc)
  case timeout =>
    intro ha hl hh
    exact exec_hpdTimeout hn ha hl hh
  case plug =>
    intro ha he
    refine ⟨exec_hpdRise hn ha he, fun hh hp => ?_, fun hh hp => ?_⟩
    · rw [exec_hpdUnplug hn ha he hh]
      exact congrArg _ (if_pos hp)
    · rw [exec_hpdUnplug hn ha he hh]
      exact congrArg _ (if_neg (Bool.not_eq_true _ ▸ hp))
  case irq =>
    intro ha he pulsed lost
    rw [exec_hpdIrq hn ha he, exec_hpdIrq hn ha he]
    exact ⟨congrArg _ (hpdPulse_not_lost u n), fun hu hp => congrArg _ (hpdPulse_untrained (not_or.2 ⟨hu, hp⟩)),
      fun ht => ⟨fun hs => congrArg _ (hpdPulse_unknownSink ht hs), fun k hs => congrArg _ (hpdPulse_retrains ht hs)⟩⟩

/-! ### DSI ports (08 R203, R208 to R210) -/

theorem exec_dsiBringup {e : Bool} (hn : n < 8) (h : (s.meet dt n).dsiReady n = true) :
    exec (.dsiBringup dt n e) s = .next ((s.meet dt n).dsiBringup n e) :=
  happenOn_ready (ready := fun t => t.dsiReady n) (eff := fun t => t.dsiBringup n e) hn h

theorem exec_teEdge {rising : Bool} (hn : n < 8) (h : (s.meet dt n).teReady n rising = true) :
    exec (.teEdge dt n rising) s = .next ((s.meet dt n).modLane n (fun l => { l with teSeen := true })) :=
  happenOn_ready (ready := fun t => t.teReady n rising) (eff := fun t => t.modLane n (fun l => { l with teSeen := true })) hn h

section Packets

variable {p : List Byte} {a : Option (List Byte)} {b : List Byte}

theorem exec_dsiCmdSend (hn : n < 8) (ha : (s.tick dt).awake = true) (hd : (s.tick dt).laneNum n 7 1 ≠ 0) (ht : ((s.tick dt).lane n).trained)
    (hp : ((s.tick dt).lane n).dsiCmd = some p) : exec (.dsiCmdSend dt n a) s = .next ((s.tick dt).sendDsi n a) := by
  unfold Lane.trained at ht
  exact happen_of_ready
    (ready := fun t => decide (n < 8) && t.awake && decide (t.laneNum n 7 1 ≠ 0) && (t.lane n).dsiCmd.isSome &&
      decide ((t.lane n).link = .up ∨ (t.lane n).link = .lowPower))
    (eff := fun t => t.sendDsi n a)
    (by simp only [hn, ha, decide_eq_true hd, hp, decide_eq_true ht, Option.isSome_some, decide_true, Bool.and_self])

/-- The queued packet is out. -/
def State.packetOut (u : State) (n : Nat) (p : List Byte) : State := (u.modLane n (fun l => { l with dsiCmd := none })).send (.dsiPacket n p)

/-- A packet that asks for no turnaround, or whose turnaround is not answered. -/
theorem sendDsi_unanswered (hp : (u.lane n).dsiCmd = some p) (h : bitOf ((p.getD 1 0).toNat) 0 = false ∨ a = none) :
    u.sendDsi n a = u.packetOut n p := by
  unfold State.packetOut
  simp only [State.sendDsi, hp]
  rcases h with h | rfl
  · rw [h, if_neg Bool.false_ne_true]
  · exact ite_self _

/-- A turnaround's answer is kept, and an error report raised. -/
theorem sendDsi_answered (hp : (u.lane n).dsiCmd = some p) (h : bitOf ((p.getD 1 0).toNat) 0 = true) :
    u.sendDsi n (some b) =
      if b.head? = some 2 then ((u.packetOut n p).modLane n (fun l => { l with dsiRsp := b })).raise (portStatus n) [9]
      else (u.packetOut n p).modLane n (fun l => { l with dsiRsp := b }) := by
  unfold State.packetOut
  simp only [State.sendDsi, hp, h, if_true]

end Packets

/-! ### The backlight (08 R213) -/

theorem exec_blpwmPeriodStart (hn : n < 8) (ha : (s.tick dt).awake = true) (hd : (s.tick dt).domainOn (64 + n) = true) :
    exec (.blpwmPeriodStart dt n) s = .next ((s.tick dt).pwmPeriod n) :=
  happen_of_ready (ready := fun t => decide (n < 8) && t.awake && t.domainOn (64 + n)) (eff := fun t => t.pwmPeriod n)
    (by simp only [hn, ha, hd, decide_true, Bool.and_self])

/-- The lane with the backlight's settings in effect. -/
def State.takeBacklight (u : State) (n : Nat) : State :=
  u.modLane n (fun l => { l with blPeriod := u.laneNum n 7 0xD, blDuty := u.laneNum n 7 0xE, blInvert := bitOf (u.laneNum n 7 0xF) 1 })

theorem lane_takeBacklight (u : State) (n : Nat) :
    (u.takeBacklight n).lane n =
      { u.lane n with blPeriod := u.laneNum n 7 0xD, blDuty := u.laneNum n 7 0xE, blInvert := bitOf (u.laneNum n 7 0xF) 1 } :=
  (u.lane_modLane n n _).trans (if_pos rfl)

/-- A pin held low is not driven. -/
theorem pwmPeriod_low (h : (u.lane n).blLow = true) : u.pwmPeriod n = u.takeBacklight n := if_pos h

theorem pwmPeriod_driven (h : (u.lane n).blLow = false) :
    u.pwmPeriod n =
      (u.takeBacklight n).send (.pwm n (u.laneNum n 7 0xD * 1000) ((u.takeBacklight n).lane n).pwmHigh (bitOf (u.laneNum n 7 0xF) 1)) := by
  have driven : u.pwmPeriod n = (u.takeBacklight n).send (.pwm n (((u.takeBacklight n).lane n).blPeriod * 1000)
      ((u.takeBacklight n).lane n).pwmHigh ((u.takeBacklight n).lane n).blInvert) := if_neg (Bool.not_eq_true _ ▸ h)
  rw [driven, lane_takeBacklight]

/-- Settles O30: each clause is one command of a DSI port or of the backlight and the equation of what it carries out. That bring-up and the TE edge come
after what was due on the lane (notes/assumptions/97), the data type 0x02 of an error report (notes/assumptions/20) and the rounding of the high time
(notes/assumptions/96) are the model's choices. -/
theorem dsiPortsAndBacklight : Obligations.DsiPortsAndBacklight := by
  unfold Obligations.DsiPortsAndBacklight
  intro dt n s hn u m
  refine ⟨?bringup, ?te, ?packet, ?pwm⟩
  case bringup =>
    intro e h cmds powered v w
    exact exec_dsiBringup hn h
  case te =>
    intro rising h
    exact exec_teEdge hn h
  case packet =>
    intro ha hd ht p hp v
    refine ⟨fun a h => ?_, fun b h => ⟨fun hb => ?_, fun hb => ?_⟩⟩
    · rw [exec_dsiCmdSend hn ha hd ht hp]
      exact congrArg _ (sendDsi_unanswered hp h)
    · rw [exec_dsiCmdSend hn ha hd ht hp, sendDsi_answered hp h, if_pos hb]
      rfl
    · rw [exec_dsiCmdSend hn ha hd ht hp, sendDsi_answered hp h, if_neg hb]
      rfl
  case pwm =>
    intro ha hd t
    rw [exec_blpwmPeriodStart hn ha hd]
    exact ⟨fun h => congrArg _ (pwmPeriod_low h), fun h => congrArg _ (pwmPeriod_driven h)⟩

end Sys2Proof.Machine
end

section
/-! SUPPORT and CERTIFICATE of pixel clocks (08 R214 to R223): lock and its loss, the windows of the clock monitor, failover and return. -/

namespace Sys2Proof.Machine

open Sys2Proof

variable {s u v : State} {n dt primary active hz : Nat} {good : Bool}

/-! ### Lock and its loss (08 R216, R217) -/

theorem exec_pclkLock (hn : n < 8) (ha : (s.meet dt n).awake = true) (h : (s.meet dt n).lockReady n = true) :
    exec (.pclkLock dt n) s = .next ((s.meet dt n).lockLane n) :=
  happenOn_ready (ready := fun t => t.awake && t.lockReady n) (eff := fun t => t.lockLane n) hn (by simp only [ha, h, Bool.and_self])

theorem exec_pclkUnlock (hn : n < 8) (ha : (s.meet dt n).awake = true) (h : (s.meet dt n).clockRuns n = true) :
    exec (.pclkUnlock dt n) s = .next ((s.meet dt n).unlockLane n) :=
  happenOn_ready (ready := fun t => t.awake && t.clockRuns n) (eff := fun t => t.unlockLane n) hn (by simp only [ha, h, Bool.and_self])

/-! ### Windows of the monitor (08 R220 to R222) -/

theorem exec_refMonitorWindow (ha : (s.tick dt).awake = true) (hx : (s.tick dt).clocks.xtal32Failed = false) :
    exec (.refMonitorWindow dt ⟨primary, active⟩ hz) s = .next ((s.tick dt).monitorWindow primary active hz) :=
  happen_of_ready (ready := fun t => t.awake && !t.clocks.xtal32Failed) (eff := fun t => t.monitorWindow primary active hz)
    (by simp only [ha, hx, Bool.not_false, Bool.and_self])

/-- A window's count lies within `d` of the nominal 25 MHz: 5,000 are 200 ppm, 12,500 are 500 ppm. -/
def Near (x d : Nat) : Prop := 25_000_000 ≤ x + d ∧ x ≤ 25_000_000 + d

theorem near_iff_natAbs_le (x d : Nat) : Near x d ↔ ((x : Int) - 25_000_000).natAbs ≤ d := by
  unfold Near
  omega

theorem Near.mono {x d e : Nat} (h : Near x d) (hde : d ≤ e) : Near x e := by
  unfold Near at *
  omega

/-- The count by which a window judges the reference in use. -/
def State.countInUse (u : State) (primary active : Nat) : Nat := if u.clocks.active = 0 then primary else active

/-- The primary judged by its own count. -/
def State.judgePrimary (u : State) (primary : Nat) (good : Bool) : State :=
  u.modClocks (fun c => { c with drift := (primary : Int) - 25_000_000, primaryGood := good && !c.grossBad, grossBad := false })

/-- The reference in use is warned of. -/
def State.warnReference (u : State) : State := (u.raise refStatus [0]).lineOn 36 0

/-- A window judges the primary, then the reference in use unless it is the watch oscillator, then the watch oscillator. -/
theorem monitorWindow_judged (hg : good = true ↔ Near primary 5_000) :
    u.monitorWindow primary active hz =
      ((if u.clocks.active = 2 then u.judgePrimary primary good
        else
          let w := if ((u.countInUse primary active : Int) - 25_000_000).natAbs ≤ 5_000 then (u.judgePrimary primary good).lineOff 36
            else (u.judgePrimary primary good).warnReference
          if 12_500 < ((u.countInUse primary active : Int) - 25_000_000).natAbs then w.failover else w).judgeWatch hz) := by
  have hp : decide (((primary : Int) - 25_000_000).natAbs ≤ 5_000) = good := by
    rw [near_iff_natAbs_le] at hg
    exact Bool.eq_iff_iff.2 (decide_eq_true_iff.trans hg.symm)
  unfold State.judgePrimary
  rw [← hp]
  rfl

/-- A window under the watch oscillator judges the primary and the watch oscillator alone. -/
theorem monitorWindow_onWatch (hg : good = true ↔ Near primary 5_000) (h2 : u.clocks.active = 2) :
    u.monitorWindow primary active hz = (u.judgePrimary primary good).judgeWatch hz := by
  rw [monitorWindow_judged hg, if_pos h2]

theorem monitorWindow_good (hg : good = true ↔ Near primary 5_000) (h2 : u.clocks.active ≠ 2) (h : Near (u.countInUse primary active) 5_000) :
    u.monitorWindow primary active hz = ((u.judgePrimary primary good).lineOff 36).judgeWatch hz := by
  have far : ¬ 12_500 < ((u.countInUse primary active : Int) - 25_000_000).natAbs :=
    Nat.not_lt.2 ((near_iff_natAbs_le _ _).1 (h.mono (by decide)))
  rw [near_iff_natAbs_le] at h
  rw [monitorWindow_judged hg, if_neg h2, if_pos h, if_neg far]

theorem monitorWindow_warned (hg : good = true ↔ Near primary 5_000) (h2 : u.clocks.active ≠ 2) (h : ¬ Near (u.countInUse primary active) 5_000)
    (hw : Near (u.countInUse primary active) 12_500) :
    u.monitorWindow primary active hz = (u.judgePrimary primary good).warnReference.judgeWatch hz := by
  rw [near_iff_natAbs_le] at h hw
  rw [monitorWindow_judged hg, if_neg h2, if_neg h, if_neg (Nat.not_lt.2 hw)]

theorem monitorWindow_failed (hg : good = true ↔ Near primary 5_000) (h2 : u.clocks.active ≠ 2) (h : ¬ Near (u.countInUse primary active) 12_500) :
    u.monitorWindow primary active hz = (u.judgePrimary primary good).warnReference.failover.judgeWatch hz := by
  have off : ¬ ((u.countInUse primary active : Int) - 25_000_000).natAbs ≤ 5_000 :=
    fun g => h (((near_iff_natAbs_le _ _).2 g).mono (by decide))
  rw [near_iff_natAbs_le, Nat.not_le] at h
  rw [monitorWindow_judged hg, if_neg h2, if_neg off, if_pos h]

/-- The watch oscillator judged, while it is not the reference: within 3 % about 50 MHz its line falls. -/
theorem judgeWatch_good (h2 : v.clocks.active ≠ 2) (hlo : 48_500_000 ≤ hz) (hhi : hz ≤ 51_500_000) :
    v.judgeWatch hz = (v.modClocks (fun c => { c with watchHz := hz, watchBad := false })).lineOff 38 := by
  simp [State.judgeWatch, h2, Nat.not_lt.2 hlo, Nat.not_lt.2 hhi]

theorem judgeWatch_bad (h2 : v.clocks.active ≠ 2) (h : hz < 48_500_000 ∨ 51_500_000 < hz) :
    v.judgeWatch hz = ((v.modClocks (fun c => { c with watchHz := hz, watchBad := true })).raise refStatus [3]).lineOn 38 0 := by
  have bad : (decide (hz < 48_500_000) || decide (51_500_000 < hz)) = true := by simpa using h
  simp [State.judgeWatch, h2, bad]

/-! ### Gross failure and return to the primary (08 R221, R223) -/

theorem exec_grossLoss (ha : (s.tick dt).awake = true) (h2 : (s.tick dt).clocks.active ≠ 2) :
    exec (.grossLoss dt) s = .next (s.tick dt).grossFailure :=
  happen_of_ready (ready := fun t => t.awake && decide (t.clocks.active ≠ 2)) (eff := fun t => t.grossFailure)
    (by simp only [ha, decide_eq_true h2, Bool.and_self])

theorem exec_refRestore (ha : (s.tick dt).awake = true) : exec (.refRestore dt) s = .next (s.tick dt).restoreRef :=
  happen_of_ready (ready := fun t => t.awake) (eff := fun t => t.restoreRef) ha

theorem restoreRef_refused (h : u.clocks.primaryGood = false) : u.restoreRef = u.raise refStatus [6] := by
  rw [State.restoreRef, h]
  rfl

theorem restoreRef_switches (h : u.clocks.primaryGood = true) : u.restoreRef = u.switchRef 0 := by
  rw [State.restoreRef, h]
  rfl

/-- Settles O31: each clause is one command of a pixel clock or of its references and the equation of the lock, window, failure or return that it carries
out. That lock and its loss come after what was due on the lane (notes/assumptions/97), that a window's counts are judged at its end (notes/assumptions/19)
and that a gross loss acts only while the watch oscillator is not the reference (notes/assumptions/55) are the model's choices. -/
theorem pixelClocks : Obligations.PixelClocks := by
  unfold Obligations.PixelClocks
  intro dt n s u m
  refine ⟨?lock, ?unlock, ?window, ?gross, ?refused, ?restored⟩
  case lock =>
    intro hn ha h
    exact exec_pclkLock hn ha h
  case unlock =>
    intro hn ha h
    exact exec_pclkUnlock hn ha h
  case window =>
    intro ha hx primary active hz near seen j watch unwatched good hg off
    rw [exec_refMonitorWindow ha hx]
    refine ⟨fun h2 hlo hhi => ⟨fun h => ?_, fun h hw => ?_⟩, fun h2 h hbad => ?_, fun h2 h => ?_, fun h2 => ?_⟩
    · exact congrArg _ ((monitorWindow_good hg h2 h).trans (judgeWatch_good h2 hlo hhi))
    · exact congrArg _ (monitorWindow_warned hg h2 h hw)
    · exact congrArg _ ((monitorWindow_good hg h2 h).trans (judgeWatch_bad h2 hbad))
    · exact congrArg _ (monitorWindow_failed hg h2 h)
    · exact congrArg _ (monitorWindow_onWatch hg h2)
  case gross =>
    intro ha h2
    exact exec_grossLoss ha h2
  case refused =>
    intro ha h
    rw [exec_refRestore ha]
    exact congrArg _ (restoreRef_refused h)
  case restored =>
    intro ha h
    rw [exec_refRestore ha]
    exact congrArg _ (restoreRef_switches h)

end Sys2Proof.Machine
end

section
/-! SUPPORT and CERTIFICATE of resets and supplies (08 R220, 12 R332, R344, 14 R380, R385, 15 R392, R393, R403, R404, R406, R412, 17 R441, R447): RESET_N and
its release, supplies, VSTBY, the crystal, the throttle and idle domains. -/

namespace Sys2Proof.Machine

open Sys2Proof

variable {s u : State} {dt d k t straps cause : Nat}

/-! ### RESET_N (15 R406) -/

/-- A command that the device cannot meet lets its time pass alone. -/
theorem happen_of_not_ready {ready : State → Bool} {eff : State → State} (h : ready (s.tick dt) = false) :
    happen dt ready eff s = .next (s.tick dt) := by
  rw [happen, if_neg (Bool.not_eq_true _ ▸ h)]

theorem exec_resetN_powered (h : (s.tick dt).powered = true) : exec (.resetN dt t) s = .next ((s.tick dt).resetPin t) :=
  happen_of_ready (ready := fun x => x.powered) (eff := fun x => x.resetPin t) h

theorem exec_resetN_unpowered (h : (s.tick dt).powered = false) : exec (.resetN dt t) s = .next (s.tick dt) :=
  happen_of_not_ready (ready := fun x => x.powered) (eff := fun x => x.resetPin t) h

theorem resetPin_glitch (h : t < 100) : u.resetPin t = u := if_pos h

/-- Between 100 ns and 1 µs a pulse resets, or not. -/
theorem resetPin_open (hlo : 100 ≤ t) (hhi : t < 1000) : u.resetPin t = if u.free % 2 = 0 then u.used else u.used.resetDomains 2 := by
  rw [State.resetPin, if_neg (Nat.not_lt.2 hlo), if_neg (Nat.not_le.2 hhi)]

theorem resetPin_reset (h : 1000 ≤ t) : u.resetPin t = u.resetDomains 2 := by
  rw [State.resetPin, if_neg (by omega), if_pos h]

/-! ### What a reset keeps (12 R332, 14 R380, R385, 15 R406) -/

@[simp] theorem resetDomains_pending (u : State) (c : Nat) : (u.resetDomains c).pending = u.pending := rfl
@[simp] theorem resetDomains_fuses (u : State) (c : Nat) : (u.resetDomains c).sec.fuses = u.sec.fuses := rfl
@[simp] theorem resetDomains_lock (u : State) (c : Nat) : (u.resetDomains c).sec.lock = u.sec.lock := rfl
@[simp] theorem resetDomains_debugFails (u : State) (c : Nat) : (u.resetDomains c).sec.debugFails = u.sec.debugFails := rfl
@[simp] theorem resetDomains_c3 (u : State) (c : Nat) : (u.resetDomains c).umpire.c3 = u.umpire.c3 := rfl
@[simp] theorem resetDomains_journey (u : State) (c : Nat) : (u.resetDomains c).smu.journey = u.smu.journey := rfl
@[simp] theorem resetDomains_inReset (u : State) (c : Nat) : (u.resetDomains c).modes.inReset = true := rfl
@[simp] theorem resetDomains_crews (u : State) (c : Nat) : (u.resetDomains c).crews = [] := rfl

/-! ### Reset release (15 R393, R406) -/

theorem exec_resetRelease (h : (s.tick dt).releaseReady = true) : exec (.resetRelease dt straps) s = .next ((s.tick dt).releaseReset straps) :=
  happen_of_ready (ready := fun x => x.releaseReady) (eff := fun x => x.releaseReset straps) h

/-- The device out of reset in a mode with its cause: what stands at release acts at once. -/
def State.release (u : State) (straps : Nat) (mode : Mode) (cause : Nat) : State :=
  let r := u.resetDomains 0
  ({ r with
    umpire := { r.umpire with nfaultLow := true }
    modes := { r.modes with mode := mode, inReset := false, releasedAt := u.now, resetAt := u.now, causePending := 0, cause := cause,
                            straps := straps % 64, pwrReq := true } }.followNfault.standingLevels).repeatC3

/-- Under power the mode is FACTORY where it was, and no cause is added. -/
theorem releaseReset_powered (h : u.powered = true) :
    u.releaseReset straps = u.release straps (if u.modes.mode = .factory then .factory else .launch) u.modes.causePending := by
  have noCause : u.modes.causePending ||| 0 = u.modes.causePending := Nat.or_zero _
  simp only [State.releaseReset, State.release, h, Bool.not_true, Bool.false_eq_true, if_false, decide_eq_true_eq, noCause]

/-- At power-up the mode is FACTORY by TEST_EN on a part that is not field locked, and the cause is power_on, with a C3 record that is held. -/
theorem releaseReset_powerUp (h : u.powered = false) :
    u.releaseReset straps = u.release straps (if bitOf straps 6 && !u.sec.fuses.fieldLock then .factory else .launch)
      (u.modes.causePending ||| (1 + 32 * b2n u.umpire.c3.isSome)) := by
  simp only [State.releaseReset, State.release, h, Bool.not_false, if_true]

/-! ### Supplies (17 R441) -/

theorem exec_supplyFault {b : Bool} (ha : (s.tick dt).awake = true) : exec (.supplyFault dt k b) s = .next ((s.tick dt).supplyFails k b) :=
  happen_of_ready (ready := fun x => x.awake) (eff := fun x => x.supplyFails k b) ha

theorem supplyFails_source {b : Bool} (h : b = false ∨ resetSupply k = false) : u.supplyFails k b = u.occur 53 k :=
  if_neg (by rcases h with h | h <;> simp [h])

theorem supplyFails_reset (h : resetSupply k = true) : u.supplyFails k true = (u.occur 53 k).resetDomains 0 := if_pos h

/-! ### VSTBY and VDD_CORE (12 R344, 15 R393, R404, R412) -/

theorem exec_vstbyApplied (h : (s.tick dt).modes.vstby = false ∨ (s.tick dt).modes.mode = .unpowered) :
    exec (.vstbyApplied dt) s = .next (s.tick dt).applyStandby :=
  happen_of_ready (ready := fun x => !x.modes.vstby || decide (x.modes.mode = .unpowered)) (eff := fun x => x.applyStandby)
    (by simpa only [Bool.or_eq_true, Bool.not_eq_true', decide_eq_true_eq] using h)

theorem applyStandby_unpowered (h : u.modes.mode = .unpowered) :
    u.applyStandby = u.modModes (fun m => { m with vstby := true, vstbyAt := u.now, rcWindow := true, mode := .standby, standbySince := u.now }) := by
  simp only [State.applyStandby, State.modModes, h, if_true]

theorem applyStandby_powered (h : u.modes.mode ≠ .unpowered) :
    u.applyStandby = u.modModes (fun m => { m with vstby := true, vstbyAt := u.now, rcWindow := true }) := by
  simp only [State.applyStandby, State.modModes, h, if_false]

theorem exec_powerCycle : exec (.powerCycle dt) s = .next (s.tick dt).cyclePower :=
  happen_of_ready (ready := fun _ => true) (eff := fun x => x.cyclePower) rfl

theorem cyclePower_powered (h : u.powered = true) :
    u.cyclePower = (u.unpower (if u.modes.vstby then .standby else .unpowered)).modModes (fun m => { m with standbySince := u.now }) := if_pos h

theorem cyclePower_asleep (h : u.powered = false) :
    u.cyclePower = (u.unpower (if u.modes.vstby then .standby else .unpowered)).modModes
      (fun m => { m with causePending := u.modes.causePending, pwrReq := u.modes.pwrReq }) := if_neg (Bool.not_eq_true _ ▸ h)

theorem exec_vstbyRemoved (h : (s.tick dt).modes.vstby = true) : exec (.vstbyRemoved dt) s = .next (s.tick dt).removeStandby :=
  happen_of_ready (ready := fun x => x.modes.vstby) (eff := fun x => x.removeStandby) h

/-! ### The crystal (08 R220, 15 R404) -/

theorem exec_xtal32RcWindowEnd (hr : (s.tick dt).modes.rcWindow = true) (ht : (s.tick dt).modes.vstbyAt + 1_000_000_000 ≤ (s.tick dt).now) :
    exec (.xtal32RcWindowEnd dt) s = .next (s.tick dt).rcWindowEnds :=
  happen_of_ready (ready := fun x => x.modes.rcWindow && decide (x.modes.vstbyAt + 1_000_000_000 ≤ x.now)) (eff := fun x => x.rcWindowEnds)
    (by simp only [hr, decide_eq_true ht, Bool.and_self])

theorem exec_xtal32Fault (hm : (s.tick dt).modes.mode ≠ .unpowered) (hx : (s.tick dt).clocks.xtal32Failed = false) :
    exec (.xtal32Fault dt) s = .next (s.tick dt).crystalFails :=
  happen_of_ready (ready := fun x => decide (x.modes.mode ≠ .unpowered) && !x.clocks.xtal32Failed) (eff := fun x => x.crystalFails)
    (by simp only [decide_eq_true hm, hx, Bool.not_false, Bool.and_self])

theorem crystalFails_inWindow (h : u.modes.rcWindow = true) : u.crystalFails = u := if_pos h

theorem crystalFails_after (h : u.modes.rcWindow = false) :
    u.crystalFails = (((u.modClocks (fun c => { c with xtal32Failed := true })).raise refStatus [4]).lineOn 39 0).modSmu
      (fun q => { q with timeValid := false }) := by
  rw [State.crystalFails, State.xtal32Fail, h, if_neg Bool.false_ne_true, if_neg Bool.false_ne_true]

/-! ### The throttle (17 R447) -/

theorem stepDue_iff {ms : Nat} : u.stepDue ms = true ↔ ∀ a, u.power.throttledAt = some a → a + ms * 1_000_000 ≤ u.now := by
  simp [State.stepDue, Option.all_eq_true]

theorem exec_throttleRaise (ha : (s.tick dt).awake = true) (h7 : (s.tick dt).power.throttle < 7) (hd : (s.tick dt).stepDue 10 = true) :
    exec (.throttleRaise dt) s = .next ((s.tick dt).setThrottle ((s.tick dt).power.throttle + 1)) :=
  happen_of_ready (ready := fun x => x.awake && decide (x.power.throttle < 7) && x.stepDue 10) (eff := fun x => x.setThrottle (x.power.throttle + 1))
    (by simp only [ha, decide_eq_true h7, hd, Bool.and_self])

theorem exec_throttleLower (ha : (s.tick dt).awake = true) (h0 : 0 < (s.tick dt).power.throttle) (hd : (s.tick dt).stepDue 100 = true) :
    exec (.throttleLower dt) s = .next ((s.tick dt).setThrottle ((s.tick dt).power.throttle - 1)) :=
  happen_of_ready (ready := fun x => x.awake && decide (0 < x.power.throttle) && x.stepDue 100) (eff := fun x => x.setThrottle (x.power.throttle - 1))
    (by simp only [ha, decide_eq_true h0, hd, Bool.and_self])

/-- Source 51 is active from step 4 on. -/
theorem setThrottle_high (h : 4 ≤ k) :
    u.setThrottle k = ((u.modPower (fun p => { p with throttle := k, throttledAt := some u.now })).raise powerStatus [4]).lineOn 51 0 := if_pos h

theorem setThrottle_low (h : k < 4) :
    u.setThrottle k = ((u.modPower (fun p => { p with throttle := k, throttledAt := some u.now })).raise powerStatus [4]).lineOff 51 :=
  if_neg (Nat.not_le.2 h)

/-! ### Idle domains (15 R403) -/

theorem exec_domainIdleOff (h : (s.tick dt).idleOffReady d = true) : exec (.domainIdleOff dt d) s = .next ((s.tick dt).idleOff d) :=
  happen_of_ready (ready := fun x => x.idleOffReady d) (eff := fun x => x.idleOff d) h

/-- The LP5X domains turn off together. -/
theorem idleOff_lp5 (h : d = 84 ∨ d = 85) : u.idleOff d = (u.setDomain 84 false).setDomain 85 false := by
  rcases h with rfl | rfl <;> rfl

theorem offWith_single (h4 : d ≠ 84) (h5 : d ≠ 85) : offWith d = [d] := if_neg (not_or.2 ⟨h4, h5⟩)

theorem settled_of_not_lane (h : d < 64 ∨ 72 ≤ d) : u.settled d = u := if_neg (by omega)

theorem settled_lane (hlo : 64 ≤ d) (hhi : d < 72) : u.settled d = u.follow (d - 64) := if_pos ⟨hlo, hhi⟩

theorem idleOff_single (h4 : d ≠ 84) (h5 : d ≠ 85) : u.idleOff d = (u.settled d).setDomain d false := by
  rw [State.idleOff, offWith_single h4 h5, List.foldl_cons, List.foldl_nil]

/-- Settles O55: each clause is one command and the equation of the reset, supply, clock, throttle or domain change that it carries out. The model's choices
are the free value that decides a short RESET_N pulse (notes/assumptions/68), TEST_EN as bit 6 of the release's operand (notes/assumptions/75), what wakes
(notes/assumptions/76), the cause bits (notes/assumptions/77), the C3 sources that a reset keeps (notes/assumptions/26) and the levels that stand at release
(notes/assumptions/79). -/
theorem resetsAndSupplies : Obligations.ResetsAndSupplies := by
  unfold Obligations.ResetsAndSupplies
  intro dt s u
  refine ⟨?pin, ?unpowered, resetDomains_pending u 2, resetDomains_fuses u 2, resetDomains_lock u 2, resetDomains_debugFails u 2, resetDomains_c3 u 2,
    resetDomains_journey u 2, resetDomains_inReset u 2, resetDomains_crews u 2, ?release, ?supply, ?standby, ?standbyAwake, ?cycle, ?removed, ?window, ?crystal,
    ?raised, ?lowered, ?idle⟩
  case pin =>
    intro h
    refine ⟨fun t ht => ?_, fun t hlo hhi => ?_, fun t ht => ?_⟩
    · rw [exec_resetN_powered h, resetPin_glitch ht]
    · rw [exec_resetN_powered h, resetPin_open hlo hhi]
    · rw [exec_resetN_powered h, resetPin_reset ht]
  case unpowered =>
    intro h t
    exact exec_resetN_unpowered h
  case release =>
    intro straps h t up
    rw [exec_resetRelease h]
    refine ⟨fun hp hm => ?_, fun hp hm => ?_, fun hp => ⟨fun h6 hl => ?_, fun hf => ?_⟩⟩
    · rw [releaseReset_powered hp, if_pos hm]
      rfl
    · rw [releaseReset_powered hp, if_neg hm]
      rfl
    · rw [releaseReset_powerUp hp, h6, hl]
      rfl
    · have noFactory : (bitOf straps 6 && !u.sec.fuses.fieldLock) = false := by
        simpa only [Bool.and_eq_false_iff, Bool.not_eq_false'] using hf
      rw [releaseReset_powerUp hp, noFactory]
      rfl
  case supply =>
    intro ha k
    refine ⟨fun b h => ?_, fun h => ?_⟩
    · rw [exec_supplyFault ha, supplyFails_source h]
    · rw [exec_supplyFault ha, supplyFails_reset h]
  case standby =>
    intro h
    rw [exec_vstbyApplied (.inr h), applyStandby_unpowered h]
  case standbyAwake =>
    intro hv hm
    rw [exec_vstbyApplied (.inl hv), applyStandby_powered hm]
  case cycle =>
    intro t
    rw [exec_powerCycle]
    exact ⟨fun h => congrArg _ (cyclePower_powered h), fun h => congrArg _ (cyclePower_asleep h)⟩
  case removed => exact exec_vstbyRemoved
  case window => exact exec_xtal32RcWindowEnd
  case crystal =>
    intro hm hx
    rw [exec_xtal32Fault hm hx]
    exact ⟨fun h => congrArg _ (crystalFails_inWindow h), fun h => congrArg _ (crystalFails_after h)⟩
  case raised =>
    intro ha h7 hd t
    rw [exec_throttleRaise ha h7 (stepDue_iff.2 hd)]
    exact ⟨fun h => congrArg _ (setThrottle_high (Nat.succ_le_succ h)), fun h => congrArg _ (setThrottle_low (Nat.succ_lt_succ h))⟩
  case lowered =>
    intro ha h0 hd t
    rw [exec_throttleLower ha h0 (stepDue_iff.2 hd)]
    exact ⟨fun h => congrArg _ (setThrottle_high (Nat.le_sub_one_of_lt h)), fun h => congrArg _ (setThrottle_low (Nat.sub_lt_left_of_lt_add h0 h))⟩
  case idle =>
    intro d h
    rw [exec_domainIdleOff h]
    refine ⟨fun hd => congrArg _ (idleOff_lp5 hd), fun hd h4 h5 => ?_, fun hlo hhi => ?_⟩
    · rw [idleOff_single h4 h5, settled_of_not_lane hd]
    · rw [idleOff_single (by omega) (by omega), settled_lane hlo hhi]

end Sys2Proof.Machine
end

section
/-! SUPPORT and CERTIFICATE of managed forwarding (09 R244, R247, R248): late bands, processed lines and frames that reached memory. -/

namespace Sys2Proof.Machine

open Sys2Proof

variable {s u : State} {dt p v k b i t0 cause band : Nat} {e : FwdFrame} {rest : List FwdFrame}

/-! ### Losses (09 R248) -/

theorem fwdLoss_crewEnabled (hc : u.crewEnabled (u.fwdNum k 3) = true) :
    u.fwdLoss k cause =
      ((u.modSlot k (fun q => { q with fwdIncomplete := q.fwdIncomplete + 1 })).raise (camStatus (k / 4)) [10]).fwdPost k 0x12 cause :=
  if_pos hc

theorem fwdLoss_crewDisabled (hc : u.crewEnabled (u.fwdNum k 3) = false) : u.fwdLoss k cause = u :=
  if_neg (Bool.not_eq_true _ ▸ hc)

/-! ### Late bands (09 R247) -/

/-- Band `b` of frame `f` skipped: its lines are not forwarded, and the frame is spoiled. -/
def State.skipBand (u : State) (k f b : Nat) : State :=
  u.modSlot k (fun q => q.modFwd f (fun x =>
    { x with bands := x.bands.filter (fun y => y.1 != b), skipped := b :: x.skipped, spoiled := true }))

/-- Skipping a band leaves the crew of the forwarding as it is. -/
@[simp] theorem skipBand_fwdCrewEnabled (u : State) (k f b : Nat) :
    (u.skipBand k f b).crewEnabled ((u.skipBand k f b).fwdNum k 3) = u.crewEnabled (u.fwdNum k 3) := rfl

theorem abandonBand_late (h : u.lateBand k b = some e) :
    u.abandonBand k b = if e.spoiled then u.skipBand k e.frame b else (u.skipBand k e.frame b).fwdLoss k 3 := by
  rw [State.abandonBand, h]
  rfl

/-- A frame that was lost before, or one of a disabled crew, is not lost again. -/
theorem abandonBand_uncounted (h : u.lateBand k b = some e) (hc : e.spoiled = true ∨ u.crewEnabled (u.fwdNum k 3) = false) :
    u.abandonBand k b = u.skipBand k e.frame b := by
  rw [abandonBand_late h]
  split
  next => rfl
  next hs => exact fwdLoss_crewDisabled (by simpa [hs] using hc)

/-- The first late band of a frame loses it with cause 3. -/
theorem abandonBand_loses (hp : k / 4 = p) (h : u.lateBand k b = some e) (hs : e.spoiled = false) (hc : u.crewEnabled (u.fwdNum k 3) = true) :
    u.abandonBand k b =
      (((u.skipBand k e.frame b).modSlot k (fun q => { q with fwdIncomplete := q.fwdIncomplete + 1 })).raise (camStatus p) [10]).fwdPost k 0x12 3 := by
  rw [abandonBand_late h, if_neg (Bool.not_eq_true _ ▸ hs), fwdLoss_crewEnabled ((skipBand_fwdCrewEnabled u k e.frame b).trans hc), hp]

/-! ### Processed lines (09 R244, R247) -/

/-- Line `i` of band `b`, the next to be signalled, put into the processed ring; the band goes with its last line. -/
def State.storeProcessed (u : State) (k : Nat) (e : FwdFrame) (b i t0 : Nat) : State :=
  u.modSlot k (fun q =>
    { q with ringLines := tabSet q.ringLines (processedKey (32 * b + i)) (u.processedLine k e (32 * b + i)) }.modFwd e.frame (fun x =>
      { x with bands := if u.bandLines k b ≤ i + 1 then x.bands.drop 1 else (b, i + 1, t0) :: x.bands.drop 1 }))

theorem signalProcessed_next (hp : k / 4 = p) (h : u.nextProcessed k = some (e, b, i, t0)) :
    u.signalProcessed k =
      (let t := u.storeProcessed k e b i t0
       (if u.lineDone k then (List.range (u.fwdPulses k)).foldl (fun w _ => w.pulse p) t else t).fwdRequest k e.frame (u.fwdPulses k)) := by
  rw [State.signalProcessed, h, ← hp]
  rfl

/-! ### Frames that reached memory (09 R248) -/

theorem fwdFinish_posts (h : (u.slot k).fwd = e :: rest) (hc : u.crewEnabled (u.fwdNum k 3) = true) (hs : e.spoiled = false) :
    u.fwdFinish k =
      ((u.modSlot k (fun q => { q with fwdFrames := q.fwdFrames + 1 })).fwdPost k 0x11
        ((u.slot k).fwdFrames % (max 1 (u.fwdNum k 8)))).fwdDrop k e.frame := by
  simp only [State.fwdFinish, h, hc, hs, Bool.not_false, Bool.and_self, if_true]

theorem fwdFinish_uncounted (h : (u.slot k).fwd = e :: rest) (hc : u.crewEnabled (u.fwdNum k 3) = false ∨ e.spoiled = true) :
    u.fwdFinish k = u.fwdDrop k e.frame := by
  have quiet : (u.crewEnabled (u.fwdNum k 3) && !e.spoiled) = false := by
    simpa only [Bool.and_eq_false_iff, Bool.not_eq_false'] using hc
  simp only [State.fwdFinish, h, quiet, Bool.false_eq_true, if_false]

/-! ### The commands of an awake device -/

theorem awake_slot_ready {ready : Bool} (hp : p < 8) (hv : v < 4) (ha : u.awake = true) (h : ready = true) :
    (decide (p < 8) && decide (v < 4) && u.awake && ready) = true := by
  rw [slot_ready hp hv ha, h, Bool.and_self]

theorem exec_bandAbandoned (hp : p < 8) (hv : v < 4) (ha : (s.tick dt).awake = true)
    (h : (s.tick dt).lateBand (p * 4 + v) band = some e) :
    exec (.bandAbandoned dt p v band) s = .next ((s.tick dt).abandonBand (p * 4 + v) band) :=
  happen_of_ready (ready := fun t => decide (p < 8) && decide (v < 4) && t.awake && (t.lateBand (p * 4 + v) band).isSome)
    (eff := fun t => t.abandonBand (p * 4 + v) band) (awake_slot_ready hp hv ha (Option.isSome_of_eq_some h))

theorem exec_processedLineSignal (hp : p < 8) (hv : v < 4) (ha : (s.tick dt).awake = true)
    (h : (s.tick dt).nextProcessed (p * 4 + v) = some (e, b, i, t0)) :
    exec (.processedLineSignal dt p v) s = .next ((s.tick dt).signalProcessed (p * 4 + v)) :=
  happen_of_ready (ready := fun t => decide (p < 8) && decide (v < 4) && t.awake && (t.nextProcessed (p * 4 + v)).isSome)
    (eff := fun t => t.signalProcessed (p * 4 + v)) (awake_slot_ready hp hv ha (Option.isSome_of_eq_some h))

theorem exec_forwardDone (hp : p < 8) (hv : v < 4) (ha : (s.tick dt).awake = true) (h : (s.tick dt).fwdComplete (p * 4 + v) = true) :
    exec (.forwardDone dt p v) s = .next ((s.tick dt).fwdFinish (p * 4 + v)) :=
  happen_of_ready (ready := fun t => decide (p < 8) && decide (v < 4) && t.awake && t.fwdComplete (p * 4 + v))
    (eff := fun t => t.fwdFinish (p * 4 + v)) (awake_slot_ready hp hv ha h)

/-- Settles O33: each clause is one command of a forwarding slot and the equation of the late band, processed line or finished frame that it comes to. That
a band is abandoned 31 line periods after its release where no line of it is signalled, that the loss is posted at that instant, and that a line period not
yet measured counts as 0 are the model's choices (notes/assumptions/54, 31 and 103). -/
theorem managedForwarding : Obligations.ManagedForwarding := by
  unfold Obligations.ManagedForwarding
  intro dt p v s hp hv u k
  have port : k / 4 = p := slot_port hv
  refine ⟨?band, ?line, ?frame⟩
  case band =>
    intro band e ha h t
    rw [exec_bandAbandoned hp hv ha h]
    exact ⟨fun hc => congrArg _ (abandonBand_uncounted h hc), fun hs hc => congrArg _ (abandonBand_loses port h hs hc)⟩
  case line =>
    intro e b i t0 ha h t w
    rw [exec_processedLineSignal hp hv ha h]
    exact congrArg _ (signalProcessed_next port h)
  case frame =>
    intro e rest ha hd h t
    rw [exec_forwardDone hp hv ha hd]
    exact ⟨fun hc hs => congrArg _ (fwdFinish_posts h hc hs), fun hc => congrArg _ (fwdFinish_uncounted h hc)⟩

end Sys2Proof.Machine
end

section
/-! SUPPORT and CERTIFICATE of a mover channel's controls (10 R265, R271, R272, R281, R282); those of a utility DMA channel (10 R279) are the
same, but for requests. -/

namespace Sys2Proof.Machine

open Sys2Proof

variable {s u : State} {dt k n bit : Nat} {acc : Acc}

/-! ### A control of CH.CTRL written alone (10 R265, R282) -/

theorem controlWrite_move (hk : k < 64) (hb : bit < 4) (h : lands u acc .move (k * 0x100 + 0x40) = true) (hm : (u.channel k).managed = none) :
    u.controlWrite acc bit = u.controls k (2 ^ bit) := by
  have own : lands u acc (if k < 64 then .move else .udma) (k % 64 * 0x100 + 0x40) = true := by rwa [if_pos hk, Nat.mod_eq_of_lt hk]
  obtain ⟨-, hw⟩ := control_lands (bit := bit) (by omega) (by omega) own (.inl hm)
  exact hw

theorem controlWrite_udma (hn : n < 8) (hb : bit < 3) (h : lands u acc .udma (n * 0x100 + 0x40) = true) (hm : (u.channel (64 + n)).managed = none) :
    u.controlWrite acc bit = u.controls (64 + n) (2 ^ bit) := by
  have own : lands u acc (if 64 + n < 64 then .move else .udma) ((64 + n) % 64 * 0x100 + 0x40) = true := by
    rwa [if_neg (by omega), show (64 + n) % 64 = n by omega]
  obtain ⟨-, hw⟩ := control_lands (by omega) (.inl hb) own (.inl hm)
  exact hw

theorem controls_start : u.controls k (2 ^ 0) = u.moverStart k := rfl
theorem controls_resume : u.controls k (2 ^ 1) = u.moverResume k := rfl
theorem controls_abort : u.controls k (2 ^ 2) = u.moverAbort k := rfl
theorem controls_request (hk : k < 64) : u.controls k (2 ^ 3) = u.request k := if_pos ⟨rfl, hk⟩

/-- A row of the command table that writes one control of a raw mover channel. -/
theorem happen_moveControl (hk : k < 64) (hb : bit < 4) (h : lands (s.tick dt) acc .move (k * 0x100 + 0x40) = true)
    (hm : ((s.tick dt).channel k).managed = none) :
    happen dt (fun t => decide (k < 64) && t.isReg acc .move (k * 0x100 + 0x40)) (fun t => t.controlWrite acc bit) s =
      .next ((s.tick dt).controls k (2 ^ bit)) := by
  rw [happen_of_ready (by rw [decide_eq_true hk, isReg_of_lands h]; rfl), controlWrite_move hk hb h hm]

/-- The same of a utility DMA channel. -/
theorem happen_udmaControl (hn : n < 8) (hb : bit < 3) (h : lands (s.tick dt) acc .udma (n * 0x100 + 0x40) = true)
    (hm : ((s.tick dt).channel (64 + n)).managed = none) :
    happen dt (fun t => decide (n < 8) && t.isReg acc .udma (n * 0x100 + 0x40)) (fun t => t.controlWrite acc bit) s =
      .next ((s.tick dt).controls (64 + n) (2 ^ bit)) := by
  rw [happen_of_ready (by rw [decide_eq_true hn, isReg_of_lands h]; rfl), controlWrite_udma hn hb h hm]

theorem exec_moverStart (hk : k < 64) (h : lands (s.tick dt) acc .move (k * 0x100 + 0x40) = true) (hm : ((s.tick dt).channel k).managed = none) :
    exec (.moverStart dt acc k) s = .next ((s.tick dt).moverStart k) :=
  (happen_moveControl hk (by decide) h hm).trans (congrArg _ controls_start)

theorem exec_moverResume (hk : k < 64) (h : lands (s.tick dt) acc .move (k * 0x100 + 0x40) = true) (hm : ((s.tick dt).channel k).managed = none) :
    exec (.moverResume dt acc k) s = .next ((s.tick dt).moverResume k) :=
  (happen_moveControl hk (by decide) h hm).trans (congrArg _ controls_resume)

theorem exec_moverAbort (hk : k < 64) (h : lands (s.tick dt) acc .move (k * 0x100 + 0x40) = true) (hm : ((s.tick dt).channel k).managed = none) :
    exec (.moverAbort dt acc k) s = .next ((s.tick dt).moverAbort k) :=
  (happen_moveControl hk (by decide) h hm).trans (congrArg _ controls_abort)

theorem exec_moverSwReq (hk : k < 64) (h : lands (s.tick dt) acc .move (k * 0x100 + 0x40) = true) (hm : ((s.tick dt).channel k).managed = none) :
    exec (.moverSwReq dt acc k) s = .next ((s.tick dt).request k) :=
  (happen_moveControl hk (by decide) h hm).trans (congrArg _ (controls_request hk))

theorem exec_udmaStart (hn : n < 8) (h : lands (s.tick dt) acc .udma (n * 0x100 + 0x40) = true) (hm : ((s.tick dt).channel (64 + n)).managed = none) :
    exec (.udmaStart dt acc n) s = .next ((s.tick dt).moverStart (64 + n)) :=
  (happen_udmaControl hn (by decide) h hm).trans (congrArg _ controls_start)

theorem exec_udmaResume (hn : n < 8) (h : lands (s.tick dt) acc .udma (n * 0x100 + 0x40) = true) (hm : ((s.tick dt).channel (64 + n)).managed = none) :
    exec (.udmaResume dt acc n) s = .next ((s.tick dt).moverResume (64 + n)) :=
  (happen_udmaControl hn (by decide) h hm).trans (congrArg _ controls_resume)

theorem exec_udmaAbort (hn : n < 8) (h : lands (s.tick dt) acc .udma (n * 0x100 + 0x40) = true) (hm : ((s.tick dt).channel (64 + n)).managed = none) :
    exec (.udmaAbort dt acc n) s = .next ((s.tick dt).moverAbort (64 + n)) :=
  (happen_udmaControl hn (by decide) h hm).trans (congrArg _ controls_abort)

/-! ### Start (10 R282) -/

/-- A channel whose registers' transfer begins, before it is checked. -/
def State.restarted (u : State) (k : Nat) : State :=
  u.modChannel k (fun x =>
    ({ x with err := 0, pending := 0, outer := 0, middle := 0, desc := 0, descWords := [], hops := 0, transfers := 0,
              inFlight := [], abandoned := 0 }).settled (u.chPaced k))

/-- The all-channel stop holds the mover's channels alone. -/
def State.underStop (u : State) (k : Nat) : Prop := k < 64 ∧ u.mover.stoppedAll = true

theorem not_underStop_of_running (h : u.mover.stoppedAll = false) : ¬ u.underStop k := fun ⟨_, hs⟩ => nomatch h.symm.trans hs

theorem not_underStop_udma : ¬ u.underStop (64 + n) := fun ⟨hk, _⟩ => by omega

theorem moverStart_accepted (hm : (u.channel k).managed = none) (hc : (u.channel k).mode = .idle ∨ (u.channel k).mode = .error)
    (hh : ¬ u.underStop k) :
    u.moverStart k = if (u.restarted k).startError k = 0 then u.restarted k else (u.restarted k).chError k ((u.restarted k).startError k) := by
  have accepted : ¬ ((u.channel k).managed.isSome = true ∨
      (!(decide ((u.channel k).mode = .idle) || decide ((u.channel k).mode = .error))) = true ∨ u.underStop k) := by
    simp only [hm, Option.isSome_none, Bool.false_eq_true, false_or, not_or, Bool.not_eq_true', Bool.or_eq_false_iff, decide_eq_false_iff_not]
    exact ⟨not_and_or.2 (hc.imp not_not.2 not_not.2), hh⟩
  exact if_neg accepted

theorem moverStart_refused (h : ¬ ((u.channel k).mode = .idle ∨ (u.channel k).mode = .error) ∨ u.underStop k) : u.moverStart k = u.chRefuse k := by
  have busy : ¬ ((u.channel k).mode = .idle ∨ (u.channel k).mode = .error) →
      (!(decide ((u.channel k).mode = .idle) || decide ((u.channel k).mode = .error))) = true := by
    simp only [not_or, Bool.not_eq_true', Bool.or_eq_false_iff, decide_eq_false_iff_not, imp_self]
  exact if_pos (.inr (h.imp_left busy))

/-! ### Resume (10 R282) -/

/-- A channel that resume continues: one that the stop, a bus error of its own or a translation error ended. -/
def State.resumable (u : State) (k : Nat) : Prop :=
  ((u.channel k).mode = .stopped ∧ ¬ u.underStop k) ∨ ((u.channel k).mode = .error ∧ (u.channel k).err = 1)

theorem resumable_iff : u.resumable k ↔ ((u.channel k).mode = .stopped ∧ (!(decide (k < 64) && u.mover.stoppedAll)) = true) ∨
    ((u.channel k).mode = .error ∧ (u.channel k).err = 1) := by
  have held : (!(decide (k < 64) && u.mover.stoppedAll)) = true ↔ ¬ u.underStop k := by
    rw [Bool.not_eq_true', ← Bool.not_eq_true, Bool.and_eq_true, decide_eq_true_eq, State.underStop]
  rw [held, State.resumable]

theorem moverResume_accepted (hm : (u.channel k).managed = none) (h : u.resumable k) : u.moverResume k = u.chResume k :=
  if_pos ⟨by rw [hm]; rfl, resumable_iff.1 h⟩

theorem moverResume_refused (h : ¬ u.resumable k) : u.moverResume k = u.chRefuse k :=
  if_neg (fun ⟨_, hr⟩ => h (resumable_iff.2 hr))

/-! ### Abort (10 R272, R282) -/

/-- A channel made idle with code ABORTED, its bursts in flight abandoned. -/
def State.aborted (u : State) (k : Nat) : State := u.modChannel k (fun x => { x with mode := .idle, err := 6, inFlight := [], abandoned := 0 })

theorem moverAbort_raw (hm : (u.channel k).managed = none) :
    u.moverAbort k = if (u.channel k).mode = .idle then (u.dropRequests k).aborted k
      else (((u.dropRequests k).aborted k).chRaise k 2).movePost k 0x17 6 :=
  if_neg (by rw [hm]; exact Bool.false_ne_true)

/-- A mover channel's pending requests become its leftover ones, and raise their event where there are any. -/
theorem dropRequests_move (hk : k < 64) :
    u.dropRequests k = (let t := u.modChannel k (fun x => { x with pending := 0, leftover := (u.channel k).pending })
      if (u.channel k).pending = 0 then t else t.raise (channelStatus k) [5]) := if_neg (Nat.not_le.2 hk)

theorem dropRequests_udma : u.dropRequests (64 + n) = u := if_pos (Nat.le_add_right 64 n)

/-! ### Requests (10 R271, R272) -/

theorem modChannel_congr {f g : Channel → Channel} (h : f (u.channel k) = g (u.channel k)) : u.modChannel k f = u.modChannel k g := by
  have same : f (tabGet blankChannel u.channels k) = g (tabGet blankChannel u.channels k) := h
  simp only [State.modChannel, tabMod, same]

/-- A channel's next request, counted in its mode. -/
theorem request_busy (hc : ¬ ((u.channel k).mode = .idle ∨ (u.channel k).mode = .error)) :
    u.request k = if 15 ≤ (u.channel k).pending then u.raise (channelStatus k) [1]
      else u.modChannel k (fun x =>
        if x.mode = .stopped then { x with pending := x.pending + 1 } else ({ x with pending := x.pending + 1 }).settled true) :=
  if_neg hc

theorem request_counted (hc : (u.channel k).mode = .running ∨ (u.channel k).mode = .waiting) (hp : (u.channel k).pending < 15) :
    u.request k = u.modChannel k (fun x => ({ x with pending := x.pending + 1 }).settled true) := by
  rw [request_busy (by rcases hc with h | h <;> simp [h]), if_neg (Nat.not_le.2 hp)]
  exact modChannel_congr (if_neg (by rcases hc with h | h <;> simp [h]))

theorem request_stopped (hc : (u.channel k).mode = .stopped) (hp : (u.channel k).pending < 15) :
    u.request k = u.modChannel k (fun x => { x with pending := x.pending + 1 }) := by
  rw [request_busy (by simp [hc]), if_neg (Nat.not_le.2 hp)]
  exact modChannel_congr (if_pos hc)

theorem request_lost (hc : (u.channel k).mode = .running ∨ (u.channel k).mode = .waiting ∨ (u.channel k).mode = .stopped)
    (hp : 15 ≤ (u.channel k).pending) : u.request k = u.raise (channelStatus k) [1] := by
  rw [request_busy (by rcases hc with h | h | h <;> simp [h]), if_pos hp]

/-- Settles O37: each control is the only one that its write of CH.CTRL sets, and by the channel's mode it is carried out or refused. That the write keeps
the register's other fields (notes/assumptions/47), and that an abort abandons every burst in flight, where 10 R282 has those whose writes have begun
completed (notes/assumptions/21), are the model's choices. -/
theorem moverControls : Obligations.MoverControls := by
  unfold Obligations.MoverControls
  intro dt k acc s hk u c hl hm t refused dropped
  refine ⟨?start, ?startRefused, ?resume, ?resumeRefused, ?abort, ?counted, ?countedStopped, ?lost⟩
  case start =>
    intro hc hs
    rw [exec_moverStart hk hl hm, moverStart_accepted hm hc (not_underStop_of_running hs)]
    rfl
  case startRefused =>
    intro h
    have bars : ¬ (c.mode = .idle ∨ c.mode = .error) ∨ u.underStop k := by
      rcases h with h | h | h | h
      · exact .inl (by simp [h])
      · exact .inl (by simp [h])
      · exact .inl (by simp [h])
      · exact .inr ⟨hk, h⟩
    rw [exec_moverStart hk hl hm, moverStart_refused bars]
    rfl
  case resume =>
    intro h
    rw [exec_moverResume hk hl hm, moverResume_accepted hm (h.imp_left fun ⟨hc, hs⟩ => ⟨hc, not_underStop_of_running hs⟩)]
    rfl
  case resumeRefused =>
    intro h
    have bars : ¬ u.resumable k := by
      unfold State.resumable
      rcases h with h | h | h | ⟨h, he⟩ | ⟨h, hs⟩
      · simp [show (u.channel k).mode = .idle from h]
      · simp [show (u.channel k).mode = .running from h]
      · simp [show (u.channel k).mode = .waiting from h]
      · simp [show (u.channel k).mode = .error from h, show (u.channel k).err ≠ 1 from he]
      · simp [show (u.channel k).mode = .stopped from h, show u.underStop k from ⟨hk, hs⟩]
    rw [exec_moverResume hk hl hm, moverResume_refused bars]
    rfl
  case abort =>
    rw [exec_moverAbort hk hl hm, moverAbort_raw hm, dropRequests_move hk]
    rfl
  case counted =>
    intro hc hp
    rw [exec_moverSwReq hk hl hm, request_counted hc hp]
  case countedStopped =>
    intro hc hp
    rw [exec_moverSwReq hk hl hm, request_stopped hc hp]
  case lost =>
    intro hc hp
    rw [exec_moverSwReq hk hl hm, request_lost hc hp]

end Sys2Proof.Machine
end

section
/-! SUPPORT and CERTIFICATE of the mover's work (10 R268 to R278, 11 R309): requests, bursts, descriptors, the all-channel stop and its end. -/

namespace Sys2Proof.Machine

open Sys2Proof

variable {s u t w : State} {dt k c o m : Nat} {acc : Acc} {src dst : List (Bool × Nat)} {e : BusError} {unit : Option (Bool × Nat)}

/-! ### Requests (10 R271, R272) -/

theorem exec_requestEdge {line : Nat} (ha : (s.tick dt).awake = true) (hl : line < 64) (hm : (s.tick dt).lineMapped line = true) :
    exec (.requestEdge dt line) s = .next ((s.tick dt).pulse line) :=
  happen_of_ready (ready := fun x => x.awake && decide (line < 64) && x.lineMapped line) (eff := fun x => x.pulse line)
    (by rw [ha, decide_eq_true hl, hm]; rfl)

theorem exec_swLineWrite {v : Word} (h : lands (s.tick dt) acc .move 0xD4 = true) :
    exec (.swLineWrite dt acc v) s = .next ((s.tick dt).swLines v.toNat) := by
  obtain ⟨hi, r, eb, eo, -, hw⟩ := moveCommand_lands (row := cmdReg 0xD4 0) h (by decide) (by decide) (by decide) (by decide) rfl v.toNat (Nat.and_zero _)
  show execSwLineWrite dt acc v s = _
  rw [execSwLineWrite, happen_of_ready hi, hw]
  simp only [State.command, eb, eo, show ¬ 0xD4 = 0xC4 by decide, if_false]

/-! ### Bursts started (10 R268, R270, R275) -/

/-- The channel that the mover serves next starts its burst: a managed one that of its camera's frame. -/
theorem exec_moverBurstStart (hk : k < 64) (ha : (s.tick dt).awake = true) (hn : (s.tick dt).moverNext = some k) :
    (∀ j, ((s.tick dt).channel k).managed = some j → exec (.moverBurstStart dt k) s = .next ((s.tick dt).fwdBurst k j)) ∧
      (((s.tick dt).channel k).managed = none → exec (.moverBurstStart dt k) s = .next ((s.tick dt).burstStart k)) := by
  have started : exec (.moverBurstStart dt k) s = _ :=
    happen_of_ready (ready := fun x => decide (k < 64) && x.awake && decide (x.moverNext = some k))
      (eff := fun x => match (x.channel k).managed with | some j => x.fwdBurst k j | none => x.burstStart k)
      (by rw [decide_eq_true hk, ha, decide_eq_true hn]; rfl)
  exact ⟨fun j hm => by rw [started, hm], fun hm => by rw [started, hm]⟩

/-- A paced channel's request, which its burst takes. -/
def State.requestTaken (u : State) (k : Nat) : State :=
  if u.chPaced k then u.modChannel k (fun x => { x with pending := x.pending - 1 }) else u

theorem burstStart_unowned (ho : u.chOwner k = none) : u.burstStart k = (u.requestTaken k).chError k 1 := by
  simp only [State.burstStart, ho]
  rfl

section BurstStart

/-! The burst of a raw channel lies at the loop place `(o, m)` and moves the elements `src` to `dst`. -/

variable (hp : placeAfter (u.xfer k) (u.channel k) (u.channel k).inFlight.length = (o, m)) (he : u.elements k (u.xfer k) o m = (src, dst))
include hp he

theorem burstStart_sourceFault (ho : u.chOwner k = some c) (hs : (u.requestTaken k).reachAll c (u.ws k) false k src = (t, false)) :
    u.burstStart k = t.chError k 1 := by
  unfold State.requestTaken at hs
  simp only [State.burstStart, hp, he, ho, hs]

theorem burstStart_destinationFault (ho : u.chOwner k = some c) (hs : (u.requestTaken k).reachAll c (u.ws k) false k src = (t, true))
    (hd : t.reachAll c (u.wd k) true k dst = (w, false)) : u.burstStart k = w.chError k 1 := by
  unfold State.requestTaken at hs
  simp only [State.burstStart, hp, he, ho, hs, hd]

theorem burstStart_targetError (ho : u.chOwner k = some c) (hs : (u.requestTaken k).reachAll c (u.ws k) false k src = (t, true))
    (hd : t.reachAll c (u.wd k) true k dst = (w, true)) (ht : w.targetError c (u.ws k) k false src = some (e, unit)) :
    u.burstStart k = w.failAccess k e unit := by
  unfold State.requestTaken at hs
  simp only [State.burstStart, hp, he, ho, hs, hd, ht]

theorem burstStart_started (ho : u.chOwner k = some c) (hs : (u.requestTaken k).reachAll c (u.ws k) false k src = (t, true))
    (hd : t.reachAll c (u.wd k) true k dst = (w, true)) (ht : w.targetError c (u.ws k) k false src = none) :
    u.burstStart k = (w.modMover (fun v => { v with served := k })).modChannel k (fun x =>
      ({ x with inFlight := x.inFlight ++ [w.makeBurst c k o m src dst] }).settled (u.chPaced k)) := by
  unfold State.requestTaken at hs
  simp only [State.burstStart, hp, he, ho, hs, hd, ht]

end BurstStart

/-! ### Bursts committed (10 R268, R276) -/

section BurstDone

variable {b : Burst} {rest : List Burst}

theorem exec_moverBurstDone (hk : k < 64) (ha : (s.tick dt).awake = true) (hb : ((s.tick dt).channel k).inFlight = b :: rest) :
    (∀ j, ((s.tick dt).channel k).managed = some j → exec (.moverBurstDone dt k) s = .next ((s.tick dt).fwdBurstDone k j)) ∧
      (((s.tick dt).channel k).managed = none → exec (.moverBurstDone dt k) s = .next ((s.tick dt).burstDone k)) := by
  have done : exec (.moverBurstDone dt k) s = _ :=
    happen_of_ready (ready := fun x => decide (k < 64) && x.awake && decide ((x.channel k).inFlight ≠ []))
      (eff := fun x => match (x.channel k).managed with | some j => x.fwdBurstDone k j | none => x.burstDone k)
      (by rw [decide_eq_true hk, ha, hb]; rfl)
  exact ⟨fun j hm => by rw [done, hm], fun hm => by rw [done, hm]⟩

theorem burstDone_fails (hb : (u.channel k).inFlight = b :: rest) (hw : u.writeFails k b = true) : u.burstDone k = u.failWrite k b := by
  simp only [State.burstDone, hb, hw, if_true]

/-- The first burst in flight committed: the channel goes on at the place `(o, m)`, with the bursts `rest` in flight. -/
def State.burstCommitted (u : State) (k : Nat) (b : Burst) (rest : List Burst) (o m : Nat) : State :=
  ((u.commitBurst b).count (chanCount k) 1).modChannel k (fun x =>
    if x.mode = .running ∨ x.mode = .waiting then ({ x with inFlight := rest, outer := o, middle := m }).settled (u.chPaced k)
    else { x with inFlight := rest, outer := o, middle := m })

theorem burstDone_commits (hb : (u.channel k).inFlight = b :: rest) (hw : u.writeFails k b = false)
    (hp : placeAfter (u.xfer k) (u.channel k) 1 = (o, m)) :
    u.burstDone k = if (u.xfer k).outer ≤ o then (u.burstCommitted k b rest o m).endTransfer k else u.burstCommitted k b rest o m := by
  simp only [State.burstDone, hb, hw, hp, Bool.false_eq_true, if_false]
  rfl

end BurstDone

/-! ### Descriptors (10 R273, R274) -/

theorem fetchReady_lt (h : u.fetchReady k = true) : k < 64 := by
  simp only [State.fetchReady, Bool.and_eq_true, decide_eq_true_eq] at h
  obtain ⟨⟨⟨⟨⟨⟨hk, -⟩, -⟩, -⟩, -⟩, -⟩, -⟩ := h
  exact hk

theorem exec_descriptorFetch (ha : (s.tick dt).awake = true) (h : (s.tick dt).fetchReady k = true) :
    exec (.descriptorFetch dt k) s = .next ((s.tick dt).fetchDesc k) :=
  happen_of_ready (ready := fun x => decide (k < 64) && x.awake && x.fetchReady k) (eff := fun x => x.fetchDesc k)
    (by rw [decide_eq_true (fetchReady_lt h), ha, h]; rfl)

/-- The element of 32 bytes that holds the descriptor at `a`. -/
def descElement (a : Nat) : List (Bool × Nat) := [(bitOf a 62, a % 2 ^ 62)]

/-- Word `i` of the descriptor at `a`, as crew `c` reads it. -/
def State.descWord (u : State) (c a i : Nat) : Nat := leNat ((((descElement a).flatMap (u.elementBytes c 32)).drop (8 * i)).take 8)

/-- Channel `k` about to run the descriptor at `a`, one hop further. -/
def State.withDesc (u : State) (c k a : Nat) : State :=
  u.modChannel k (fun x => { x with desc := a, hops := x.hops + 1, outer := 0, middle := 0,
                                    descWords := [u.descWord c a 0, u.descWord c a 1, u.descWord c a 2, u.descWord c a 3] })

theorem fetchDesc_hopLimit (hh : u.chReg k 0x3C ≤ (u.channel k).hops) :
    u.fetchDesc k = (u.modChannel k (fun x => { x with desc := u.nextDesc k })).chainError k 3 := if_pos hh

theorem fetchDesc_address (hh : (u.channel k).hops < u.chReg k 0x3C) (ha : spaceOk (u.nextDesc k) = false ∨ u.nextDesc k % 32 ≠ 0) :
    u.fetchDesc k = (u.modChannel k (fun x => { x with desc := u.nextDesc k })).chainError k 5 :=
  (if_neg (Nat.not_le.2 hh)).trans (if_pos (ha.imp_left (Bool.not_eq_true' _).mpr))

theorem descAddress_right {a : Nat} (hs : spaceOk a = true) (ha : a % 32 = 0) : ¬ ((!spaceOk a) = true ∨ a % 32 ≠ 0) := by simp [hs, ha]

section DescriptorRead

/-! The hop limit leaves room for the next descriptor, and its address is right. -/

variable (hh : (u.channel k).hops < u.chReg k 0x3C) (hs : spaceOk (u.nextDesc k) = true) (ha : u.nextDesc k % 32 = 0)
include hh hs ha

theorem fetchDesc_unowned (ho : u.chOwner k = none) : u.fetchDesc k = u.chError k 1 := by
  simp only [State.fetchDesc, if_neg (Nat.not_le.2 hh), if_neg (descAddress_right hs ha), ho]

theorem fetchDesc_fault (ho : u.chOwner k = some c) (hr : u.reachAll c 32 false k (descElement (u.nextDesc k)) = (t, false)) :
    u.fetchDesc k = t.chError k 1 := by
  unfold descElement at hr
  simp only [State.fetchDesc, if_neg (Nat.not_le.2 hh), if_neg (descAddress_right hs ha), ho, hr]

theorem fetchDesc_targetError (ho : u.chOwner k = some c) (hr : u.reachAll c 32 false k (descElement (u.nextDesc k)) = (t, true))
    (ht : t.targetError c 32 k false (descElement (u.nextDesc k)) = some (e, unit)) :
    u.fetchDesc k = (t.failAccess k e unit).modChannel k (fun x => { x with abandoned := (u.channel k).abandoned }) := by
  unfold descElement at hr ht
  simp only [State.fetchDesc, if_neg (Nat.not_le.2 hh), if_neg (descAddress_right hs ha), ho, hr, ht]

theorem fetchDesc_read (ho : u.chOwner k = some c) (hr : u.reachAll c 32 false k (descElement (u.nextDesc k)) = (t, true))
    (ht : t.targetError c 32 k false (descElement (u.nextDesc k)) = none) :
    u.fetchDesc k =
      (let d := t.withDesc c k (u.nextDesc k)
       if bits (t.descWord c (u.nextDesc k) 2) 63 50 ≠ 0 ∨ d.xferError k (d.xfer k) ≠ 0 then d.chainError k 5
       else d.modChannel k (fun x => x.settled (u.chPaced k))) := by
  unfold descElement at hr ht
  simp only [State.fetchDesc, if_neg (Nat.not_le.2 hh), if_neg (descAddress_right hs ha), ho, hr, ht]
  rfl

end DescriptorRead

/-! ### The all-channel stop (10 R275, R277) -/

theorem exec_moverBusError {complete : List (Nat × Nat)} (ha : (s.tick dt).awake = true) (hn : (s.tick dt).mover.stopping = none)
    (hs : (s.tick dt).mover.stoppedAll = false)
    (h : ∃ p ∈ (s.tick dt).channels, p.1 < 64 ∧ (p.2.inFlight ≠ [] ∨ (s.tick dt).fetchReady p.1 = true)) :
    exec (.moverBusError dt e complete) s = .next ((s.tick dt).busError e complete) := by
  have accesses : (s.tick dt).channels.any (fun p => decide (p.1 < 64) && (decide (p.2.inFlight ≠ []) || (s.tick dt).fetchReady p.1)) = true := by
    simpa only [List.any_eq_true, Bool.and_eq_true, Bool.or_eq_true, decide_eq_true_eq] using h
  exact happen_of_ready
    (ready := fun x => x.awake && x.mover.stopping.isNone && !x.mover.stoppedAll &&
      x.channels.any (fun p => decide (p.1 < 64) && (decide (p.2.inFlight ≠ []) || x.fetchReady p.1)))
    (eff := fun x => x.busError e complete) (by rw [ha, hn, hs, accesses]; rfl)

theorem exec_allStopComplete (ha : (s.tick dt).awake = true) (hn : (s.tick dt).mover.stopping = some e)
    (h : ∀ i, i < 64 → ((s.tick dt).channel i).inFlight = []) : exec (.allStopComplete dt) s = .next ((s.tick dt).stopAll e) := by
  have complete : (List.range 64).all (fun i => ((s.tick dt).channel i).inFlight.isEmpty) = true := by
    simpa only [List.all_eq_true, List.mem_range, List.isEmpty_iff] using h
  have stops : exec (.allStopComplete dt) s = _ :=
    happen_of_ready (ready := fun x => x.awake && x.stopReady) (eff := fun x => match x.mover.stopping with | some b => x.stopAll b | none => x)
      (by rw [ha, State.stopReady, hn, complete]; rfl)
  rw [stops, hn]

/-! ### The end of the stop (10 R278) -/

/-- A write of MOVE.STOP.clear that keeps the register's PV bits. -/
theorem stopClear_keeps_pv (x : Nat) : (x ^^^ ((x &&& 0xFFFF_FFFC) ||| 2)) &&& 0xFFFF_FFFC = 0 := by
  rw [Nat.and_xor_distrib_right, Nat.and_or_distrib_right, Nat.and_assoc]
  simp

theorem stopClear_sets_clear (x : Nat) : bitOf ((x &&& 0xFFFF_FFFC) ||| 2) 1 = true := by
  rw [bitOf, Nat.testBit_or, show Nat.testBit 2 1 = true by decide, Bool.or_true]

theorem exec_stopClear (h : lands (s.tick dt) acc .move 0xC4 = true) : exec (.stopClear dt acc) s = .next (s.tick dt).stopClear := by
  obtain ⟨hi, r, eb, eo, -, hw⟩ := moveCommand_lands (row := cmdReg 0xC4 0xFFFF_FFFC) h (by decide) (by decide) (by decide) (by decide) rfl _
    (stopClear_keeps_pv _)
  show execStopClear dt acc s = _
  rw [execStopClear, happen_of_ready hi, hw]
  simp only [State.command, eb, eo, stopClear_sets_clear, if_true]

theorem exec_autoResume (hc : (s.tick dt).coxUp = true) (hs : (s.tick dt).mover.stoppedAll = true) (hn : 0 < (s.tick dt).num 0x2240 2)
    (ht : (s.tick dt).mover.stoppedAt + (s.tick dt).num 0x2240 2 * 1_000_000 ≤ (s.tick dt).now) :
    exec (.autoResume dt) s = .next (s.tick dt).stopClear :=
  happen_of_ready (ready := fun x => x.coxUp && x.mover.stoppedAll && decide (0 < x.num 0x2240 2) &&
      decide (x.mover.stoppedAt + x.num 0x2240 2 * 1_000_000 ≤ x.now))
    (eff := fun x => x.stopClear) (by rw [hc, hs, decide_eq_true hn, decide_eq_true ht]; rfl)

/-- STOPPED_ALL cleared, and every managed channel resumed. -/
def State.stopEnded (u : State) : State :=
  (List.range 64).foldl (fun (w : State) i => if (w.channel i).managed.isSome ∧ (w.channel i).mode = .stopped then w.chResume i else w)
    ((u.modMover (fun m => { m with stoppedAll := false })).raise moveStatus [1])

theorem stopClear_stopped (h : u.mover.stoppedAll = true) : u.stopClear = u.stopEnded := if_pos h

theorem stopClear_running (h : u.mover.stoppedAll = false) : u.stopClear = u := if_neg (Bool.not_eq_true _ ▸ h)

/-- Settles O38: each clause is one command of the mover and the equation of what it comes to. These are the model's choices: a burst that faults has
consumed its request, and pending requests stay on a translation error (notes/assumptions/60); a burst's reads are complete at its start, so a target that
fails abandons bursts of its own channel alone, and MOVER_BUS_ERROR stands for any error inside the device while a burst or a fetch is under way
(notes/assumptions/21); MOVE.STOP.clear is written with the register's PV bits kept (notes/assumptions/47). -/
theorem moverWork : Obligations.MoverWork := by
  unfold Obligations.MoverWork
  intro dt k line acc v s u cleared
  refine ⟨exec_requestEdge, exec_swLineWrite, ?burstStart, ?burstDone, ?fetch, fun e complete => exec_moverBusError, fun e => exec_allStopComplete,
    fun hl => ⟨fun hs => ?clearRunning, fun hs => ?clearStopped⟩, fun hc hs hn ht => ?autoResume⟩
  case burstStart =>
    intro hk ha hn
    obtain ⟨managed, raw⟩ := exec_moverBurstStart hk ha hn
    refine ⟨managed, fun hm => ?_⟩
    rw [raw hm]
    rcases hp : placeAfter (u.xfer k) (u.channel k) (u.channel k).inFlight.length with ⟨o, m⟩
    dsimp only
    rcases he : u.elements k (u.xfer k) o m with ⟨src, dst⟩
    refine ⟨fun ho => congrArg _ (burstStart_unowned ho), fun c ho => ⟨fun t hs => congrArg _ (burstStart_sourceFault hp he ho hs), fun t hs =>
      ⟨fun w hd => congrArg _ (burstStart_destinationFault hp he ho hs hd), fun w hd =>
        ⟨fun e b ht => congrArg _ (burstStart_targetError hp he ho hs hd ht), fun ht => congrArg _ (burstStart_started hp he ho hs hd ht)⟩⟩⟩⟩
  case burstDone =>
    intro hk ha b rest hb
    obtain ⟨managed, raw⟩ := exec_moverBurstDone hk ha hb
    refine ⟨managed, fun hm hw => ?_, fun hm hw => ?_⟩
    · rw [raw hm]
      exact congrArg _ (burstDone_fails hb hw)
    · rw [raw hm]
      rcases hp : placeAfter (u.xfer k) (u.channel k) 1 with ⟨o, m⟩
      exact congrArg _ (burstDone_commits hb hw hp)
  case fetch =>
    intro ha h a el at_
    rw [exec_descriptorFetch ha h]
    refine ⟨fun hh => congrArg _ (fetchDesc_hopLimit hh), fun hh hbad => congrArg _ (fetchDesc_address hh hbad), fun hh hs h32 =>
      ⟨fun ho => congrArg _ (fetchDesc_unowned hh hs h32 ho), fun w ho => ⟨fun t hr => congrArg _ (fetchDesc_fault hh hs h32 ho hr),
        fun t e b hr ht => congrArg _ (fetchDesc_targetError hh hs h32 ho hr ht), fun t hr ht => congrArg _ (fetchDesc_read hh hs h32 ho hr ht)⟩⟩⟩
  case clearRunning =>
    rw [exec_stopClear hl]
    exact congrArg _ (stopClear_running hs)
  case clearStopped =>
    rw [exec_stopClear hl]
    exact congrArg _ (stopClear_stopped hs)
  case autoResume =>
    rw [exec_autoResume hc hs hn ht]
    exact congrArg _ (stopClear_stopped hs)

end Sys2Proof.Machine
end

section
/-! SUPPORT and CERTIFICATE of the utility DMA (10 R279, R280, R282): its controls, the bursts of the channel it serves, and bus errors. -/

namespace Sys2Proof.Machine

open Sys2Proof

variable {s u t w : State} {dt k n o m : Nat} {src dst : List (Bool × Nat)} {e : BusError}

/-! ### Bursts (10 R279, R280) -/

theorem exec_udmaBurstDone (ha : (s.tick dt).awake = true) (hn : (s.tick dt).udmaNext = some k) :
    exec (.udmaBurstDone dt) s = .next ((s.tick dt).udmaBurst k) := by
  have served : exec (.udmaBurstDone dt) s = _ :=
    happen_of_ready (ready := fun x => x.awake && x.udmaNext.isSome) (eff := fun x => match x.udmaNext with | some j => x.udmaBurst j | none => x)
      (by rw [ha, hn]; rfl)
  rw [served, hn]

/-- The engine's turn has come to utility DMA channel `n`. -/
def State.udmaServes (u : State) (n : Nat) : State := u.modMover (fun v => { v with udmaLast := n })

theorem udmaServes_place : u.modMover (fun v => { v with udmaLast := 64 + n - 64 }) = u.udmaServes n := by
  rw [Nat.add_sub_cancel_left]
  rfl

section Burst

/-! The burst of utility DMA channel `n` lies at the loop place `(o, m)` and moves the elements `src` to `dst`. -/

variable (hp : placeAfter (u.xfer (64 + n)) (u.channel (64 + n)) 0 = (o, m)) (he : u.elements (64 + n) (u.xfer (64 + n)) o m = (src, dst))
include hp he

theorem udmaBurst_sourceFault (hs : (u.udmaServes n).reachAll 0 (u.ws (64 + n)) false (64 + n) src = (t, false)) :
    u.udmaBurst (64 + n) = t.chError (64 + n) 1 := by
  simp only [State.udmaBurst, hp, he, udmaServes_place, hs]

variable (hs : (u.udmaServes n).reachAll 0 (u.ws (64 + n)) false (64 + n) src = (t, true))
include hs

theorem udmaBurst_destinationFault (hd : t.reachAll 0 (u.wd (64 + n)) true (64 + n) dst = (w, false)) :
    u.udmaBurst (64 + n) = w.chError (64 + n) 1 := by
  simp only [State.udmaBurst, hp, he, udmaServes_place, hs, hd]

variable (hd : t.reachAll 0 (u.wd (64 + n)) true (64 + n) dst = (w, true))
include hd

theorem udmaBurst_sourceLinkDown (ht : w.targetError 0 (u.ws (64 + n)) (64 + n) false src = some (e, none)) :
    u.udmaBurst (64 + n) = w.udmaFail (64 + n) := by
  simp only [State.udmaBurst, hp, he, udmaServes_place, hs, hd, ht]

theorem udmaBurst_sourceUncorrectable {b : Bool × Nat} (ht : w.targetError 0 (u.ws (64 + n)) (64 + n) false src = some (e, some b)) :
    u.udmaBurst (64 + n) = (w.unitError b.1 b.2).udmaFail (64 + n) := by
  simp only [State.udmaBurst, hp, he, udmaServes_place, hs, hd, ht]

variable (ht : w.targetError 0 (u.ws (64 + n)) (64 + n) false src = none)
include ht

theorem udmaBurst_destinationLinkDown {x : BusError × Option (Bool × Nat)} (hx : w.targetError 0 (u.wd (64 + n)) (64 + n) true dst = some x) :
    u.udmaBurst (64 + n) = w.udmaFail (64 + n) := by
  simp only [State.udmaBurst, hp, he, udmaServes_place, hs, hd, ht, hx]

/-- The burst committed, and the channel at the place that follows it, `(o', m')`. -/
theorem udmaBurst_commits {o' m' : Nat} (hx : w.targetError 0 (u.wd (64 + n)) (64 + n) true dst = none)
    (hq : placeAfter (u.xfer (64 + n)) (u.channel (64 + n)) 1 = (o', m')) :
    u.udmaBurst (64 + n) =
      (let x := (w.commitBurst (w.makeBurst 0 (64 + n) o m src dst)).modChannel (64 + n) (fun y => { y with outer := o', middle := m' })
       if (u.xfer (64 + n)).outer ≤ o' then x.endTransfer (64 + n) else x) := by
  simp only [State.udmaBurst, hp, he, udmaServes_place, hs, hd, ht, hx, hq]

end Burst

theorem exec_udmaBusError (ha : (s.tick dt).awake = true) (hc : e.channel % 8 = n) (h : (s.tick dt).udmaRuns (64 + n) = true) :
    exec (.udmaBusError dt e) s = .next ((s.tick dt).udmaFail (64 + n)) := by
  subst hc
  exact happen_of_ready (ready := fun x => x.awake && x.udmaRuns (64 + e.channel % 8)) (eff := fun x => x.udmaFail (64 + e.channel % 8))
    (by rw [ha, h]; rfl)

/-- Settles O39: the controls are those of a mover channel that no all-channel stop holds, and a burst of the served channel is committed or ends it. That
the utility DMA posts no events, and that the burst which failed is all that is abandoned, are the model's choices (notes/assumptions/21), as is the write
of a control with the register's other fields kept (notes/assumptions/47). -/
theorem utilityDma : Obligations.UtilityDma := by
  unfold Obligations.UtilityDma
  intro dt n acc s hn u k c failed
  refine ⟨fun hl hm => ⟨fun hc => ?start, fun hc => ?resume, fun hc => ?abort⟩, ?burst, fun e => exec_udmaBusError⟩
  case start =>
    rw [exec_udmaStart hn hl hm, moverStart_accepted hm hc not_underStop_udma]
    rfl
  case resume =>
    rw [exec_udmaResume hn hl hm, moverResume_accepted hm (hc.imp_left fun h => ⟨h, not_underStop_udma⟩)]
    rfl
  case abort =>
    rw [exec_udmaAbort hn hl hm, moverAbort_raw hm, dropRequests_udma, if_neg hc]
    rfl
  case burst =>
    intro ha hnext
    rw [exec_udmaBurstDone ha hnext]
    rcases hp : placeAfter (u.xfer k) c 0 with ⟨o, m⟩
    dsimp only
    rcases he : u.elements k (u.xfer k) o m with ⟨src, dst⟩
    rcases hq : placeAfter (u.xfer k) c 1 with ⟨o', m'⟩
    exact ⟨fun t hs => congrArg _ (udmaBurst_sourceFault hp he hs), fun t hs =>
      ⟨fun w hd => congrArg _ (udmaBurst_destinationFault hp he hs hd), fun w hd =>
        ⟨fun e ht => congrArg _ (udmaBurst_sourceLinkDown hp he hs hd ht), fun e b ht => congrArg _ (udmaBurst_sourceUncorrectable hp he hs hd ht),
          fun e ht hx => congrArg _ (udmaBurst_destinationLinkDown hp he hs hd ht hx), fun ht hx => congrArg _ (udmaBurst_commits hp he hs hd ht hx hq)⟩⟩⟩

end Sys2Proof.Machine
end

section
/-! SUPPORT and CERTIFICATES of a crew's queues (11 R295 to R303): pushed words and the framing of items, pops, arming, flush and doorbell. -/

namespace Sys2Proof.Machine

open Sys2Proof

variable {s u : State} {dt c w : Nat}

/-! ### Command registers of a crew's page (03 R55, 11 R316) -/

/-- A crew's own write of a command register of its page that keeps no bits reserved is open, and gives the command. -/
theorem pageCommand_lands {o : Nat} (ho : ∀ j, regRow (.crew c) o j = some (cmdReg o 0)) (h : lands u (pageAcc c o) (.crew c) o = true) (v : Nat) :
    u.accOpen (pageAcc c o) = true ∧ u.writeAccess (pageAcc c o) v = u.crewCommand c o v := by
  obtain ⟨-, -, -, -, -, hopen, -, -⟩ := lands_reg h
  have command : ∀ j row, regRow (.crew c) o j = some row → row.kind = .command ∧ row.pv = 0 := by
    intro j row hrow
    obtain rfl := Option.some.inj ((ho j).symm.trans hrow)
    exact ⟨rfl, rfl⟩
  obtain ⟨-, r, eb, eo, -, hw⟩ := command_lands h (by simp) (by simp) command v
  exact ⟨hopen, by rw [hw, State.command, eb, eo]⟩

theorem exec_cqPush {hi : Word} (h : lands (s.tick dt) (pageAcc c 4) (.crew c) 4 = true) :
    exec (.cqPush dt c hi) s = .next ((s.tick dt).cqPush c hi.toNat) := by
  obtain ⟨hopen, hw⟩ := pageCommand_lands (fun _ => rfl) h hi.toNat
  show execCqPush dt c hi s = _
  rw [execCqPush, happen_of_ready hopen, hw]
  rfl

theorem exec_cqFlush (h : lands (s.tick dt) (pageAcc c 0xC) (.crew c) 0xC = true) : exec (.cqFlush dt c) s = .next ((s.tick dt).flushCq c) := by
  obtain ⟨hopen, hw⟩ := pageCommand_lands (fun _ => rfl) h 0
  show execCqFlush dt c s = _
  rw [execCqFlush, happen_of_ready hopen, hw]
  rfl

theorem exec_eqArm {v : Word} (h : lands (s.tick dt) (pageAcc c 0x30) (.crew c) 0x30 = true) :
    exec (.eqArm dt c v) s = .next ((s.tick dt).eqArm c v.toNat) := by
  obtain ⟨hopen, hw⟩ := pageCommand_lands (fun _ => rfl) h v.toNat
  show execEqArm dt c v s = _
  rw [execEqArm, happen_of_ready hopen, hw]
  rfl

theorem exec_doorbell (h : lands (s.tick dt) (pageAcc c 0x4C) (.crew c) 0x4C = true) : exec (.doorbell dt c) s = .next ((s.tick dt).doorbell c) := by
  obtain ⟨hopen, hw⟩ := pageCommand_lands (fun _ => rfl) h 0
  show execDoorbell dt c s = _
  rw [execDoorbell, happen_of_ready hopen, hw]
  rfl

/-! ### Words pushed while START is expected (11 R296) -/

/-- An item of one word appended, closed or still open. -/
def State.beginItem (u : State) (c w : Nat) (closed : Bool) : State :=
  u.modCrew c (fun k => { k with cq := k.cq ++ [CqItem.mk [bare w] closed false], inItem := !closed })

theorem pushOutside_full (hf : 128 ≤ (u.crew c).cqWords) : u.pushOutside c w = u.cqDrop c := if_pos hf

theorem pushOutside_start (hf : ¬ 128 ≤ (u.crew c).cqWords) (ht : tagOf w = 2) : u.pushOutside c w = u.beginItem c w false := by
  simp [State.pushOutside, hf, ht, State.beginItem]

theorem pushOutside_startEnd (hf : ¬ 128 ≤ (u.crew c).cqWords) (ht : tagOf w = 3) : u.pushOutside c w = u.beginItem c w true := by
  simp [State.pushOutside, hf, ht, State.beginItem]

theorem pushOutside_middle (hf : ¬ 128 ≤ (u.crew c).cqWords) (ht : tagOf w = 0 ∨ tagOf w = 1) : u.pushOutside c w = u.cqResync c :=
  (if_neg hf).trans (if_neg (by omega))

/-! ### Words pushed while an item is open (11 R296) -/

/-- Words of the open item, the last of the queue. -/
def Crew.openWords (k : Crew) : Nat := (k.cq.getLast?.map (fun i => i.words.length)).getD 0

/-- Marking the open item malformed keeps its words in the queue. -/
@[simp] theorem spoil_cqWords (k : Crew) : k.spoil.cqWords = k.cqWords := by
  rcases List.eq_nil_or_concat k.cq with hk | ⟨items, last, hk⟩ <;> simp [Crew.spoil, Crew.cqWords, hk]

/-- A START ends the open item as malformed, and is then pushed as one that was expected. -/
theorem pushInside_start (ht : tagOf w = 2 ∨ tagOf w = 3) : u.pushInside c w = (u.modCrew c Crew.spoil).pushOutside c w := if_pos ht

theorem modCrew_spoil_cqWords : ((u.modCrew c Crew.spoil).crew c).cqWords = (u.crew c).cqWords := by simp

theorem pushInside_full (hf : 128 ≤ (u.crew c).cqWords) : u.pushInside c w = (u.modCrew c Crew.spoil).cqDrop c := by
  by_cases ht : tagOf w = 2 ∨ tagOf w = 3
  · rw [pushInside_start ht, pushOutside_full (modCrew_spoil_cqWords.symm ▸ hf)]
  · rw [State.pushInside, if_neg ht, if_pos hf]

theorem pushInside_extends (hf : ¬ 128 ≤ (u.crew c).cqWords) (hl : (u.crew c).openWords < 16) (ht : tagOf w = 0 ∨ tagOf w = 1) :
    u.pushInside c w = u.modCrew c (fun k => k.extend w (decide (tagOf w = 1))) :=
  (if_neg (by omega)).trans ((if_neg hf).trans (if_neg (Nat.not_le.2 hl)))

/-- Word 17 of an item is discarded and spoils it. -/
theorem pushInside_tooLong (hf : ¬ 128 ≤ (u.crew c).cqWords) (hl : 16 ≤ (u.crew c).openWords) (ht : tagOf w = 0 ∨ tagOf w = 1) :
    u.pushInside c w = (u.modCrew c Crew.spoil).cqResync c :=
  (if_neg (by omega)).trans ((if_neg hf).trans (if_pos hl))

theorem pushInside_restart (hf : ¬ 128 ≤ (u.crew c).cqWords) (ht : tagOf w = 2 ∨ tagOf w = 3) :
    u.pushInside c w = (u.modCrew c Crew.spoil).modCrew c (fun k =>
      { k with cq := k.cq ++ [CqItem.mk [bare w] (decide (tagOf w = 3)) false], inItem := decide (tagOf w = 2) }) := by
  rw [pushInside_start ht, State.pushOutside, modCrew_spoil_cqWords, if_neg hf, if_pos ht]

/-! ### Words pushed by an enabled crew (11 R295) -/

/-- The word that a write of CREW.CQ_PUSH_HI pushes. -/
def State.pushedWord (u : State) (c hi : Nat) : Nat := hi * 2 ^ 32 + (u.crew c).pushLo

variable {hi : Nat}

theorem cqPush_outside (he : u.crewEnabled c = true) (hin : (u.crew c).inItem = false) : u.cqPush c hi = u.pushOutside c (u.pushedWord c hi) :=
  (if_neg (by simp [he])).trans (if_neg (by simp [hin]))

theorem cqPush_inside (he : u.crewEnabled c = true) (hin : (u.crew c).inItem = true) : u.cqPush c hi = u.pushInside c (u.pushedWord c hi) :=
  (if_neg (by simp [he])).trans (if_pos hin)

/-- Settles O40: each clause is one cell of the table, the equation of the push outside an item or within one; a START within an item is pushed as outside,
since the item that it spoils keeps its words (`spoil_cqWords`). -/
theorem commandQueueFraming : Obligations.CommandQueueFraming := by
  unfold Obligations.CommandQueueFraming
  intro dt crew hi s u k w full open_ drop discard marked grown begun h he
  refine ⟨fun hin => ?outside, fun hin => ?inside⟩
  case outside =>
    rw [exec_cqPush h, cqPush_outside he hin]
    exact ⟨fun hf => congrArg _ (pushOutside_full (of_decide_eq_true hf)),
      fun hf ht => congrArg _ (pushOutside_start (of_decide_eq_false hf) ht),
      fun hf ht => congrArg _ (pushOutside_startEnd (of_decide_eq_false hf) ht),
      fun hf ht => congrArg _ (pushOutside_middle (of_decide_eq_false hf) ht)⟩
  case inside =>
    rw [exec_cqPush h, cqPush_inside he hin]
    have extended (hf : full = false) (hl : open_ < 16) (last : Bool) (ht : tagOf w = 0 ∨ tagOf w = 1) (hlast : decide (tagOf w = 1) = last) :
        u.pushInside crew w = grown last := hlast ▸ pushInside_extends (of_decide_eq_false hf) hl ht
    exact ⟨fun hf _ => congrArg _ (pushInside_full (of_decide_eq_true hf)),
      fun hf hl ht => congrArg _ (extended hf hl false (.inl ht) (by rw [ht]; rfl)),
      fun hf hl ht => congrArg _ (extended hf hl true (.inr ht) (by rw [ht]; rfl)),
      fun hf hl ht => congrArg _ (pushInside_tooLong (of_decide_eq_false hf) hl ht),
      fun hf _ => congrArg _ (pushInside_full (of_decide_eq_true hf)),
      fun hf ht => congrArg _ (pushInside_restart (of_decide_eq_false hf) ht)⟩

/-! ### Pops (11 R300, R301) -/

theorem exec_eqPop (ho : (s.tick dt).accOpen (pageAcc c 0x20) = true) (hp : ((s.tick dt).crew c).popSince = none) :
    exec (.eqPop dt c) s = .next ((s.tick dt).eqPop c) :=
  happen_of_ready (ready := fun t => t.accOpen (pageAcc c 0x20) && (t.crew c).popSince.isNone) (eff := fun t => t.eqPop c) (by rw [ho, hp]; rfl)

theorem eqPop_oldest {rest : List Nat} (h : (u.crew c).eq = w :: rest) :
    u.eqPop c = (u.modCrew c (fun k => { k with eq := rest, eqPopHi := w / 2 ^ 32 })).send (.readData c (w % 2 ^ 32)) := by
  rw [State.eqPop, h]

theorem eqPop_empty (h : (u.crew c).eq = []) : u.eqPop c = u.modCrew c (fun k => { k with popSince := some u.now }) := by
  rw [State.eqPop, h]

theorem eqPopDue_of_waited {t : Nat} (hp : (u.crew c).popSince = some t) (ht : t + 40_000 ≤ u.now) : u.eqPopDue c = true :=
  (Option.any_eq_true _ _).2 ⟨t, hp, decide_eq_true ht⟩

theorem exec_eqPopTimeout {t : Nat} (ha : (s.tick dt).awake = true) (hp : ((s.tick dt).crew c).popSince = some t)
    (ht : t + 40_000 ≤ (s.tick dt).now) : exec (.eqPopTimeout dt c) s = .next ((s.tick dt).eqPopEnd c) :=
  happen_of_ready (ready := fun t => t.awake && t.eqPopDue c) (eff := fun t => t.eqPopEnd c)
    (by rw [ha, eqPopDue_of_waited hp ht]; rfl)

/-! ### Arming (11 R302) -/

theorem eqArm_clear {v : Nat} (hv : bitOf v 0 = false) : u.eqArm c v = u := by rw [State.eqArm, hv]; rfl

theorem eqArm_set {v : Nat} (hv : bitOf v 0 = true) : u.eqArm c v = (u.modCrew c (fun k => { k with eqArmed := true })).checkArm c := if_pos hv

theorem eqArm_empty {v : Nat} (hv : bitOf v 0 = true) (h : (u.crew c).eq = []) :
    u.eqArm c v = u.modCrew c (fun k => { k with eqArmed := true }) := by
  rw [eqArm_set hv]
  exact if_neg (by simp [h])

/-- An item that is there already sends vector 0, which disarms it. -/
theorem eqArm_items {v : Nat} (hv : bitOf v 0 = true) (h : (u.crew c).eq ≠ []) :
    u.eqArm c v = ((u.modCrew c (fun k => { k with eqArmed := true })).modCrew c (fun k => { k with eqArmed := false })).msix c 0 := by
  rw [eqArm_set hv]
  exact if_pos (by simp [h])

/-- Settles O41: each clause is one command, met in its place, and the equation of the pop, arming, flush or doorbell that it carries out. A
crew whose pop waits reads no second one (11 R301); that its accesses are open by its port's present availability is the model's choice
(notes/assumptions/87). -/
theorem completionQueues : Obligations.CompletionQueues := by
  unfold Obligations.CompletionQueues
  intro dt crew v s u k
  refine ⟨fun ho hp => ⟨fun w rest h => ?oldest, fun h => ?waits⟩, fun t => exec_eqPopTimeout,
    fun h => ⟨fun hv => ?clear, fun hv hq => ?armed, fun hv hq => ?sent⟩, exec_cqFlush, fun h => ⟨fun hd => ?rings, fun hd => ?ignored⟩⟩
  case oldest =>
    rw [exec_eqPop ho hp]
    exact congrArg _ (eqPop_oldest h)
  case waits =>
    rw [exec_eqPop ho hp]
    exact congrArg _ (eqPop_empty h)
  case clear =>
    rw [exec_eqArm h]
    exact congrArg _ (eqArm_clear hv)
  case armed =>
    rw [exec_eqArm h]
    exact congrArg _ (eqArm_empty hv hq)
  case sent =>
    rw [exec_eqArm h]
    exact congrArg _ (eqArm_items hv hq)
  case rings =>
    rw [exec_doorbell h]
    exact congrArg _ (if_pos hd)
  case ignored =>
    rw [exec_doorbell h]
    exact congrArg _ (if_neg hd)

end Sys2Proof.Machine
end

section
/-! SUPPORT and CERTIFICATES of the step and its queue: which command a step runs, what every command leaves of the queue and the time, and that fuses
only grow (14 R373). -/

namespace Sys2Proof.Machine

open Sys2Proof

variable {s t : State} {c : Instr} {rest : List Instr}

/-- Settles O1: the front command's branch of `step`. -/
theorem stepRunsFrontCommand : Obligations.StepRunsFrontCommand := by
  unfold Obligations.StepRunsFrontCommand
  intro c rest s
  rw [step]

/-- Settles O2: the branch of `step` without a front command. That the device idles there is the model's choice (notes/assumptions/6). -/
theorem emptyQueueIdles : Obligations.EmptyQueueIdles := by
  unfold Obligations.EmptyQueueIdles
  intro s hempty
  rw [step, hempty]

/-- Settles O3: what `exec_keeps` says of the queue and of the time. That a command takes its own `dt` (notes/assumptions/1), that one out of place only
lets it pass (7), and that the queue is the model's own (90) are the model's choices. -/
theorem everyCommandGoesOn : Obligations.EveryCommandGoesOn := by
  unfold Obligations.EveryCommandGoesOn
  intro c s
  obtain ⟨t, ht, hk⟩ := exec_keeps c s
  exact ⟨t, ht, hk.pending, hk.now⟩

/-- A step leaves the state of an empty queue, or answers what the front command makes of the state with the queue's rest. -/
theorem step_next_cases (h : step s = .next t) :
    (s.pending = [] ∧ t = s) ∨ ∃ c rest, s.pending = c :: rest ∧ exec c { s with pending := rest } = .next t := by
  unfold step at h
  cases hp : s.pending with
  | nil =>
    rw [hp] at h
    exact .inl ⟨rfl, (Host.Outcome.next.inj h).symm⟩
  | cons c rest =>
    rw [hp] at h
    exact .inr ⟨c, rest, rfl, h⟩

/-- Settles O6: an idle step changes no fuse, and the front command only lets them grow, from its instant on. -/
theorem stepOnlyGrowsFuses : Obligations.StepOnlyGrowsFuses := by
  unfold Obligations.StepOnlyGrowsFuses
  intro s t hs hstep
  obtain ⟨-, rfl⟩ | ⟨c, rest, -, hexec⟩ := step_next_cases hstep
  · exact .refl _
  · obtain ⟨u, hu, hk⟩ := exec_keeps c { s with pending := rest }
    obtain rfl : u = t := Host.Outcome.next.inj (hu.symm.trans hexec)
    exact hk.fuses (sound_with_queue_and_time hs rest (s.now + c.dt))

end Sys2Proof.Machine
end

section
/-! SUPPORT and CERTIFICATES of the umpire (12 R332 to R346): the clear of latched sources, occurrences, snapshots and injection. -/

namespace Sys2Proof.Machine

open Sys2Proof

variable {s u : State} {dt n detail : Nat} {acc : Acc} {v : Word}

/-! ### UMPIRE.CLEAR (12 R337) -/

/-- UMPIRE's command registers have no PV bits. -/
theorem row_of_umpireCommand {o : Nat} (h : (findRow umpireRows o).all (fun x => decide (x.kind = .command ∧ x.pv = 0)) = true) {row : RegRow}
    (hr : findRow umpireRows o = some row) : row.kind = .command ∧ row.pv = 0 := by
  simpa [hr] using h

theorem exec_umpireClear (h : lands (s.tick dt) acc .umpire 0xC = true) :
    exec (.umpireClear dt acc v) s = .next ((s.tick dt).umpireClear v.toNat) := by
  obtain ⟨hi, hw⟩ := cmd_umpire h (fun _ => row_of_umpireCommand (by decide)) v.toNat
  show execUmpireClear dt acc v s = _
  rw [execUmpireClear, happen_of_ready hi, hw, if_neg (by decide)]

theorem foldl_release_latched (w : Nat) (l : List Nat) (x : Umpire) :
    (l.foldl (fun y k => if w.testBit k then y.release k else y) x).latched = x.latched := by
  induction l generalizing x with
  | nil => rfl
  | cons k l ih =>
    rw [List.foldl_cons, ih]
    split
    · exact release_latched x k
    · rfl

/-- A clear takes the named sources from the latched word, and no other. -/
theorem testBit_clearSources (u : State) (w : Nat) (hn : n < 128) :
    (u.clearSources w).umpire.latched.testBit n = (u.umpire.latched.testBit n && !w.testBit n) := by
  unfold State.clearSources
  split
  · rename_i hw
    simp [hw]
  · rw [raiseUmpire_latched]
    dsimp only
    rw [foldl_release_latched, Nat.testBit_and, Nat.testBit_xor, Nat.testBit_two_pow_sub_one, decide_eq_true hn, Bool.true_xor]

theorem umpireClear_current (h : n % 2 ^ 16 = u.umpire.snapSeq) :
    u.umpireClear n = u.clearSources (u.clearable (u.umpire.snap &&& u.umpire.clearSel) u.umpire.snapAt) := if_pos h

theorem umpireClear_outdated (h : n % 2 ^ 16 ≠ u.umpire.snapSeq) : u.umpireClear n = u.raise umpireStatus [2] := if_neg h

/-- Settles O46: the clear takes the clearable sources from the latched word, and these are the ones that R337's conditions name. -/
theorem umpireClearIsExact : Obligations.UmpireClearIsExact := by
  unfold Obligations.UmpireClearIsExact
  intro dt acc v s u h
  refine ⟨fun hcurrent => ⟨_, exec_umpireClear h, fun n hn => ?_⟩, fun hold => ?_⟩
  · rw [umpireClear_current hcurrent, testBit_clearSources _ _ hn, testBit_clearable _ _ _ _ hn, Nat.testBit_and]
    grind
  · rw [exec_umpireClear h, umpireClear_outdated hold]

/-! ### Occurrences (12 R332, R333, R335, R341) -/

/-- The reason an occurrence is new: its source's bit is clear, or source 48 comes with a stricter class than it is latched with. -/
def State.setsBit (u : State) (n cls : Nat) : Bool := !u.umpire.latched.testBit n || (decide (n = 48) && decide (u.umpire.class48 < cls))

/-- An occurrence latched, ordered and logged. -/
def State.logged (u : State) (n cls detail : Nat) : State :=
  u.modUmpire (fun x =>
    { x with latched := x.latched ||| 2 ^ n, occurrences := x.occurrences + 1, lastAt := tabSet x.lastAt n (x.occurrences + 1),
             log := ({ source := n, cls := cls, setBit := u.setsBit n cls, detail := detail, time := u.uptime } :: x.log).take 16,
             logCount := x.logCount + 1,
             class48 := if n = 48 then (if u.umpire.latched.testBit n then max x.class48 cls else cls) else x.class48 })

/-- A new occurrence told: its status, and to the manager crews where its class is C1 or higher. -/
def State.faultTold (u : State) (n cls : Nat) : State :=
  if cls = 0 then u.raiseUmpire [0] else (u.raiseUmpire [0]).postManagers (eventWord 0x19 0xF cls 0 n)

/-- The C3 record is kept of an occurrence of class C3. -/
def State.withC3Record (u : State) (n cls detail : Nat) (limp : Bool) : State := if cls = 3 then u.recordC3 n detail limp else u

/-- The sealed unit's own source ends its indication's validity. -/
def State.endsValidity (u : State) (n : Nat) : State := if n = 49 then u.setValidity false else u

theorem occurAs_standing {cls : Nat} (ha : u.awake = true) (h : u.setsBit n cls = false) :
    u.occurAs n cls detail = (u.logged n cls detail).followNfault := by
  have hs : (!u.umpire.latched.testBit n || (decide (n = 48) && decide (u.umpire.class48 < cls))) = false := h
  simp only [State.occurAs, ha, hs, State.logged, State.setsBit, Bool.not_true, Bool.false_eq_true, if_false, Bool.not_false, if_true]

theorem occurAs_new {cls : Nat} (ha : u.awake = true) (h : u.setsBit n cls = true) :
    u.occurAs n cls detail = (((u.logged n cls detail).faultTold n cls).react n cls detail).endsValidity n := by
  have hs : (!u.umpire.latched.testBit n || (decide (n = 48) && decide (u.umpire.class48 < cls))) = true := h
  have htold (t : State) : (if 1 ≤ cls then (t.raiseUmpire [0]).postManagers (eventWord 0x19 0xF cls 0 n) else t.raiseUmpire [0]) = t.faultTold n cls := by
    by_cases hc : cls = 0
    · rw [if_neg (by omega), State.faultTold, if_pos hc]
    · rw [if_pos (by omega), State.faultTold, if_neg hc]
  simp only [State.occurAs, ha, hs, Bool.not_true, Bool.false_eq_true, if_false, htold]
  simp only [State.logged, State.setsBit, hs]
  rfl

theorem react_mild {cls : Nat} (h : cls < 2) : u.react n cls detail = u := if_pos h

/-- In FACTORY, or with every port disabled, nothing but the record follows. -/
theorem react_free {cls : Nat} (h : 2 ≤ cls) (hm : u.modes.mode = .factory ∨ u.modes.portsDisabled = true) :
    u.react n cls detail = u.withC3Record n cls detail false := by
  rcases hm with hm | hm <;> simp [State.react, State.withC3Record, hm, Nat.not_lt.2 h]

theorem react_limp {cls : Nat} (h : 2 ≤ cls) (hf : u.modes.mode ≠ .factory) (hl : u.modes.mode ≠ .limp) (hp : u.modes.portsDisabled = false)
    (hi : u.limpIntact = true) : u.react n cls detail = (u.withC3Record n cls detail true).enterLimp := by
  simp [State.react, State.withC3Record, hf, hl, hp, hi, Nat.not_lt.2 h]

theorem react_disables {cls : Nat} (h : 2 ≤ cls) (hf : u.modes.mode ≠ .factory) (hl : u.modes.mode = .limp → cls = 3)
    (hp : u.modes.portsDisabled = false) (hi : u.limpIntact = false) : u.react n cls detail = (u.withC3Record n cls detail false).disablePorts := by
  have hd : (!decide (u.modes.mode = .limp) || decide (cls = 3)) = true := by
    by_cases hm : u.modes.mode = .limp
    · simp [hl hm]
    · simp [hm]
  simp [State.react, State.withC3Record, hf, hd, hp, hi, Nat.not_lt.2 h]

/-- In LIMP only class C3 disables the ports, where the limp path is not intact. -/
theorem react_inLimp {cls : Nat} (h : 2 ≤ cls) (hl : u.modes.mode = .limp) (hd : u.limpIntact = true ∨ cls ≠ 3) :
    u.react n cls detail = u.withC3Record n cls detail false := by
  rcases hd with hd | hd <;> simp [State.react, State.withC3Record, hl, hd, Nat.not_lt.2 h]

/-- The state in which an occurrence of a source is judged: a refused path is recorded, and a lockstep mismatch is a cause. -/
def State.seen (u : State) (n detail : Nat) : State :=
  if n = 43 then (u.modAccess (fun a => { a with matrixAddr := detail, matrixInfo := u.free % 2 ^ 32 })).used.raise matrixStatus [0]
  else if n = 41 then u.modModes (fun m => { m with causePending := m.causePending ||| 8 }) else u

theorem faultOccurs_eq (u : State) (n detail : Nat) :
    u.faultOccurs n detail = (u.seen n detail).occurAs n ((u.seen n detail).classOf n) detail := rfl

@[simp] theorem seen_awake (u : State) (n detail : Nat) : (u.seen n detail).awake = u.awake := by
  unfold State.seen
  split
  · rfl
  · split <;> rfl

theorem exec_faultOccurrence (ha : (s.tick dt).awake = true) (hr : n < 59 ∨ 64 ≤ n) (hn : n < 128) :
    exec (.faultOccurrence dt n detail) s = .next ((s.tick dt).faultOccurs n detail) :=
  happen_of_ready (ready := fun t => t.awake && decide (n < 128) && !within 59 63 n) (eff := fun t => t.faultOccurs n detail)
    (by simp [within, ha, hn]; omega)

/-! ### Snapshots and injection (12 R337, R345) -/

theorem exec_umpireSnapshot (h : lands (s.tick dt) acc .umpire 4 = true) : exec (.umpireSnapshot dt acc) s = .next (s.tick dt).snapshot := by
  obtain ⟨hi, hw⟩ := cmd_umpire h (fun _ => row_of_umpireCommand (by decide)) 0
  show execUmpireSnapshot dt acc s = _
  rw [execUmpireSnapshot, happen_of_ready hi, hw, if_pos rfl]

/-- UMPIRE.INJECT shows state with a home of its own; a write that keeps its PV bits injects. -/
theorem writeAccess_inject {x : Nat} (h : lands u acc .umpire 0x300 = true) (hpv : (u.reg (Block.umpire.base + 0x300) 0 ^^^ x) &&& 0xFFFF_FC80 = 0) :
    u.writeAccess acc x = u.inject x := by
  obtain ⟨r, hr, eb, eo, er, -, -, -⟩ := lands_reg h
  obtain ⟨j, hj⟩ := row_of_regOf hr (by rw [eb]; simp)
  rw [eb, eo] at hj
  have hrow : r.row = viewReg 0x300 0x17F 0 0xFFFF_FC80 :=
    Option.some.inj (hj.symm.trans (show findRow umpireRows 0x300 = some (viewReg 0x300 0x17F 0 0xFFFF_FC80) by decide))
  have hkey : u.regKey r = Block.umpire.base + 0x300 := by simp [State.regKey, eb, Reg.addr, eo]
  rw [writeAccess_lands h hr (by simp) (by simp [hrow, viewReg]) (by simp [hrow, viewReg])]
  simp [State.writeReg, State.pvCheck, State.managedReg, State.viewWrite, hrow, viewReg, er, eb, eo, hkey, hpv]

theorem exec_faultInject (h : lands (s.tick dt) acc .umpire 0x300 = true)
    (hpv : ((s.tick dt).reg (Block.umpire.base + 0x300) 0 ^^^ v.toNat) &&& 0xFFFF_FC80 = 0) :
    exec (.faultInject dt acc v) s = .next ((s.tick dt).inject v.toNat) := by
  show execFaultInject dt acc v s = _
  rw [execFaultInject, happen_of_ready (isReg_of_lands h), writeAccess_inject h hpv]

theorem inject_refused {x : Nat} (h : u.modes.mode ≠ .factory) :
    u.inject x = (u.raise umpireStatus [6]).occur 46 (Block.umpire.base + 0x300) := if_pos h

/-- What an injection holds: a source held before is let go where another is named or none is held. -/
def State.injectSet (u : State) (x : Nat) : State :=
  (if u.umpire.injectHold && (!bitOf x 8 || decide (u.umpire.injectSource ≠ x % 128)) then u.lineOff u.umpire.injectSource else u).modUmpire
    (fun y => { y with injectSource := x % 128, injectHold := bitOf x 8 && (y.injectHold || bitOf x 9) })

theorem inject_factory {x : Nat} (h : u.modes.mode = .factory) :
    u.inject x = if !bitOf x 9 ∨ within 59 63 (x % 128) then u.injectSet x
      else if bitOf x 8 then (u.injectSet x).lineOn (x % 128) (plainDetail (x % 128)) else (u.injectSet x).occur (x % 128) (plainDetail (x % 128)) :=
  if_neg (not_not.2 h)

/-- Settles O47: an occurrence is judged in the state that `seen` gives; each clause is one case of `occurAs` and `react`, or of a write of the umpire's
registers. The word recorded of a refused path (notes/assumptions/23), the C3 record's account of LIMP (44), the plain detail of an injected source (74),
source 41 as a cause of reset (77) and the sources that the model's own state drives (30) are the model's choices. -/
theorem umpireOccurrences : Obligations.UmpireOccurrences := by
  unfold Obligations.UmpireOccurrences
  intro dt n detail acc v s u seen cls was sets logged raised posted mark done
  refine ⟨fun ha hr hn => ?occurrence, fun h => exec_umpireSnapshot h, fun h hpv => ?injection⟩
  case occurrence =>
    have hseen : seen.awake = u.awake := seen_awake u n detail
    rw [exec_faultOccurrence (hseen ▸ ha) hr hn, faultOccurs_eq]
    have hnew (h : sets = true) : (u.seen n detail).occurAs n ((u.seen n detail).classOf n) detail = done (posted.react n cls detail) :=
      occurAs_new ha h
    refine ⟨fun h => congrArg _ (occurAs_standing ha h), fun h hc => ?mild, fun h hc hm => ?free, fun h hc hf hl hp => ⟨fun hi => ?limp, fun hi => ?disables⟩,
      fun h hc hl hp => ⟨fun hi h3 => ?disablesLimp, fun hd => ?staysLimp⟩⟩
    case mild => rw [hnew h, react_mild hc]
    case free => rw [hnew h, react_free hc hm]; rfl
    case limp => rw [hnew h, react_limp hc hf hl hp hi]; rfl
    case disables => rw [hnew h, react_disables hc hf (fun hm => absurd hm hl) hp hi]; rfl
    case disablesLimp => rw [hnew h, react_disables hc (by rw [hl]; decide) (fun _ => h3) hp hi]; rfl
    case staysLimp => rw [hnew h, react_inLimp hc hl hd]; rfl
  case injection =>
    intro m hold t w
    rw [exec_faultInject h hpv]
    refine ⟨fun hm => congrArg _ (inject_refused hm), fun hm => ?_⟩
    rw [inject_factory hm]
    refine ⟨fun hnone => congrArg _ (if_pos (by simpa using hnone)), fun h9 hw hh => ?held, fun h9 hw hh => ?once⟩
    case held => exact congrArg _ ((if_neg (by simp [h9, hw, m])).trans (if_pos hh))
    case once => exact congrArg _ ((if_neg (by simp [h9, hw, m])).trans (if_neg (Bool.eq_false_iff.1 hh)))

end Sys2Proof.Machine
end

section
/-! SUPPORT and CERTIFICATE of photo-finish and the limp picture (12 R321, R322, R328, R330, R339, R340, 15 R396, R397): the outcome of a region, its
rearming, a limp frame and the limp record. -/

namespace Sys2Proof.Machine

open Sys2Proof

variable {s u : State} {dt n i crew gpio : Nat} {k : Check}

/-! ### The outcome of a region (12 R321, R328, R330) -/

/-- The region at the frame in progress, a rearming that is due carried out. -/
def State.regionNow (u : State) (n i : Nat) : Region := (u.region (n * 32 + i)).rearmed (u.frame n)

/-- The outcome of a check in the frame in progress, and the window after it. -/
def State.verdict (u : State) (n i : Nat) (k : Check) : Option Bool × Option Nat :=
  let ws := u.regionWords n k.rect
  u.outcome n i k (u.regionNow n i) (regionCrc ws) (classCounts ws)

/-- The region judged: its CRC, outcome code, counts and window are recorded, with its run of failures and whether it has failed. -/
def State.regionJudged (u : State) (n i : Nat) (k : Check) (run code : Nat) (failed : Bool) : State :=
  let ws := u.regionWords n k.rect
  let r := u.regionNow n i
  u.modRegion (n * 32 + i) (fun _ =>
    { r with crcs := ((u.frame n, regionCrc ws) :: r.crcs).take 8, history := (r.history * 4 + code) % 2 ^ 16, counts := classCounts ws,
             run := run, frame := u.frame n, window := (u.verdict n i k).2, failed := failed })

/-- The sealed unit hears of its own region's outcome (13 R360). -/
def State.smuHears (u : State) (k : Check) (pass : Bool) : State := if k.source = 49 then u.judgeIndication pass else u

/-- An evaluation by its outcome. -/
theorem evaluate_of_check (h : u.checkOf n i = some k) : u.evaluate n i =
    (let o := (u.verdict n i k).1
     let r := u.regionNow n i
     let run := if o = some true then 0 else if o = some false then r.run + 1 else r.run
     let raised := decide (o = some false) && decide (k.failAfter ≤ run)
     let t := (u.regionJudged n i k (if raised then 0 else run) (outcomeCode o) (r.failed && decide (o ≠ some true))).smuHears k (decide (o = some true))
     if raised then t.photoFail n i k else t) := by
  unfold State.evaluate
  rw [h]
  rfl

theorem evaluate_passes (h : u.checkOf n i = some k) (ho : (u.verdict n i k).1 = some true) :
    u.evaluate n i = (u.regionJudged n i k 0 1 false).smuHears k true := by
  rw [evaluate_of_check h, ho]
  simp [outcomeCode]

/-- A failure short of fail_after is only counted. -/
theorem evaluate_counts (h : u.checkOf n i = some k) (ho : (u.verdict n i k).1 = some false) (hr : (u.regionNow n i).run + 1 < k.failAfter) :
    u.evaluate n i = (u.regionJudged n i k ((u.regionNow n i).run + 1) 2 (u.regionNow n i).failed).smuHears k false := by
  rw [evaluate_of_check h, ho]
  simp [outcomeCode, Nat.not_le.2 hr]

theorem evaluate_fails (h : u.checkOf n i = some k) (ho : (u.verdict n i k).1 = some false) (hr : k.failAfter ≤ (u.regionNow n i).run + 1) :
    u.evaluate n i = ((u.regionJudged n i k 0 2 (u.regionNow n i).failed).smuHears k false).photoFail n i k := by
  rw [evaluate_of_check h, ho]
  simp [outcomeCode, hr]

theorem evaluate_unjudged (h : u.checkOf n i = some k) (ho : (u.verdict n i k).1 = none) :
    u.evaluate n i = (u.regionJudged n i k (u.regionNow n i).run 3 (u.regionNow n i).failed).smuHears k false := by
  rw [evaluate_of_check h, ho]
  simp [outcomeCode]

theorem verdict_golden (h : k.mode = 1) : (u.verdict n i k).1 = some (decide (regionCrc (u.regionWords n k.rect) = k.expected)) := by
  simp [State.verdict, State.outcome, h]

theorem regionReady_awake (h : u.regionReady n i = true) : u.awake = true := by
  simp only [State.regionReady, Bool.and_eq_true] at h
  exact h.1.1.1

theorem exec_regionEvaluation (hn : n < 8) (hi : i < 32) (h : (s.tick dt).regionReady n i = true) :
    exec (.regionEvaluation dt n i) s = .next ((s.tick dt).evaluate n i) :=
  happen_of_ready (ready := fun t => decide (n < 8) && decide (i < 32) && t.awake && t.regionReady n i) (eff := fun t => t.evaluate n i)
    (by simp only [decide_eq_true hn, decide_eq_true hi, regionReady_awake h, h, Bool.and_self])

theorem exec_photoRearm (hn : n < 8) (hi : i < 32) (ha : (s.tick dt).awake = true) (h : (s.tick dt).mayRearm crew n i = true) :
    exec (.photoRearm dt crew n i) s = .next ((s.tick dt).rearm n i) :=
  happen_of_ready (ready := fun t => decide (n < 8) && decide (i < 32) && t.awake && t.mayRearm crew n i) (eff := fun t => t.rearm n i)
    (by simp only [decide_eq_true hn, decide_eq_true hi, ha, h, Bool.and_self])

/-! ### The limp picture (12 R339, R340, 15 R397) -/

theorem exec_limpFrameStart (h : (s.tick dt).limpReady = true) : exec (.limpFrameStart dt gpio) s = .next ((s.tick dt).limpFrame gpio) :=
  happen_of_ready (ready := fun t => t.limpReady) (eff := fun t => t.limpFrame gpio) h

theorem exec_limpRecordLoaded {q : LimpRecord} (h : (s.tick dt).limpLoadReady = true) :
    exec (.limpRecordLoaded dt q) s = .next ((s.tick dt).limpStart q) :=
  happen_of_ready (ready := fun t => t.limpLoadReady) (eff := fun t => t.limpStart q) h

/-- Lane d's frame begins under the limp composer, before its picture is written. -/
def State.limpFrameBegun (u : State) : State :=
  let d := u.limp.lane
  (((u.dropKept d).count (laneCount d 0) 1).modLane d (fun l =>
    { l with frameAt := u.now, timing := some (u.frameTiming d), stalls := [], lost := [],
             lastPixel := u.sentPixel d (u.laneW d - 1) (u.laneH d - 1) })).sendFrame d

theorem limpFrame_eq (u : State) (gpio : Nat) : u.limpFrame gpio = u.limpFrameBegun.writeLimp gpio := rfl

/-- Every pixel of lane d's active area holds its word of the limp picture. -/
def State.limpPainted (u : State) (q : LimpRecord) (gpio : Nat) : State :=
  u.setPixels u.limp.lane ((u.active u.limp.lane).pixels.map (fun p => (p, u.limpWord q gpio p.1 p.2)))

theorem writeLimp_of_record {q : LimpRecord} (h : u.limp.record = some q) : u.writeLimp gpio =
    (u.limpPainted q gpio).modLimp (fun l => { l with gpio := gpio, expected := q.bitmaps.zipIdx.map (fun b =>
      (b.2, regionCrc ((limpRect b.1).pixels.map (fun p => (u.limpPainted q gpio).pixel u.limp.lane p.1.toNat p.2.toNat)))) }) := by
  simp only [State.writeLimp, h]
  rfl

theorem writeLimp_without_record (h : u.limp.record = none) : u.writeLimp gpio = u := by
  simp only [State.writeLimp, h]

/-- Settles O48: an evaluation by its outcome, and the equations of rearming and of the limp composer. When a rearming takes place is the model's choice
(notes/assumptions/51). -/
theorem photoAndLimp : Obligations.PhotoAndLimp := by
  unfold Obligations.PhotoAndLimp
  intro dt n i s hn hi u r
  refine ⟨fun k hready hk => ?region, fun crew ha h => exec_photoRearm hn hi ha h, fun gpio h => ?frame, fun q h => exec_limpRecordLoaded h⟩
  case region =>
    intro ws crc o judged told
    rw [exec_regionEvaluation hn hi hready]
    exact ⟨verdict_golden, fun ho => congrArg _ (evaluate_passes hk ho), fun ho hr => congrArg _ (evaluate_counts hk ho hr),
      fun ho hr => congrArg _ (evaluate_fails hk ho hr), fun ho => congrArg _ (evaluate_unjudged hk ho)⟩
  case frame =>
    intro d t
    rw [exec_limpFrameStart h, limpFrame_eq]
    exact ⟨fun q hq => congrArg _ (writeLimp_of_record hq), fun hq => congrArg _ (writeLimp_without_record hq)⟩

end Sys2Proof.Machine
end

section
/-! SUPPORT and CERTIFICATE of the sealed measuring unit's own events (13 R351, R354, R359 to R362, R365, R366, R368, 15 R400). -/

namespace Sys2Proof.Machine

open Sys2Proof

variable {s u : State} {dt k : Nat} {slots : List SmuSlot} {fwSigned : Bool} {x : SmuSlot}

/-! ### The start (13 R362, R368) -/

/-- The monotonic counter has lost its value: it is 0, and no authentic slot says so. -/
def State.counterLost (u : State) (slots : List SmuSlot) : Prop := u.modes.monotonic = 0 ∧ ∀ y ∈ slots, y.authentic = true → y.counter ≠ 0

theorem counterLost_iff : (decide (u.modes.monotonic = 0) && !slots.any (fun y => y.authentic && decide (y.counter = 0))) = true ↔
    u.counterLost slots := by
  simp [State.counterLost]

/-- The unit running, before it has loaded a record. -/
def State.smuRunning (u : State) (slots : List SmuSlot) (fwSigned : Bool) : State :=
  u.modSmu (fun q => { q with running := true, tick := 0, tickAt := u.now, fwOk := fwSigned, slots := slots, judgedAt := u.now,
                              timeValid := !u.clocks.xtal32Failed && !u.modes.rcWindow })

/-- The island's counts are taken over, and source 50 follows the unit's fault. -/
def State.islandTaken (u : State) : State := (u.modModes (fun m => { m with counting := false, wakePulses := 0, seconds := 0 })).smuFault

/-- No record is usable. -/
def State.storageLost (u : State) : State :=
  (u.modSmu (fun q => { q with storageFault := true, pulses := [0, 0, 0, 0], window := [0] })).smuEvent 4

/-- The slot that the monotonic counter names. -/
def State.namedSlot (u : State) (slots : List SmuSlot) : Option SmuSlot :=
  slots.find? (fun y => y.authentic && decide (y.counter = u.modes.monotonic))

theorem startSmu_named (hl : ¬ u.counterLost slots) (h : u.namedSlot slots = some x) :
    u.startSmu slots fwSigned = ((u.smuRunning slots fwSigned).loadSlot x).islandTaken := by
  rw [← counterLost_iff, Bool.not_eq_true] at hl
  simp only [State.namedSlot] at h
  simp only [State.startSmu, hl, Bool.false_eq_true, if_false, h]
  rfl

theorem startSmu_unnamed (hl : ¬ u.counterLost slots) (h : u.namedSlot slots = none) :
    u.startSmu slots fwSigned = (u.smuRunning slots fwSigned).storageLost.islandTaken := by
  rw [← counterLost_iff, Bool.not_eq_true] at hl
  simp only [State.namedSlot] at h
  simp only [State.startSmu, hl, Bool.false_eq_true, if_false, h]
  rfl

/-- Without the counter the newest slot is taken, and the unit needs verification. -/
theorem startSmu_newest (hl : u.counterLost slots) (h : newestSlot slots = some x) :
    u.startSmu slots fwSigned = ((((u.smuRunning slots fwSigned).loadSlot x).setNeeds true).auditEvent 5).islandTaken := by
  rw [← counterLost_iff] at hl
  simp only [State.startSmu, hl, if_true, h]
  rfl

theorem startSmu_empty (hl : u.counterLost slots) (h : newestSlot slots = none) :
    u.startSmu slots fwSigned = (u.smuRunning slots fwSigned).storageLost.islandTaken := by
  rw [← counterLost_iff] at hl
  simp only [State.startSmu, hl, if_true, h]
  rfl

theorem exec_smuStart (hr : (s.tick dt).smu.running = false) (hp : (s.tick dt).powered = true) :
    exec (.smuStart dt slots fwSigned) s = .next ((s.tick dt).startSmu slots fwSigned) :=
  happen_of_ready (ready := fun t => !t.smu.running && t.powered) (eff := fun t => t.startSmu slots fwSigned) (by simp only [hr, hp, Bool.not_false, Bool.and_self])

/-! ### Pulses (13 R351 to R353, 15 R400) -/

/-- SMU_PULSE0 is a wake source: its instant is recorded. -/
def State.pulseSeen (u : State) (k : Nat) : State := if k = 0 then u.modModes (fun m => { m with pulse0At := some u.now }) else u

@[simp] theorem pulseSeen_smu (u : State) (k : Nat) : (u.pulseSeen k).smu = u.smu := by
  unfold State.pulseSeen
  split <;> rfl

@[simp] theorem pulseSeen_counting (u : State) (k : Nat) : (u.pulseSeen k).modes.counting = u.modes.counting := by
  unfold State.pulseSeen
  split <;> rfl

/-- A pulse counted in its input alone. -/
def State.pulseCounted (u : State) (k : Nat) : State :=
  ((u.pulseSeen k).modSmu (fun q =>
    { q with pulses := (List.range 4).map (fun i => q.pulses.getD i 0 + b2n (decide (i = k))) })).overrateCheck k

theorem pulseEdge_running (h : u.smu.running = true) :
    u.pulseEdge k = if k = u.num 0x7801 2 then (u.pulseCounted k).checkKm else u.pulseCounted k :=
  if_pos ((congrArg Smu.running (pulseSeen_smu u k)).trans h)

theorem pulseEdge_stopped (h : u.smu.running = false) : u.pulseEdge k =
    if k = 0 ∧ u.modes.counting = true then (u.pulseSeen k).modModes (fun m => { m with wakePulses := min 0xFFFF (m.wakePulses + 1) })
    else u.pulseSeen k := by
  have hr : (u.pulseSeen k).smu.running = false := (congrArg Smu.running (pulseSeen_smu u k)).trans h
  rw [← pulseSeen_counting u k]
  exact if_neg (Bool.eq_false_iff.1 hr)

theorem exec_smuPulseEdge (hk : k < 4) (hm : (s.tick dt).modes.mode ≠ .unpowered) :
    exec (.smuPulseEdge dt k) s = .next ((s.tick dt).pulseEdge k) :=
  happen_of_ready (ready := fun t => decide (k < 4) && decide (t.modes.mode ≠ .unpowered)) (eff := fun t => t.pulseEdge k)
    (by simp only [decide_eq_true hk, decide_eq_true hm, Bool.and_self])

theorem exec_overrateClear (ho : (s.tick dt).smu.overrate = true) (ht : (s.tick dt).smu.overrateAt + 1_000_000_000 ≤ (s.tick dt).now) :
    exec (.overrateClear dt) s = .next ((s.tick dt).modSmu (fun q => { q with overrate := false })) :=
  happen_of_ready (ready := fun t => t.smu.overrate && decide (t.smu.overrateAt + 1_000_000_000 ≤ t.now))
    (eff := fun t => t.modSmu (fun q => { q with overrate := false })) (by simp only [ho, decide_eq_true ht, Bool.and_self])

/-! ### The tick (13 R354, R356, R362, R372) -/

theorem exec_smuTick (hr : (s.tick dt).smu.running = true) (ht : (s.tick dt).smu.timeValid = false ∨ (s.tick dt).smu.nextTick ≤ (s.tick dt).now) :
    exec (.smuTick dt) s = .next (s.tick dt).smuTick :=
  happen_of_ready (ready := fun t => t.tickDue) (eff := fun t => t.smuTick) (by
    simpa only [State.tickDue, hr, Bool.true_and, Bool.or_eq_true, Bool.not_eq_true', decide_eq_true_eq] using ht)

/-- The tick's fare and its journey's time, with the waiting requests taken. -/
def State.tickFare (u : State) : State :=
  (u.accrue (u.odometer - (u.smu.window.head?).getD u.odometer)).modSmu (fun q =>
    { q with journey := { q.journey with ticks := if q.journey.kind = 0 then 0 else q.journey.ticks + 1 },
             window := (u.odometer :: q.window).take 11, effects := [] })

/-- The requests served in their order, and the tick counted. -/
def State.tickServed (u : State) : State :=
  (u.smu.effects.foldl State.smuServe u.tickFare).modSmu (fun q =>
    { q with tick := q.tick + 1, tickAt := if q.timeValid then u.smu.nextTick else u.now, subTicks := (q.subTicks + 1) % 10,
             time := if q.subTicks = 9 then q.time + 1 else q.time })

/-- The registers of a tick shown as one set, the indication placed. -/
def State.tickShown (u : State) : State := u.placeIndication.modSmu (fun q => { q with view := u.placeIndication.smuView })

theorem smuTick_eq (u : State) :
    u.smuTick = (if u.tickServed.recordDue u = true then u.tickServed.writeRecord else u.tickServed).tickShown := rfl

theorem smuTick_records (h : u.tickServed.recordDue u = true) : u.smuTick = u.tickServed.writeRecord.tickShown := by rw [smuTick_eq, if_pos h]

theorem smuTick_unrecorded (h : ¬ u.tickServed.recordDue u = true) : u.smuTick = u.tickServed.tickShown := by rw [smuTick_eq, if_neg h]

theorem recordDue_iff {t : State} : t.recordDue u = true ↔ (∃ a ∈ u.smu.effects, a.effect ≠ .refused) ∨ t.smu.recordOdo + 1000 ≤ t.odometer := by
  simp [State.recordDue]

/-! ### The indication (13 R359, R360) -/

theorem exec_indicationPost {b : Nat} {raster : List Nat} (hr : (s.tick dt).smu.running = true) (hb : b < 2) (hf : (s.tick dt).bufferFree b = true)
    (ho : (s.tick dt).rasterOk raster = true) : exec (.indicationPost dt b raster) s = .next ((s.tick dt).postIndication b raster) :=
  happen_of_ready (ready := fun t => t.smu.running && decide (b < 2) && t.bufferFree b && t.rasterOk raster) (eff := fun t => t.postIndication b raster)
    (by simp only [hr, decide_eq_true hb, hf, ho, Bool.and_self])

theorem setValidity_ends (h : u.smu.indValid = true) :
    u.setValidity false = ((u.modSmu (fun q => { q with indValid := false, out := true, passes := 0 })).count 0x680 1).smuEvent 1 :=
  if_neg (by rw [h]; decide)

theorem exec_indicationGapTimeout (hr : (s.tick dt).smu.running = true) (hv : (s.tick dt).smu.indValid = true)
    (ht : (s.tick dt).smu.judgedAt + (s.tick dt).num 0x7801 9 * 1_000_000 ≤ (s.tick dt).now) :
    exec (.indicationGapTimeout dt) s = .next ((s.tick dt).setValidity false) :=
  happen_of_ready (ready := fun t => t.smu.running && t.smu.indValid && decide (t.smu.judgedAt + t.num 0x7801 9 * 1_000_000 ≤ t.now))
    (eff := fun t => t.setValidity false) (by simp only [hr, hv, decide_eq_true ht, Bool.and_self])

/-! ### The seal and verification mode (13 R365, R366) -/

theorem exec_smuSealChange {opened : Bool} (hr : (s.tick dt).smu.running = true) (ho : (s.tick dt).smu.sealOpen = !opened) :
    exec (.smuSealChange dt opened) s = .next ((s.tick dt).sealChange opened) :=
  happen_of_ready (ready := fun t => t.smu.running && decide (t.smu.sealOpen ≠ opened)) (eff := fun t => t.sealChange opened)
    (by rw [hr, ho]; cases opened <;> rfl)

theorem sealChange_stays (h : u.smu.verifying = false ∨ u.smu.closing.isSome = true) :
    u.sealChange false = u.modSmu (fun q => { q with sealOpen := false }) := by
  have hopen : ¬ (u.smu.verifying = true ∧ u.smu.closing.isNone = true) := by
    rintro ⟨hv, hn⟩
    rcases h with h | h
    · exact Bool.false_ne_true (h.symm.trans hv)
    · rw [Option.isNone_iff_eq_none.1 hn] at h
      exact Bool.false_ne_true h
  rw [State.sealChange, if_neg Bool.false_ne_true, if_neg hopen]

/-- A seal that closes before VERIFY_CLOSE ends verification mode. -/
theorem sealChange_leaves (hv : u.smu.verifying = true) (hc : u.smu.closing = none) :
    u.sealChange false = (u.modSmu (fun q => { q with sealOpen := false })).leaveVerification := by
  rw [State.sealChange, if_neg Bool.false_ne_true, if_pos ⟨hv, Option.isNone_iff_eq_none.2 hc⟩]

theorem exec_sealOpenTimeout (hr : (s.tick dt).smu.running = true) (ho : (s.tick dt).smu.sealOpen = true) (ha : (s.tick dt).smu.sealAnswered = false)
    (ht : (s.tick dt).smu.sealSince + 60_000_000_000 ≤ (s.tick dt).now) : exec (.sealOpenTimeout dt) s = .next (s.tick dt).sealTimeout :=
  happen_of_ready (ready := fun t => t.smu.running && t.smu.sealOpen && !t.smu.sealAnswered && decide (t.smu.sealSince + 60_000_000_000 ≤ t.now))
    (eff := fun t => t.sealTimeout) (by simp only [hr, ho, ha, decide_eq_true ht, Bool.not_false, Bool.and_self])

theorem exec_showIdEnd (hs : (s.tick dt).smu.showId = true) (ht : (s.tick dt).smu.showIdAt + 10_000_000_000 ≤ (s.tick dt).now) :
    exec (.showIdEnd dt) s = .next ((s.tick dt).modSmu (fun q => { q with showId := false })) :=
  happen_of_ready (ready := fun t => t.smu.showId && decide (t.smu.showIdAt + 10_000_000_000 ≤ t.now))
    (eff := fun t => t.modSmu (fun q => { q with showId := false })) (by simp only [hs, decide_eq_true ht, Bool.and_self])

theorem exec_verifyCloseTimeout {c : SmuClosing} (hc : (s.tick dt).smu.closing = some c) (ht : c.since + 1_000_000_000 ≤ (s.tick dt).now) :
    exec (.verifyCloseTimeout dt) s = .next (s.tick dt).closeFailed := by
  have hready : (s.tick dt).smu.closing.any (fun x => decide (x.since + 1_000_000_000 ≤ (s.tick dt).now)) = true :=
    any_of_some hc (decide_eq_true ht)
  show execVerifyCloseTimeout dt s = _
  rw [execVerifyCloseTimeout, happen_of_ready hready]

/-- A VERIFY_CLOSE that fails restores the parameters and is answered with result 5. -/
theorem closeFailed_of_closing {c : SmuClosing} (h : u.smu.closing = some c) : u.closeFailed =
    (((u.smu.savedParams.foldl (fun w p => w.setKey p.1 p.2) u).modSmu (fun q => { q with closing := none, savedParams := [] })).placeIndication).smuAnswer
      c.crew c.cookie 5 0 := by
  simp only [State.closeFailed, h]

theorem exec_verifyInactivityTimeout (hv : (s.tick dt).smu.verifying = true) (hc : (s.tick dt).smu.closing = none)
    (ht : (s.tick dt).smu.lastAuth + 1_800_000_000_000 ≤ (s.tick dt).now) :
    exec (.verifyInactivityTimeout dt) s = .next (s.tick dt).leaveVerification :=
  happen_of_ready (ready := fun t => t.smu.verifying && t.smu.closing.isNone && decide (t.smu.lastAuth + 1_800_000_000_000 ≤ t.now))
    (eff := fun t => t.leaveVerification) (by simp only [hv, hc, decide_eq_true ht, Option.isNone_none, Bool.and_self])

/-- Settles O49: each clause is one command and the equation of the unit's operation that it carries out. That overrate is counted for each input alone over
a sliding window (notes/assumptions/27) and what a loaded record takes over (71) are the model's choices. -/
theorem smuEvents : Obligations.SmuEvents := by
  unfold Obligations.SmuEvents
  intro dt s u
  refine ⟨fun slots fwSigned hr hp => ?start, fun k hk hm => ?pulse, exec_overrateClear, fun hr ht => ?tick,
    fun b raster hr hb hf ho => exec_indicationPost hr hb hf ho, fun hr hv ht => (exec_indicationGapTimeout hr hv ht).trans (congrArg _ (setValidity_ends hv)),
    fun hr ho => exec_smuSealChange (opened := true) hr ho,
    fun hr ho hv => (exec_smuSealChange (opened := false) hr ho).trans
      (congrArg _ (sealChange_stays (.inl hv))), fun hr ho hv => ?closed, exec_sealOpenTimeout, exec_showIdEnd,
    fun k hc ht => (exec_verifyCloseTimeout hc ht).trans (congrArg _ (closeFailed_of_closing hc)),
    exec_verifyInactivityTimeout⟩
  case start =>
    intro b up bad lost
    rw [exec_smuStart hr hp]
    exact ⟨fun hl x hx => congrArg _ (startSmu_named hl hx), fun hl hx => congrArg _ (startSmu_unnamed hl hx),
      fun hl x hx => congrArg _ (startSmu_newest hl hx), fun hl hx => congrArg _ (startSmu_empty hl hx)⟩
  case pulse =>
    intro p counted
    rw [exec_smuPulseEdge hk hm]
    refine ⟨fun h hd => congrArg _ ((pulseEdge_running h).trans (if_neg hd)), fun h hd => congrArg _ ((pulseEdge_running h).trans (if_pos hd)),
      fun h h0 hc => congrArg _ ((pulseEdge_stopped h).trans (if_pos ⟨h0, hc⟩)), fun h hn => congrArg _ ((pulseEdge_stopped h).trans (if_neg ?_))⟩
    rintro ⟨h0, hc⟩
    rcases hn with hn | hn
    · exact hn h0
    · exact Bool.false_ne_true (hn.symm.trans hc)
  case tick =>
    intro odo t1 t2 due
    rw [exec_smuTick hr ht]
    exact ⟨fun hd => congrArg _ (smuTick_records (recordDue_iff.2 hd)), fun hd => congrArg _ (smuTick_unrecorded (fun h => hd (recordDue_iff.1 h)))⟩
  case closed =>
    intro t
    rw [exec_smuSealChange (opened := false) hr ho]
    exact ⟨fun hc => congrArg _ (sealChange_leaves hv hc), fun hc => congrArg _ (sealChange_stays (.inr hc))⟩

end Sys2Proof.Machine
end

section
/-! SUPPORT and CERTIFICATE of requests to the sealed measuring unit (13 R355, R364, R369). -/

namespace Sys2Proof.Machine

open Sys2Proof

variable {s u : State} {dt crew code : Nat} {i : CqItem} {c : Instr}

/-! ### An item taken from a queue (13 R369) -/

/-- An item's words do not fit its code: their number, or the bits of word 1. -/
def CqItem.misfits (i : CqItem) (code : Nat) : Prop :=
  i.words.length ≠ smuLength code ∨ (2 ≤ i.words.length ∧ i.word 1 &&& smuWord1 code ≠ i.word 1)

/-- A request waits for the tick with its result and effect; its values are drawn. -/
def State.smuWaiting (u : State) (crew : Nat) (r : Nat × SmuEffect) : State :=
  { (u.takeHead crew).modSmu (fun q =>
      { q with effects := q.effects ++ [SmuAnswer.mk crew (cookieOf ((u.head crew).word 0)) r.1 r.2] }) with freeCount := u.freeCount + 13 }

/-- Every SMU request is of the code that its command names. -/
theorem code_of_headSmu (h : u.headSmu crew code = true) : bits ((u.head crew).word 0) 55 48 = code := by
  simp only [State.headSmu, Bool.and_eq_true, Option.any_eq_true, decide_eq_true_eq] at h
  obtain ⟨-, i, hi, hc⟩ := h
  rw [State.head, hi]
  exact hc

theorem smuItem_foreign (h : crew ≠ u.num 0x7801 5) :
    u.smuItem crew = (u.takeHead crew).post crew (eventWord 0x0A 0xF 5 (cookieOf ((u.head crew).word 0)) 0) := if_pos h

/-- The requester's item: whether it fits its code, and the result that waits. -/
theorem smuItem_requester (hq : crew = u.num 0x7801 5) (hs : smuCode code = true) (h : bits ((u.head crew).word 0) 55 48 = code) :
    u.smuItem crew = u.smuWaiting crew
      (if (u.head crew).words.length != smuLength code || (decide (2 ≤ (u.head crew).words.length) && !only (smuWord1 code) ((u.head crew).word 1))
       then (8, .refused) else (u.takeHead crew).smuImage.smuJudge code (u.head crew)) := by
  rw [State.smuItem, if_neg (not_not.2 hq)]
  simp only [h, hs, Bool.not_true, Bool.false_or]
  rfl

theorem misfits_iff : (i.words.length != smuLength code || (decide (2 ≤ i.words.length) && !only (smuWord1 code) (i.word 1))) = true ↔
    i.misfits code := by
  simp [CqItem.misfits, only]

/-- What a command that takes an SMU request of a code does. -/
def smuAsks (s : State) (dt crew : Nat) (c : Instr) (code : Nat) : Prop :=
  let u := s.tick dt
  u.headSmu crew code = true →
    (crew ≠ u.num 0x7801 5 → exec c s = .next ((u.takeHead crew).post crew (eventWord 0x0A 0xF 5 (cookieOf ((u.head crew).word 0)) 0))) ∧
    (crew = u.num 0x7801 5 → (u.head crew).misfits code → exec c s = .next (u.smuWaiting crew (8, .refused))) ∧
    (crew = u.num 0x7801 5 → (u.head crew).words.length = smuLength code →
      (2 ≤ (u.head crew).words.length → (u.head crew).word 1 &&& smuWord1 code = (u.head crew).word 1) →
      exec c s = .next (u.smuWaiting crew ((u.takeHead crew).smuImage.smuJudge code (u.head crew))))

/-- Every request of the unit's codes is taken alike. -/
theorem smuAsks_of_exec (hs : smuCode code = true) (hx : exec c s = happen dt (fun t => t.headSmu crew code) (fun t => t.smuItem crew) s) :
    smuAsks s dt crew c code := by
  intro h
  have hcode := code_of_headSmu h
  rw [hx, happen_of_ready (ready := fun t => t.headSmu crew code) h]
  refine ⟨fun hq => congrArg _ (smuItem_foreign hq), fun hq hbad => ?_, fun hq hlen hword => ?_⟩
  · rw [smuItem_requester hq hs hcode, if_pos (misfits_iff.2 hbad)]
  · have hfits : ¬ ((s.tick dt).head crew).misfits code := not_or.2 ⟨not_not.2 hlen, fun ⟨h2, hne⟩ => hne (hword h2)⟩
    rw [smuItem_requester hq hs hcode, if_neg (fun hb => hfits (misfits_iff.1 hb))]

/-! ### Requests of a journey and of verification mode (13 R355, R364) -/

theorem smuJudge_hired (hr : u.smu.running = true) (hk : u.smu.journey.kind = 1) :
    u.smuJudge 1 i = (1, .refused) ∧ u.smuJudge 3 i = (0, .stop) ∧ u.smuJudge 4 i = (1, .refused) ∧
      u.smuJudge 5 i = (0, .supplement (i.word 1 % 8)) := by
  have hire (t : Nat) : u.hireResult t = 1 := by simp [State.hireResult, hk]
  refine ⟨?_, ?_, ?_, ?_⟩ <;> simp [State.smuJudge, hr, hk, hire]

/-- Outside verification mode its requests are refused. -/
theorem smuJudge_unverified (hr : u.smu.running = true) (hv : u.smu.verifying = false) :
    u.smuJudge 0x12 i = (3, .refused) ∧ u.smuJudge 0x13 i = (3, .refused) ∧ u.smuJudge 0x14 i = (3, .refused) ∧ u.smuJudge 0x15 i = (3, .refused) := by
  refine ⟨?_, ?_, ?_, ?_⟩ <;> simp [State.smuJudge, hr, hv]

/-- Settles O50: all fourteen commands take their item alike. The 13 free values that a request draws (notes/assumptions/28), the bits that make an item
malformed (22) and the order of the results of HIRE (29) are the model's choices. -/
theorem smuRequests : Obligations.SmuRequests := by
  unfold Obligations.SmuRequests
  intro dt crew s u i v w waits asks
  have taken {c : Instr} {code : Nat} (hs : smuCode code = true)
      (hx : exec c s = happen dt (fun t => t.headSmu crew code) (fun t => t.smuItem crew) s) : asks c code := smuAsks_of_exec hs hx
  exact ⟨taken (by decide) rfl, taken (by decide) rfl, taken (by decide) rfl, taken (by decide) rfl, taken (by decide) rfl, taken (by decide) rfl,
    taken (by decide) rfl, taken (by decide) rfl, taken (by decide) rfl, taken (by decide) rfl, taken (by decide) rfl, taken (by decide) rfl,
    taken (by decide) rfl, taken (by decide) rfl, smuJudge_hired, smuJudge_unverified⟩

end Sys2Proof.Machine
end

section
/-! SUPPORT and CERTIFICATES of security (14): revocation and alarm policies, the check of boot images, debug unlock, and alarms. -/

namespace Sys2Proof.Machine

open Sys2Proof

variable {s u : State} {dt n a : Nat} {acc : Acc} {v : Word}

/-- Settles O53: a word that is taken weakens no field, and one that is refused leaves the old word. -/
theorem alarmPoliciesNeverWeaken : Obligations.AlarmPoliciesNeverWeaken := by
  unfold Obligations.AlarmPoliciesNeverWeaken
  intro dt acc v s h old
  refine ⟨_, exec_alarmPolicyWrite h, ?_⟩
  rw [writePolicy_eq]
  refine ⟨?neverWeaker, fun hv hkeeps => if_pos ⟨hv, hkeeps⟩, fun ⟨a, ha, hweak⟩ => if_neg fun ⟨_, hkeeps⟩ => ?refused⟩
  case neverWeaker =>
    split
    · rename_i htaken
      exact htaken.2
    · exact fun a _ => ⟨le_rfl, le_rfl⟩
  case refused =>
    obtain ⟨hp, hc⟩ := hkeeps a ha
    rcases hweak with hw | hw
    · exact Nat.not_lt.2 hp hw
    · exact Nat.not_lt.2 hc hw

/-- Settles O52: the slot is kept where it runs or where no other slot could boot, and in the other case `revokeSlot_blows` gives the state. -/
theorem revocationSparesTheLastSlot : Obligations.RevocationSparesTheLastSlot := by
  unfold Obligations.RevocationSparesTheLastSlot
  intro dt acc v s u f h h4 hlock
  refine ⟨fun hlast => ?last, fun k hrun hk hne hrevoked hhash => ?blown⟩
  case last =>
    have hspare : u.sec.runningSlot = v.toNat ∨ ¬ u.otherSlot v.toNat := by
      refine hlast.imp_right fun hnone ⟨k, hk, hne, hfree, hheld⟩ => ?_
      rcases hnone k hk hne with hrevoked | hempty
      · exact Bool.false_ne_true (hfree.symm.trans hrevoked)
      · rw [hempty] at hheld
        exact Bool.false_ne_true hheld
    exact ⟨_, (exec_revoke h).trans (congrArg _ (revokeSlot_last hlock h4 hspare)), rfl, rfl⟩
  case blown =>
    have hother : u.otherSlot v.toNat := ⟨k, hk, hne, hrevoked, Option.isSome_iff_ne_none.2 hhash⟩
    refine ⟨_, (exec_revoke h).trans (congrArg _ (revokeSlot_blows hlock h4 hrun hother)), ?_, rfl⟩
    simp only [State.modSec_sec, Nat.testBit_or, Nat.testBit_two_pow_self, Bool.or_true]

/-! ### The check of boot images (14 R375, R376, 15 R396) -/

section Boot

variable {imageA imageB : BootImage}

/-- What an accepted image's configuration starts at once, and the links. -/
def State.booted (u : State) : State := if u.modes.step = .configured then u.startEarly.startLinks else u.startLinks

theorem bootAll_eq (u : State) (imageA imageB : BootImage) : u.bootAll imageA imageB = (u.checkImages imageA imageB).booted := by
  rw [State.bootAll, State.bootCheck, State.booted]
  exact apply_ite State.startLinks _ _ _

theorem checkImages_first (h : u.imageResult imageA = 0) : u.checkImages imageA imageB = u.acceptImage imageA 0x10 := if_pos h

theorem checkImages_second (ha : u.imageResult imageA ≠ 0) (hb : u.imageResult imageB = 0) :
    u.checkImages imageA imageB = u.acceptImage imageB (u.imageResult imageA) := (if_neg ha).trans (if_pos hb)

theorem checkImages_none (ha : u.imageResult imageA ≠ 0) (hb : u.imageResult imageB ≠ 0) : u.checkImages imageA imageB =
    (u.modSec (fun c => { c with bootStatus := u.imageResult imageA + u.imageResult imageB * 2 ^ 4 })).refuseImages := (if_neg ha).trans (if_neg hb)

theorem exec_bootImageCheck (h : (s.tick dt).bootReady = true) :
    exec (.bootImageCheck dt imageA imageB) s = .next ((s.tick dt).checkImages imageA imageB).booted :=
  (happen_of_ready (ready := fun t => t.bootReady) (eff := fun t => t.bootAll imageA imageB) h).trans (congrArg _ (bootAll_eq _ _ _))

end Boot

/-! ### Alarms (14 R381, R383 to R387) -/

/-- The strictest policy that has run is recorded. -/
def State.policyRun (u : State) (p : Nat) : State := u.modSec (fun c => { c with policyMax := max c.policyMax p })

/-- A policy by its number, 3 and above an erasure for good. -/
theorem runPolicy_eq (u : State) (p : Nat) : u.runPolicy p =
    if u.sec.erased = true ∧ p < 2 then u
    else if p = 0 then u.policyRun p else if p = 1 then (u.policyRun p).modSec (fun c => { c with lock := true })
    else if p = 2 then (u.policyRun p).eraseKeys false else (u.policyRun p).eraseKeys true := by
  rw [State.runPolicy]
  refine if_congr Iff.rfl rfl ?_
  match p with
  | 0 | 1 | 2 => rfl
  | p + 3 => rfl

/-- An alarm logged, its umpire source raised and debug closed. -/
def State.alarmRaised (u : State) (a : Nat) : State :=
  ((u.modSec (fun c => { c with debugOpen := false, scope := 0, challenge := none,
                                alarmLog := (AlarmEntry.mk a (u.policyNow a) u.uptime :: c.alarmLog).take 16 })).raise secStatus [0]).followNfault.occurAs
    48 (alarmClass u.sec.policy a) a

theorem alarmCore_eq (u : State) (a : Nat) : u.alarmCore a =
    if u.romBusy = true then ((u.alarmRaised a).runPolicy (u.policyNow a)).resetDomains 16 else (u.alarmRaised a).runPolicy (u.policyNow a) := rfl

theorem alarm_outside_attempt (h : u.sec.challenge = none) : u.alarm a = u.alarmCore a :=
  if_neg (by rw [h]; exact Bool.false_ne_true)

/-- An alarm during a debug attempt ends the attempt as failed. -/
theorem alarm_in_attempt (h : u.sec.challenge ≠ none) : u.alarm a =
    if u.countFailure.failsExceeded = true then (u.countFailure.alarmCore a).alarmCore 4 else u.countFailure.alarmCore a :=
  if_pos (Option.isSome_iff_ne_none.2 h)

theorem exec_securityAlarm (ha : (s.tick dt).awake = true) (h7 : a < 7) : exec (.securityAlarm dt a) s = .next ((s.tick dt).alarm a) :=
  happen_of_ready (ready := fun t => t.awake && decide (a < 7)) (eff := fun t => t.alarm a) (by simp only [ha, decide_eq_true h7, Bool.and_self])

/-! ### Debug (14 R379, R380) -/

section Debug

variable {scope : Nat} {signature : List Byte}

theorem exec_dbgChallengeRead (ha : (s.tick dt).awake = true) : exec (.dbgChallengeRead dt) s = .next (s.tick dt).readChallenge :=
  happen_of_ready (ready := fun t => t.awake) (eff := fun t => t.readChallenge) ha

theorem readChallenge_withheld (h : u.sec.withheld = true) : u.readChallenge = u.send (.jtag []) := if_pos h

theorem readChallenge_fresh (h : u.sec.withheld = false) : u.readChallenge =
    (u.used.modSec (fun c => { c with challenge := some (u.free % 2 ^ 256) })).send (.jtag (leBytes 32 (u.free % 2 ^ 256))) :=
  if_neg (Bool.eq_false_iff.1 h)

theorem exec_dbgUnlock (ha : (s.tick dt).awake = true) :
    exec (.dbgUnlock dt scope signature) s = .next ((s.tick dt).unlockDebug scope signature) :=
  happen_of_ready (ready := fun t => t.awake) (eff := fun t => t.unlockDebug scope signature) ha

/-- The signature of a scope answers the open challenge under the debug key, and LOCK is not in force. -/
def State.scopeVerifies (u : State) (scope : Nat) (signature : List Byte) : Prop :=
  ∃ v h, u.sec.challenge = some v ∧ u.sec.fuses.debugHash = some h ∧ u.sec.lock = false ∧
    Config.ecdsaVerifies h (leBytes 32 v ++ leBytes 4 sysId ++ leBytes 4 scope) signature = true

theorem unlockDebug_factory (h : u.modes.mode = .factory ∧ u.sec.lock = false) : u.unlockDebug scope signature = u.openDebug scope := if_pos h

theorem unlockDebug_verified (hf : ¬ (u.modes.mode = .factory ∧ u.sec.lock = false)) (h : u.scopeVerifies scope signature) :
    u.unlockDebug scope signature = u.openDebug scope := by
  obtain ⟨v, k, hv, hk, hl, hs⟩ := h
  simp only [State.unlockDebug, if_neg hf, hv, hk]
  exact if_pos (by rw [hl, hs]; rfl)

theorem unlockDebug_failed (hf : ¬ (u.modes.mode = .factory ∧ u.sec.lock = false)) (h : ¬ u.scopeVerifies scope signature) :
    u.unlockDebug scope signature = u.debugFailure := by
  unfold State.unlockDebug
  rw [if_neg hf]
  split
  · rename_i v k hv hk
    refine if_neg fun hgood => h ⟨v, k, hv, hk, ?_⟩
    simpa only [Bool.and_eq_true, Bool.not_eq_true'] using hgood
  · rfl

theorem debugFailure_counted (h : u.countFailure.failsExceeded = false) : u.debugFailure = u.countFailure := if_neg (Bool.eq_false_iff.1 h)

theorem debugFailure_alarms (h : u.countFailure.failsExceeded = true) : u.debugFailure = u.countFailure.alarmCore 4 := if_pos h

theorem exec_dbgBackoffExpiry (hw : (s.tick dt).sec.withheld = true) (ht : (s.tick dt).sec.withheldUntil ≤ (s.tick dt).now) :
    exec (.dbgBackoffExpiry dt) s = .next ((s.tick dt).modSec (fun c => { c with withheld := false })) :=
  happen_of_ready (ready := fun t => t.sec.withheld && decide (t.sec.withheldUntil ≤ t.now)) (eff := fun t => t.modSec (fun c => { c with withheld := false }))
    (by simp only [hw, decide_eq_true ht, Bool.and_self])

end Debug

theorem exec_provisionWindowExpiry (h : (s.tick dt).holdOver = true) : exec (.provisionWindowExpiry dt) s = .next (s.tick dt).goLimp :=
  happen_of_ready (ready := fun t => t.holdOver) (eff := fun t => t.goLimp) h

/-- Settles O51: the images by their results, a challenge, a signed scope by whether it verifies, and an alarm by whether it meets a debug attempt. That a
policy below ERASE changes nothing while an erasure is in force is the model's choice (notes/assumptions/72). -/
theorem securityEvents : Obligations.SecurityEvents := by
  unfold Obligations.SecurityEvents
  intro dt s u act alarmed f failed opened booted
  have halarm (v : State) (a : Nat) : v.alarmCore a = alarmed v a := by
    rw [alarmCore_eq, runPolicy_eq]
    rfl
  refine ⟨fun imageA imageB h => ?images, fun ha => ⟨fun h => ?withheld, fun h => ?fresh, fun scope signature => ?unlock, fun a h7 => ?alarm⟩,
    exec_dbgBackoffExpiry, exec_provisionWindowExpiry⟩
  case images =>
    rw [exec_bootImageCheck h]
    refine ⟨fun hA => ?_, fun hA hB => ?_, fun hA hB => ?_⟩
    · rw [checkImages_first hA]; rfl
    · rw [checkImages_second hA hB]; rfl
    · rw [checkImages_none hA hB]; rfl
  case withheld => rw [exec_dbgChallengeRead ha, readChallenge_withheld h]
  case fresh => rw [exec_dbgChallengeRead ha, readChallenge_fresh h]
  case unlock =>
    rw [exec_dbgUnlock ha]
    refine ⟨fun hf => congrArg _ (unlockDebug_factory hf), fun hf => ?_⟩
    intro good
    refine ⟨fun hg => congrArg _ (unlockDebug_verified hf hg), fun hg he => ?_, fun hg he => ?_⟩
    · exact congrArg _ ((unlockDebug_failed hf hg).trans (debugFailure_counted he))
    · exact congrArg _ ((unlockDebug_failed hf hg).trans ((debugFailure_alarms he).trans (halarm _ _)))
  case alarm =>
    rw [exec_securityAlarm ha h7]
    refine ⟨fun hc => ?_, fun hc he => ?_, fun hc he => ?_⟩
    · exact congrArg _ ((alarm_outside_attempt hc).trans (halarm _ _))
    · exact congrArg _ ((alarm_in_attempt hc).trans ((if_neg (Bool.eq_false_iff.1 he)).trans (halarm _ _)))
    · rw [alarm_in_attempt hc, ← halarm, ← halarm]
      exact congrArg _ (if_pos he)

end Sys2Proof.Machine
end

section
/-! SUPPORT and CERTIFICATE of LAUNCH, the full self-test, sleep and wake (14 R386, 15 R396, R398 to R400). -/

namespace Sys2Proof.Machine

open Sys2Proof

variable {s u : State} {dt : Nat}

/-! ### The plan and the full self-test (15 R396, R398) -/

theorem exec_planBuilt (h : (s.tick dt).planReady = true) : exec (.planBuilt dt) s = .next (s.tick dt).buildPlan :=
  happen_of_ready (ready := fun t => t.planReady) (eff := fun t => t.buildPlan) h

section Selftest

variable {shells boathouse lp5 : List Nat} {limpOk : Bool}

theorem exec_fullSelftestDone (h : (s.tick dt).testRuns = true) :
    exec (.fullSelftestDone dt shells boathouse lp5 limpOk) s = .next ((s.tick dt).testDone shells boathouse lp5 limpOk) :=
  happen_of_ready (ready := fun t => t.testRuns) (eff := fun t => t.testDone shells boathouse lp5 limpOk) h

/-- A self-test's result recorded: 3 passed, 4 failed, and the failed shells out of use. -/
def State.testRecorded (u : State) (shells boathouse lp5 : List Nat) (limpOk : Bool) : State :=
  (u.modModes (fun m =>
    { m with step := .selftest, selftest := if shells = [] ∧ boathouse = [] ∧ lp5 = [] ∧ limpOk = true then 3 else 4, selftestAsked := false })).modPlacement
    (fun p => { p with shellOk := shells.foldl (fun w k => w &&& (0xFFFF ^^^ 2 ^ (k % 16))) p.shellOk })

/-- Each failed shell and channel is an occurrence of its source. -/
def State.testFaults (u : State) (shells boathouse lp5 : List Nat) : State :=
  lp5.foldl (fun v k => v.occur (120 + k % 8) (k % 8)) (boathouse.foldl (fun v k => v.occur (112 + k % 8) (k % 8))
    (shells.foldl (fun v k => v.occur (96 + k % 16) (k % 16)) u))

theorem testDone_eq (u : State) (shells boathouse lp5 : List Nat) (limpOk : Bool) : u.testDone shells boathouse lp5 limpOk =
    (let x := (u.testRecorded shells boathouse lp5 limpOk).testFaults shells boathouse lp5
     if shells = [] then x else x.followShells) := by
  have hpassed : (if (decide (shells = []) && decide (boathouse = []) && decide (lp5 = []) && limpOk) = true then 3 else 4) =
      if shells = [] ∧ boathouse = [] ∧ lp5 = [] ∧ limpOk = true then 3 else 4 :=
    if_congr (by simp only [Bool.and_eq_true, decide_eq_true_eq, and_assoc]) rfl rfl
  rw [State.testDone, hpassed]
  rfl

end Selftest

/-! ### The end of LAUNCH (14 R377, R386, 15 R396 step 6) -/

theorem exec_launchComplete (h : (s.tick dt).launchReady = true) : exec (.launchComplete dt) s = .next (s.tick dt).launchDone :=
  happen_of_ready (ready := fun t => t.launchReady) (eff := fun t => t.launchDone) h

theorem launchDone_factory (h : u.modes.mode = .factory) : u.launchDone = (u.modModes (fun m => { m with step := .ready })).startLanes := by
  rw [State.launchDone, if_pos (.inl h), State.enterTarget, if_pos h]

theorem launchDone_limp (hm : u.modes.mode ≠ .factory) (hk : u.sec.keysErased = false) (ht : u.num 0x2000 2 = 4) : u.launchDone = u.goLimp := by
  rw [State.launchDone, if_pos (.inr hk), State.enterTarget, if_neg hm, if_pos ht]

theorem launchDone_run (hm : u.modes.mode ≠ .factory) (hk : u.sec.keysErased = false) (ht : u.num 0x2000 2 ≠ 4) : u.launchDone = u.enterRun := by
  rw [State.launchDone, if_pos (.inr hk), State.enterTarget, if_neg hm, if_neg ht]

/-- With key RAM erased LAUNCH goes on to LIMP, or holds for a provisioning package where one may come. -/
theorem launchDone_erased (hm : u.modes.mode ≠ .factory) (hk : u.sec.keysErased = true) : u.launchDone =
    if u.sec.fuses.keyKill = true ∨ u.sec.provisionWindow = 0 then u.goLimp
    else (u.modModes (fun m => { m with step := .hold })).modSec (fun c => { c with holdSince := u.now }) := by
  rw [State.launchDone, if_neg (not_or.2 ⟨hm, by rw [hk]; decide⟩)]

/-! ### Sleep (15 R399) -/

/-- Every lane's frame is complete. -/
theorem sleepReady_of_framesOver (hs : u.modes.sleeping.isSome = true)
    (h : ∀ n, n < 8 → ((u.lane n).scans = true ∨ (u.lane n).mode = .limp) → (u.lane n).gated = true ∨ u.activeEnd n ≤ u.lineNow n) :
    u.sleepReady = true := by
  rw [State.sleepReady, hs, Bool.true_and, List.all_eq_true]
  intro n hn
  have hlane := h n (List.mem_range.1 hn)
  by_cases hrun : (u.lane n).scans = true ∨ (u.lane n).mode = .limp
  · rcases hlane hrun with hg | he <;> simp [*]
  · obtain ⟨hscan, hlimp⟩ := not_or.1 hrun
    simp [hscan, hlimp]

theorem exec_sleepComplete (h : (s.tick dt).sleepReady = true) : exec (.sleepComplete dt) s = .next (s.tick dt).sleepDone :=
  happen_of_ready (ready := fun t => t.sleepReady) (eff := fun t => t.sleepDone) h

/-- The device parked: every lane at rest, the blocks stopped, the unit's record written. -/
def State.parked (u : State) (watch : Bool) : State := (((List.range 8).foldl State.restLane u).stopBlocks.writeRecord).asleep watch

theorem sleepDone_eq {watch : Bool} (h : u.modes.sleeping = some watch) : u.sleepDone =
    if u.modes.wakeDuringSleep = true then (u.parked watch).wakeUp (decide (u.modes.wakePinAt = none)) else u.parked watch := by
  simp only [State.sleepDone, h]
  rfl

/-! ### Wake (15 R400) -/

section Wake

variable {w : WakeSource}

/-- A wake source's bit of POWER.WAKE_SRC. -/
def wakeBit : WakeSource → Nat
  | .wakePin => 0
  | .smuPulse0 => 1

/-- A wake source's instant is recorded. -/
def State.wakeSeen (u : State) (w : WakeSource) : State :=
  u.modModes (fun m => if wakeBit w = 0 then { m with wakePinAt := some u.now } else { m with pulse0At := some u.now })

theorem wakeEnabled_eq (u : State) (w : WakeSource) : u.wakeEnabled w = bitOf (u.reg 0x1_0040 3) (wakeBit w) := by
  cases w <;> rfl

@[simp] theorem wakeSeen_mode (u : State) (w : WakeSource) : (u.wakeSeen w).modes.mode = u.modes.mode := by cases w <;> rfl

/-- The pulse that wakes is counted. -/
theorem b2n_smuPulse0 (w : WakeSource) : b2n (decide (w = .smuPulse0)) = wakeBit w := by cases w <;> rfl

theorem wakeEvent_eq (u : State) (w : WakeSource) : u.wakeEvent w =
    if bitOf (u.reg 0x1_0040 3) (wakeBit w) = false then u.wakeSeen w
    else if u.modes.sleeping.isSome = true then (u.wakeSeen w).modModes (fun m => { m with wakeDuringSleep := true })
    else if (u.modes.mode = .standby ∨ u.modes.mode = .watch) ∧ u.modes.inReset = false then (u.wakeSeen w).wakeUp (decide (w = .smuPulse0))
    else u.wakeSeen w := by
  rw [← wakeEnabled_eq]
  simp only [State.wakeEvent, Bool.not_eq_true']
  cases w <;> rfl

theorem exec_wake (hm : (s.tick dt).modes.mode ≠ .unpowered) : exec (.wake dt w) s = .next ((s.tick dt).wakeEvent w) :=
  happen_of_ready (ready := fun t => decide (t.modes.mode ≠ .unpowered)) (eff := fun t => t.wakeEvent w) (decide_eq_true hm)

theorem wakeEvent_disabled (h : bitOf (u.reg 0x1_0040 3) (wakeBit w) = false) : u.wakeEvent w = u.wakeSeen w := by
  rw [wakeEvent_eq, if_pos h]

theorem wakeEvent_fallingAsleep (h : bitOf (u.reg 0x1_0040 3) (wakeBit w) = true) (hs : u.modes.sleeping.isSome = true) :
    u.wakeEvent w = (u.wakeSeen w).modModes (fun m => { m with wakeDuringSleep := true }) := by
  rw [wakeEvent_eq, h, if_neg (by decide), if_pos hs]

/-- An enabled source while no sleep is under way: it wakes a device that sleeps, and no other. -/
theorem wakeEvent_settled (h : bitOf (u.reg 0x1_0040 3) (wakeBit w) = true) (hs : u.modes.sleeping = none) : u.wakeEvent w =
    if (u.modes.mode = .standby ∨ u.modes.mode = .watch) ∧ u.modes.inReset = false then (u.wakeSeen w).wakeUp (decide (w = .smuPulse0))
    else u.wakeSeen w := by
  rw [wakeEvent_eq, h, hs, if_neg (by decide), if_neg (by decide)]

/-- From WATCH a wake is a reset. -/
theorem wakeUp_watch {pulse : Bool} (h : u.modes.mode = .watch) :
    u.wakeUp pulse = u.modModes (fun m => { m with inReset := true, causePending := m.causePending ||| 4 }) := if_pos h

/-- From STANDBY a wake asks for the switched supplies, and the island counts pulses from then on. -/
theorem wakeUp_standby {pulse : Bool} (h : u.modes.mode = .standby) : u.wakeUp pulse = u.modModes (fun m =>
    { m with pwrReq := true, causePending := m.causePending ||| 4, counting := true, wakePulses := if m.counting then m.wakePulses else b2n pulse,
             seconds := m.seconds + (u.now - m.standbySince) / 1_000_000_000, standbySince := u.now }) :=
  if_neg (by rw [h]; decide)

end Wake

/-- Settles O54: each clause is one command and the equation of what it brings about. That FACTORY carries out LAUNCH's steps (notes/assumptions/25), and when
a wake source counts as active and the pulse that wakes is counted (76), are the model's choices. -/
theorem launchAndSleep : Obligations.LaunchAndSleep := by
  unfold Obligations.LaunchAndSleep
  intro dt s u
  refine ⟨fun h => exec_planBuilt h, fun shells boathouse lp5 limpOk h => ?selftest, fun h hm => ?launched, fun h hm => ?factory, fun watch hs hover => ?sleep,
    fun hm w k hwk => ?wake⟩
  case selftest =>
    intro passed t x
    rw [exec_fullSelftestDone h, testDone_eq]
    exact ⟨fun h0 => congrArg _ (if_pos h0), fun h0 => congrArg _ (if_neg h0)⟩
  case launched =>
    rw [exec_launchComplete h]
    refine ⟨fun hk ht => congrArg _ (launchDone_run hm hk ht), fun hk ht => congrArg _ (launchDone_limp hm hk ht), fun hk hkill hw => ?_, fun hk hd => ?_⟩
    · rw [launchDone_erased hm hk, if_neg (not_or.2 ⟨Bool.eq_false_iff.1 hkill, hw⟩)]
    · rw [launchDone_erased hm hk, if_pos hd]
  case factory => rw [exec_launchComplete h, launchDone_factory hm]
  case sleep =>
    intro rest t
    have hready : u.sleepReady = true := sleepReady_of_framesOver (by rw [hs]; rfl) hover
    rw [exec_sleepComplete hready]
    exact ⟨fun hw => congrArg _ ((sleepDone_eq hs).trans (if_neg (Bool.eq_false_iff.1 hw))), fun hw => congrArg _ ((sleepDone_eq hs).trans (if_pos hw))⟩
  case wake =>
    obtain rfl : k = wakeBit w := by rcases hwk with ⟨rfl, rfl⟩ | ⟨rfl, rfl⟩ <;> rfl
    intro t
    rw [exec_wake hm]
    refine ⟨fun h => congrArg _ (wakeEvent_disabled h), fun h hs => congrArg _ (wakeEvent_fallingAsleep h hs), fun h hs => ?_⟩
    rw [wakeEvent_settled h hs]
    refine ⟨fun hw hr => ?_, fun hsb hr => ?_, fun hw hsb => ?_, fun hr => ?_⟩
    · rw [if_pos ⟨.inr hw, hr⟩, wakeUp_watch ((wakeSeen_mode u w).trans hw)]
      rfl
    · rw [if_pos ⟨.inl hsb, hr⟩, wakeUp_standby ((wakeSeen_mode u w).trans hsb), b2n_smuPulse0]
      rfl
    · rw [if_neg (fun hc => hc.1.elim hsb hw)]
      rfl
    · rw [if_neg (fun hc => Bool.false_ne_true (hc.2.symm.trans hr))]
      rfl

end Sys2Proof.Machine
end

section
/-! SUPPORT and CERTIFICATE of the cascade's links (16 R414, R415, R421, R424, R427): bring-up, retry, loss, and requests that stay unanswered. -/

namespace Sys2Proof.Machine

open Sys2Proof

variable {s u : State} {dt k n peer delay : Nat} {pm tow auth loop : Bool}

/-! ### Bring-up (16 R415) -/

theorem exec_silithLinkUp (hk : k < 2) (h : (s.tick dt).linkUpReady k = true) :
    exec (.silithLinkUp dt k peer pm tow auth loop delay) s = .next ((s.tick dt).linkBringup k peer pm tow auth loop delay) :=
  happen_of_ready (ready := fun t => decide (k < 2) && t.linkUpReady k) (eff := fun t => t.linkBringup k peer pm tow auth loop delay)
    (by simp only [decide_eq_true hk, h, Bool.and_self])

/-- A link refused with a reason. -/
def State.linkRefused (u : State) (k peer r : Nat) : State :=
  ((u.modLink k (fun l => { l with mode := .refused, peer := peer % 4, reason := r, delay := 0, refusedAt := u.now })).raise slkStatus [3]).linkLevel

/-- A link up, its peer reachable. -/
def State.linkRaised (u : State) (k peer : Nat) (tow : Bool) (delay : Nat) : State :=
  (((u.modLink k (fun l => { l with mode := .up, peer := peer % 4, towards := tow, reason := 0, delay := delay % 2 ^ 16 })).raise
    slkStatus [1]).setReachable (peer % 4) true).linkLevel

theorem linkBringup_refused {r : Nat} (h : u.linkRefusal peer pm auth loop = r) (hr : r ≠ 0) :
    u.linkBringup k peer pm tow auth loop delay = u.linkRefused k peer r := by
  subst h
  exact if_pos hr

theorem linkBringup_up (h : u.linkRefusal peer pm auth loop = 0) : u.linkBringup k peer pm tow auth loop delay =
    if ((u.linkRaised k peer tow delay).subordinate && tow) = true then (u.linkRaised k peer tow delay).masterReturns.takeCascadeRef
    else u.linkRaised k peer tow delay := if_neg (not_not.2 h)

theorem linkRefusal_ownNode (h : peer % 4 = u.ownNode) : u.linkRefusal peer pm auth loop = 3 := if_pos h

theorem linkRefusal_twoMasters (h : peer % 4 ≠ u.ownNode) (hm : pm = true) (hc : u.cascMaster = true) : u.linkRefusal peer pm auth loop = 4 := by
  rw [State.linkRefusal, if_neg h, if_pos (by rw [hm, hc]; rfl)]

/-- A peer of another number that is no second master is judged by the loop, the keys and its authentication. -/
theorem linkRefusal_otherNode (h : peer % 4 ≠ u.ownNode) (hm : ¬ (pm = true ∧ u.cascMaster = true)) : u.linkRefusal peer pm auth loop =
    if loop = true then 5 else if u.sec.keys = none then 2 else if auth = false ∨ u.sec.lock = true then 1 else 0 := by
  rw [State.linkRefusal, if_neg h, if_neg (by rwa [Bool.and_eq_true])]
  simp only [Option.isNone_iff_eq_none, Bool.or_eq_true, Bool.not_eq_true']

/-! ### Retry and loss (16 R415, R424) -/

theorem exec_silithLinkRetry (hk : k < 2) (ho : (s.tick dt).slkOn = true) (hm : ((s.tick dt).link k).mode = .refused)
    (ht : ((s.tick dt).link k).refusedAt + 1_000_000_000 ≤ (s.tick dt).now) : exec (.silithLinkRetry dt k) s = .next ((s.tick dt).linkRetry k) :=
  happen_of_ready (ready := fun t => decide (k < 2) && t.slkOn && decide ((t.link k).mode = .refused) &&
      decide ((t.link k).refusedAt + 1_000_000_000 ≤ t.now)) (eff := fun t => t.linkRetry k)
    (by simp only [decide_eq_true hk, ho, decide_eq_true hm, decide_eq_true ht, Bool.and_self])

theorem exec_silithLinkLost (hk : k < 2) (h : (s.tick dt).linkLossReady k = true) : exec (.silithLinkLost dt k) s = .next ((s.tick dt).linkLoss k) :=
  happen_of_ready (ready := fun t => decide (k < 2) && t.linkLossReady k) (eff := fun t => t.linkLoss k)
    (by simp only [decide_eq_true hk, h, Bool.and_self])

/-- A link that trains again, the nodes beyond it unreachable and their spans held. -/
def State.linkDropped (u : State) (k : Nat) : State :=
  let gone := (List.range 4).filter (fun n => decide (n ≠ u.ownNode) && decide ((u.link k).mode = .up) && u.behind k n)
  ((gone.foldl (fun v n => v.setReachable n false)
    ((u.modLink k (fun x => { x with mode := .training, towards := false, delay := 0 })).raise slkStatus [2])).holdSpans).linkLevel

/-- A lost link that was up on the master's side of a subordinate costs it the cascade reference. -/
theorem linkLoss_eq (u : State) (k : Nat) : u.linkLoss k =
    if ((u.linkDropped k).subordinate && decide ((u.link k).mode = .up) && (u.link k).towards) = true then
      (if (u.linkDropped k).clocks.active = 3 then (u.linkDropped k).failover else u.linkDropped k).loseCascade
    else u.linkDropped k := rfl

theorem linkLoss_aside (h : (u.linkDropped k).subordinate = false ∨ (u.link k).mode ≠ .up ∨ (u.link k).towards = false) :
    u.linkLoss k = u.linkDropped k := by
  rw [linkLoss_eq, if_neg]
  rcases h with h | h | h <;> simp [h]

theorem linkLoss_master (hs : (u.linkDropped k).subordinate = true) (hm : (u.link k).mode = .up) (ht : (u.link k).towards = true) :
    u.linkLoss k = (if (u.linkDropped k).clocks.active = 3 then (u.linkDropped k).failover else u.linkDropped k).loseCascade := by
  rw [linkLoss_eq, if_pos (by rw [hs, hm, ht]; rfl)]

/-! ### Requests that a node leaves unanswered (16 R421) -/

section Forwarded

variable {f : Forward}

theorem exec_forwardTimeout (hc : (s.tick dt).configured = true) (hf : (s.tick dt).cascade.forwarded.find? (fun x => x.node == n) = some f)
    (ht : f.at_ + 50_000_000 ≤ (s.tick dt).now) : exec (.forwardTimeout dt n) s = .next ((s.tick dt).forwardFails n) := by
  have hdue : (s.tick dt).cascade.forwarded.any (fun x => x.node == n && decide (x.at_ + 50_000_000 ≤ (s.tick dt).now)) = true := by
    refine List.any_eq_true.2 ⟨f, List.mem_of_find?_eq_some hf, ?_⟩
    rw [Bool.and_eq_true, decide_eq_true_iff]
    exact ⟨List.find?_some (p := fun x : Forward => x.node == n) hf, ht⟩
  have hready : (s.tick dt).forwardDue n = true := by rw [State.forwardDue, hc, hdue]; rfl
  show execForwardTimeout dt n s = _
  rw [execForwardTimeout, happen_of_ready hready]

/-- The entries of the oldest request's message. -/
def State.unanswered (u : State) (n : Nat) (f : Forward) : List Forward :=
  u.cascade.forwarded.filter (fun x => x.node == n && decide (x.via = f.via) && x.req.tag == f.req.tag && x.at_ == f.at_)

/-- They are given up. -/
def State.givenUp (u : State) (n : Nat) (f : Forward) : State :=
  u.modCascade (fun c => { c with forwarded := c.forwarded.filter (fun x => !(u.unanswered n f).contains x) })

/-- Their answers: NODE_UNREACHABLE each. -/
def State.unreachable (u : State) (n : Nat) (f : Forward) : List (Req × Rsp) := (u.unanswered n f).map (fun x => (x.req, Rsp.abort .nodeUnreachable))

theorem forwardFails_can {i c : Nat} (hf : u.cascade.forwarded.find? (fun x => x.node == n) = some f) (hv : f.via = .can i c) :
    u.forwardFails n = (u.unreachable n f).foldl (fun v r => v.canRsp i c r.1 0xF r.2.data) (u.givenUp n f) := by
  simp only [State.forwardFails, hf, State.unreachable, State.givenUp, State.unanswered, hv]

theorem forwardFails_eth {i ip port : Nat} (hf : u.cascade.forwarded.find? (fun x => x.node == n) = some f) (hv : f.via = .eth i ip port) :
    u.forwardFails n = (u.givenUp n f).send (.udp i ip port (buildDatagram n f.req.tag (u.unreachable n f))) := by
  simp only [State.forwardFails, hf, State.unreachable, State.givenUp, State.unanswered, hv]

theorem forwardFails_mailbox {c : Nat} (hf : u.cascade.forwarded.find? (fun x => x.node == n) = some f) (hv : f.via = .mailbox c) :
    u.forwardFails n = (u.givenUp n f).modCrew c (fun x => { x with mbxReply := buildDatagram n f.req.tag (u.unreachable n f) }) := by
  simp only [State.forwardFails, hf, State.unreachable, State.givenUp, State.unanswered, hv]

end Forwarded

/-- Settles O56: a bring-up by the reason it is refused with, a loss by the side it falls on, and an unanswered request by the transport it came on. The order
of the reasons is the model's choice (notes/assumptions/80). -/
theorem cascadeLinks : Obligations.CascadeLinks := by
  unfold Obligations.CascadeLinks
  intro dt k peer delay pm tow auth loop s hk u
  refine ⟨fun h => ?bringup, fun ho hm ht => exec_silithLinkRetry hk ho hm ht, fun h => ?lost, fun n f hc hf ht => ?unanswered⟩
  case bringup =>
    intro no up
    rw [exec_silithLinkUp hk h]
    refine ⟨fun hn => congrArg _ (linkBringup_refused (linkRefusal_ownNode hn) (by decide)),
      fun hn hp hm => congrArg _ (linkBringup_refused (linkRefusal_twoMasters hn hp hm) (by decide)), fun hn hm => ?_⟩
    have href := linkRefusal_otherNode (auth := auth) (loop := loop) hn hm
    refine ⟨fun hl => ?loop, fun hl hkeys => ?keys, fun hl hkeys ha => ?unauthentic, fun hl hkeys ha hlock => ?up⟩
    case loop => exact congrArg _ (linkBringup_refused (href.trans (if_pos hl)) (by decide))
    case keys =>
      have hr := href.trans ((if_neg (Bool.eq_false_iff.1 hl)).trans (if_pos hkeys))
      exact congrArg _ (linkBringup_refused hr (by decide))
    case unauthentic =>
      have hr := href.trans ((if_neg (Bool.eq_false_iff.1 hl)).trans ((if_neg hkeys).trans (if_pos ha)))
      exact congrArg _ (linkBringup_refused hr (by decide))
    case up =>
      have hr : u.linkRefusal peer pm auth loop = 0 := by
        rw [href, if_neg (Bool.eq_false_iff.1 hl), if_neg hkeys, if_neg (by rw [ha, hlock]; decide)]
      rw [linkBringup_up hr]
      refine ⟨fun hs => congrArg _ (if_neg ?_), fun ht hs => congrArg _ (if_pos ?_)⟩
      · rw [Bool.and_eq_true]
        rintro ⟨hsub, ht⟩
        rcases hs with hs | hs
        · exact Bool.false_ne_true (hs.symm.trans ht)
        · exact Bool.false_ne_true (hs.symm.trans hsub)
      · exact Bool.and_eq_true_iff.2 ⟨hs, ht⟩
  case lost =>
    intro lost gone v
    rw [exec_silithLinkLost hk h]
    refine ⟨fun ha => congrArg _ (linkLoss_aside ha), fun hs hm ht => ?_⟩
    rw [linkLoss_master hs hm ht]
    exact ⟨fun h3 => congrArg (fun w : State => Host.Outcome.next w.loseCascade) (if_pos h3),
      fun h3 => congrArg (fun w : State => Host.Outcome.next w.loseCascade) (if_neg h3)⟩
  case unanswered =>
    intro mine t rs
    rw [exec_forwardTimeout hc hf ht]
    exact ⟨fun i c hv => congrArg _ (forwardFails_can hf hv), fun i ip port hv => congrArg _ (forwardFails_eth hf hv),
      fun c hv => congrArg _ (forwardFails_mailbox hf hv)⟩

end Sys2Proof.Machine
end
